-- ==== Sys2Proof/Word.lean ====
section
/-! DEFINITION. Words and the plainest arithmetic on bit positions (R2, R3). -/

namespace Sys2Proof

abbrev Byte := BitVec 8
abbrev W32 := BitVec 32
abbrev W64 := BitVec 64

/-- The n bits of w from bit lo upward (R3). -/
def bits (w lo n : Nat) : Nat := w / 2 ^ lo % 2 ^ n

/-- Bit i of w. -/
def flag (w i : Nat) : Bool := decide (bits w i 1 = 1)

/-- A flag as the bit it encodes. -/
def bit (b : Bool) : Nat := if b then 1 else 0

end Sys2Proof
end

