-- ==== Sys2Proof/Config.lean ====
section
/-! DEFINITION. What an implementation fixes and the spec leaves open. A constant without a body is a free value:
nothing about it can be proved, so a statement that mentions it holds whatever it is. -/

namespace Sys2Proof.Config

/-- R174: the byte of an overlapping copy whose destination starts above its source and inside the source's
extent; the counter counts the bytes so produced. FREE VALUE (log entry 20). -/
opaque overlapByte : Nat → Byte

/-- R304: the length of a lease in logical time. FREE VALUE (log entry 21): no result depends on it. -/
opaque leaseLength : Nat → Nat

/-- R112: whether the access tables of another device allow the n-th access that they check; those tables are that
device's state, not this one's. FREE VALUE (log entry 22). -/
opaque peerAllows : Nat → Bool
/-- R366: the address of the table of another device that refuses the n-th access. FREE VALUE (log entry 22). -/
opaque peerTable : Nat → W64

/-- R366, R376: what names an uncorrectable error in a column of a slot's accumulators. FREE VALUE (log entry 117). -/
opaque accumulatorLine : Nat → Nat → W64

/-- R363: how many cc after its request the hub answers the `shapeq` of a tag; it is at least one. FREE VALUE (log entry 95). -/
opaque hubDelay : Nat → Nat

/-- R383: whether a device whose eviction this one follows is DRAINED by now, which only that device knows; asked at each
count. FREE VALUE (log entry 118). -/
opaque drained : Nat → Bool

/-- R399: byte i of the digest of the running firmware. FREE VALUE (log entry 23). -/
opaque firmwareDigest : Nat → Byte

/-- R399: byte i of the digest of the configuration store. FREE VALUE (log entry 23). -/
opaque configDigest : Nat → Byte

/-- R399: byte i of the n-th signature by the identity key. FREE VALUE (log entry 23). -/
opaque signatureByte : Nat → Nat → Byte

/-- R402: byte i of the fields of the identity memory that are written at manufacture (SERIAL, date, board
revision, key digest). FREE VALUE (log entry 14). -/
opaque manufactureByte : Nat → Byte

/-- R130, R398: this device's id, in the configuration store. DESIGN CHOICE 0 (log entry 12). -/
def deviceId : Nat := 0
/-- R130: the members of the domain in the configuration store, by id. DESIGN CHOICE: this device alone
(log entry 12). -/
def storedMembers : List Nat := [deviceId]
/-- R130: the domain tag in the configuration store. DESIGN CHOICE 0 (log entry 12). -/
def storedTag : Nat := 0
/-- R397: TVECDEF in the configuration store. DESIGN CHOICE 0, its reset value (log entry 12). -/
def storedTvec : W64 := 0

end Sys2Proof.Config
end

