-- ==== Sys2Proof/Syntax.lean ====
section
/-! DEFINITION. The operations of the S, V and A slots, the engine words, and the steps of the other agents
(spec/opcode_table.json), with the operand forms of R53 to R64. -/

namespace Sys2Proof

/-- R53, scalar specifier: a queue entry by age, or a named scalar. -/
inductive SSpec where
  | q (i : Fin 16)
  | n (i : Fin 16)
  deriving DecidableEq, Repr

/-- R53, vector specifier: a queue entry by age, a named vector, or a broadcast of a scalar queue entry. -/
inductive VSpec where
  | y (i : Fin 16)
  | v (i : Fin 8)
  | bcast (i : Fin 8)
  deriving DecidableEq, Repr

/-- R28: the rounding override; `reserved` raises ILLEGAL_OP. -/
inductive Rnd where
  | fpc | rne | rtz | reserved
  deriving DecidableEq, Repr

/-- R55: widths of `sext` and `zext`. -/
inductive ExtWidth where
  | w8 | w16 | w32
  deriving DecidableEq, Repr

/-- R55: type codes of `fcvt`. -/
inductive SType where
  | f32 | f64 | i32 | i64 | u32 | u64 | f16 | bf16
  deriving DecidableEq, Repr

/-- R23: vector element types. -/
inductive VType where
  | f32 | i32 | bf16x2 | f16x2 | i16x2 | e4m3x4 | e5m2x4 | i8x4
  deriving DecidableEq, Repr

/-- R57: conditions of `vcmp`. -/
inductive VCond where
  | eq | ne | lt | le | gt | ge | un | or
  deriving DecidableEq, Repr

/-- R62: the engines of a slot. -/
inductive Eng where
  | m | c0 | c1
  deriving DecidableEq, Repr

/-- R169: the copy channels of a slot. -/
inductive Chan where
  | c0 | c1
  deriving DecidableEq, Repr

/-- R55: the side of `tkwait` and `tksig`: 0 the upstream neighbour C1, 1 the downstream neighbour C0. -/
inductive Side where
  | c1 | c0
  deriving DecidableEq, Repr

/-- R59: load sizes with their extension. -/
inductive LoadSize where
  | b | h | w | d | sb | sh | sw
  deriving DecidableEq, Repr

/-- R59: store sizes. -/
inductive StoreSize where
  | b | h | w | d
  deriving DecidableEq, Repr

/-- R61: operations of `amo`. -/
inductive AmoOp where
  | add | and | or | xor | min | max | minu | maxu | swap | fadd
  deriving DecidableEq, Repr

/-- R61: the width of `amo` and `cas`. -/
inductive AmoWidth where
  | w4 | w8
  deriving DecidableEq, Repr

/-- R60 and R86: page sizes. -/
inductive PageSize where
  | k64 | m2 | g1
  deriving DecidableEq, Repr

/-- R62: the token bits of an engine word. -/
structure Tok where
  pu : Bool
  pd : Bool
  su : Bool
  sd : Bool
  deriving DecidableEq, Repr

/-- R249: matrix types. -/
inductive MType where
  | bf16 | f16 | e4m3 | e5m2 | i8 | sb4
  deriving DecidableEq, Repr

/-- R262: drain formats. -/
inductive DrainFmt where
  | f32 | bf16 | f16 | e4m3 | e5m2 | i16 | i8
  deriving DecidableEq, Repr

/-- R171: the PATH field of a copy word. -/
inductive PathSel where
  | basic | net | direct | relay1 | relay2 | relay3
  deriving DecidableEq, Repr

def SSpec.code : SSpec → Nat
  | .q i => i.val
  | .n i => 16 + i.val
def SSpec.ofCode (c : Nat) : SSpec := if c < 16 then .q (Fin.ofNat 16 c) else .n (Fin.ofNat 16 c)

def VSpec.code : VSpec → Nat
  | .y i => i.val
  | .v i => 16 + i.val
  | .bcast i => 24 + i.val
def VSpec.ofCode (c : Nat) : VSpec :=
  if c < 16 then .y (Fin.ofNat 16 c) else if c < 24 then .v (Fin.ofNat 8 c) else .bcast (Fin.ofNat 8 c)

def Rnd.code : Rnd → Nat | .fpc => 0 | .rne => 1 | .rtz => 2 | .reserved => 3
def Rnd.ofCode : Nat → Rnd | 0 => .fpc | 1 => .rne | 2 => .rtz | _ => .reserved
/-- R28: code 0b11 is reserved. -/
def Rnd.legal (r : Rnd) : Bool := decide (r ≠ .reserved)

def ExtWidth.code : ExtWidth → Nat | .w8 => 0 | .w16 => 1 | .w32 => 2
def ExtWidth.ofCode : Nat → ExtWidth | 0 => .w8 | 1 => .w16 | _ => .w32
/-- The width in bits. -/
def ExtWidth.bits : ExtWidth → Nat | .w8 => 8 | .w16 => 16 | .w32 => 32

def SType.code : SType → Nat
  | .f32 => 0 | .f64 => 1 | .i32 => 2 | .i64 => 3 | .u32 => 4 | .u64 => 5 | .f16 => 6 | .bf16 => 7
def SType.ofCode : Nat → SType
  | 0 => .f32 | 1 => .f64 | 2 => .i32 | 3 => .i64 | 4 => .u32 | 5 => .u64 | 6 => .f16 | _ => .bf16
/-- R55: the integer types of `fcvt`. -/
def SType.isInt : SType → Bool
  | .i32 => true | .i64 => true | .u32 => true | .u64 => true
  | .f32 => false | .f64 => false | .f16 => false | .bf16 => false

def VType.code : VType → Nat
  | .f32 => 0 | .i32 => 1 | .bf16x2 => 2 | .f16x2 => 3 | .i16x2 => 4 | .e4m3x4 => 5 | .e5m2x4 => 6 | .i8x4 => 7
def VType.ofCode : Nat → VType
  | 0 => .f32 | 1 => .i32 | 2 => .bf16x2 | 3 => .f16x2 | 4 => .i16x2 | 5 => .e4m3x4 | 6 => .e5m2x4 | _ => .i8x4
/-- R23: elements per lane. -/
def VType.perLane : VType → Nat
  | .f32 => 1 | .i32 => 1 | .bf16x2 => 2 | .f16x2 => 2 | .i16x2 => 2 | .e4m3x4 => 4 | .e5m2x4 => 4 | .i8x4 => 4
/-- R23: the element width in bits. -/
def VType.width (t : VType) : Nat := 32 / t.perLane
def VType.isInt : VType → Bool
  | .i32 => true | .i16x2 => true | .i8x4 => true
  | .f32 => false | .bf16x2 => false | .f16x2 => false | .e4m3x4 => false | .e5m2x4 => false
def VType.isFp (t : VType) : Bool := !t.isInt
/-- R231: f32, bf16x2, f16x2. -/
def VType.isFp16or32 (t : VType) : Bool := t == .f32 || t == .bf16x2 || t == .f16x2
/-- R231: i32, i16x2. -/
def VType.isInt16or32 (t : VType) : Bool := t == .i32 || t == .i16x2
/-- R231: f32, i32. -/
def VType.isWord32 (t : VType) : Bool := t == .f32 || t == .i32
/-- R36, R231: targets of stochastic rounding. -/
def VType.isSrTarget (t : VType) : Bool := t == .bf16x2 || t == .f16x2 || t == .e4m3x4 || t == .e5m2x4
/-- R237: the part p of a conversion from s to t. -/
def VType.partLegal (s t : VType) (p : Nat) : Bool :=
  if s.perLane ≤ t.perLane then decide (p < t.perLane / s.perLane) else decide (p < s.perLane / t.perLane)

def VCond.code : VCond → Nat
  | .eq => 0 | .ne => 1 | .lt => 2 | .le => 3 | .gt => 4 | .ge => 5 | .un => 6 | .or => 7
def VCond.ofCode : Nat → VCond
  | 0 => .eq | 1 => .ne | 2 => .lt | 3 => .le | 4 => .gt | 5 => .ge | 6 => .un | _ => .or
/-- R57: the unordered and ordered codes are legal only with floating-point types. -/
def VCond.fpOnly (k : VCond) : Bool := k == .un || k == .or

def Eng.code : Eng → Nat | .m => 0 | .c0 => 1 | .c1 => 2
def Eng.ofCode : Nat → Eng | 0 => .m | 1 => .c0 | _ => .c1
def Chan.code : Chan → Nat | .c0 => 1 | .c1 => 2
def Chan.ofCode : Nat → Chan | 1 => .c0 | _ => .c1
def Chan.eng : Chan → Eng | .c0 => .c0 | .c1 => .c1
def Side.code : Side → Nat | .c1 => 0 | .c0 => 1
def Side.ofCode : Nat → Side | 0 => .c1 | _ => .c0

def LoadSize.code : LoadSize → Nat | .b => 0 | .h => 1 | .w => 2 | .d => 3 | .sb => 4 | .sh => 5 | .sw => 6
def LoadSize.ofCode : Nat → LoadSize | 0 => .b | 1 => .h | 2 => .w | 3 => .d | 4 => .sb | 5 => .sh | _ => .sw
/-- R59: the load width in bytes. -/
def LoadSize.bytes : LoadSize → Nat | .b => 1 | .h => 2 | .w => 4 | .d => 8 | .sb => 1 | .sh => 2 | .sw => 4
def LoadSize.signed : LoadSize → Bool
  | .b => false | .h => false | .w => false | .d => false | .sb => true | .sh => true | .sw => true
def StoreSize.code : StoreSize → Nat | .b => 0 | .h => 1 | .w => 2 | .d => 3
def StoreSize.ofCode : Nat → StoreSize | 0 => .b | 1 => .h | 2 => .w | _ => .d
/-- R59: the store width in bytes. -/
def StoreSize.bytes : StoreSize → Nat | .b => 1 | .h => 2 | .w => 4 | .d => 8

def AmoOp.code : AmoOp → Nat
  | .add => 0 | .and => 1 | .or => 2 | .xor => 3 | .min => 4 | .max => 5 | .minu => 6 | .maxu => 7 | .swap => 8 | .fadd => 9
def AmoOp.ofCode : Nat → AmoOp
  | 0 => .add | 1 => .and | 2 => .or | 3 => .xor | 4 => .min | 5 => .max | 6 => .minu | 7 => .maxu | 8 => .swap
  | _ => .fadd
/-- R125: the operations that routers may merge. -/
def AmoOp.mergeable (o : AmoOp) : Bool := decide (o ≠ .swap) && decide (o ≠ .fadd)
def AmoWidth.code : AmoWidth → Nat | .w4 => 2 | .w8 => 3
def AmoWidth.ofCode : Nat → AmoWidth | 2 => .w4 | _ => .w8
def AmoWidth.bytes : AmoWidth → Nat | .w4 => 4 | .w8 => 8

def PageSize.code : PageSize → Nat | .k64 => 0 | .m2 => 1 | .g1 => 2
def PageSize.ofCode : Nat → PageSize | 0 => .k64 | 1 => .m2 | _ => .g1
/-- R86: the page size in bytes. -/
def PageSize.bytes : PageSize → Nat | .k64 => 2 ^ 16 | .m2 => 2 ^ 21 | .g1 => 2 ^ 30

def Tok.code (t : Tok) : Nat := 8 * bit t.pu + 4 * bit t.pd + 2 * bit t.su + bit t.sd
def Tok.ofCode (c : Nat) : Tok := ⟨flag c 3, flag c 2, flag c 1, flag c 0⟩
def Tok.none : Tok := ⟨false, false, false, false⟩

def MType.code : MType → Nat | .bf16 => 0 | .f16 => 1 | .e4m3 => 2 | .e5m2 => 3 | .i8 => 4 | .sb4 => 5
def MType.ofCode : Nat → MType | 0 => .bf16 | 1 => .f16 | 2 => .e4m3 | 3 => .e5m2 | 4 => .i8 | _ => .sb4
/-- R249: bytes per 96 elements along K. -/
def MType.rowBytes : MType → Nat | .bf16 => 192 | .f16 => 192 | .e4m3 => 96 | .e5m2 => 96 | .i8 => 96 | .sb4 => 64
def DrainFmt.code : DrainFmt → Nat
  | .f32 => 0 | .bf16 => 1 | .f16 => 2 | .e4m3 => 3 | .e5m2 => 4 | .i16 => 5 | .i8 => 6
def DrainFmt.ofCode : Nat → DrainFmt
  | 0 => .f32 | 1 => .bf16 | 2 => .f16 | 3 => .e4m3 | 4 => .e5m2 | 5 => .i16 | _ => .i8
/-- R262: the column pitch in bytes. -/
def DrainFmt.pitch : DrainFmt → Nat
  | .f32 => 384 | .bf16 => 192 | .f16 => 192 | .e4m3 => 128 | .e5m2 => 128 | .i16 => 192 | .i8 => 128
def PathSel.code : PathSel → Nat
  | .basic => 0 | .net => 1 | .direct => 4 | .relay1 => 5 | .relay2 => 6 | .relay3 => 7
def PathSel.ofCode : Nat → PathSel
  | 0 => .basic | 1 => .net | 4 => .direct | 5 => .relay1 | 6 => .relay2 | _ => .relay3

/-- R60: the G bit and handle of a barrier form. -/
def gCode : Option (Fin 16) → Nat
  | some h => 512 + 32 * h.val
  | Option.none => 0

/-- R114, R115: a link of the package mesh, by the router it leaves (x 0 to 31, y 0 to 7) and the port. -/
structure LinkId where
  x : Nat
  y : Nat
  port : Nat
  deriving DecidableEq, Repr

/-- R136: frame classes that carry accesses. -/
inductive FrameClass where
  | ord | bulk | flagged
  deriving DecidableEq, Repr

/-- R200, R265: the full/empty actions. -/
inductive FeKind where
  | ldwf | ldwfe | stwe | stf | feset | feclr | fetest
  deriving DecidableEq, Repr

/-- R294: the barrier actions. -/
inductive BarKind where
  | init | arr | drop | join | bytes | cbar | wait | query
  deriving DecidableEq, Repr

/-- R283: what the packet of a chained load carries: the next address and step, the descriptor's fields, what the
checks need, the fabric hops so far. -/
structure ChainPacket where
  cur : BitVec 64
  step : Nat
  nsteps : Nat
  flen : Nat
  masks : List (BitVec 64)
  offs : List Int
  sys : Bool
  asid : Nat
  hops : Nat
  deriving DecidableEq, Repr

/-- What a frame asks of its target: a read, a write of the bytes given, an atomic with its operands, a full/empty or
barrier operation, a step of a chain (R136). -/
inductive FrameOp where
  | read (len : Nat)
  | write (data : List (Option (BitVec 8)))
  | amo (o : AmoOp) (bytes : Nat) (v : Nat)
  | cas (bytes : Nat) (expected new : Nat)
  | fe (k : FeKind) (data : BitVec 64)
  | bar (k : BarKind) (v : BitVec 64) (n : Nat)
  | chain (p : ChainPacket)
  deriving DecidableEq, Repr

/-- A frame as a peer sends it (R136, R137, R183); `age` is the time in cc since it entered the fabric (R140). -/
structure FrameBody where
  cls : FrameClass
  seq : Nat
  path : Nat
  carried : List Nat
  flagSeq : Nat
  pa : Nat
  op : FrameOp
  master : Nat
  clock : Nat
  age : Nat
  deriving DecidableEq, Repr

/-- A frame by its source device and frame id. One that comes from a peer brings its body and the device whose lane it
came over: the source, or a relay. -/
structure FrameRef where
  src : Nat
  id : Nat
  via : Nat
  body : Option FrameBody
  deriving DecidableEq, Repr

/-- R145: the four words of a fault record. -/
structure RecordWords where
  w0 : BitVec 64
  w1 : BitVec 64
  w2 : BitVec 64
  w3 : BitVec 64
  deriving DecidableEq, Repr

/-- R104, R276: an access served at its target; `ok` is the answer of the host to an access to host memory (R390). -/
structure Served where
  id : Nat
  ok : Bool
  deriving DecidableEq, Repr
/-- R130, R141: which end of a lane trains here, and the domain tag that comes from the far end. -/
structure LaneEnd where
  rx : Bool
  tag : BitVec 64
  deriving DecidableEq, Repr
/-- R144: a notice and the device that sends it. -/
structure PeerNotice where
  src : Nat
  record : RecordWords
  deriving DecidableEq, Repr

/-- R342: where the dispatcher puts a block: slot index and the first units of its three windows. -/
structure Placement where
  slot : Nat
  scr : Nat
  dbase : Nat
  hbase : Nat
  deriving DecidableEq, Repr

/-- R371, R83: a register of a thread, or a hub register at its offset, written by a master. -/
inductive RegRef where
  | thread (slot number : Nat)
  | hub (offset master : Nat)
  deriving DecidableEq, Repr

/-- R388, R389: a host access through BAR0 (hub registers) or BAR2 (device memory). -/
structure HostReq where
  bar2 : Bool
  write : Bool
  offset : Nat
  bytes : Nat
  data : Nat
  deriving DecidableEq, Repr

/-- R389: FetchAdd, Swap or CAS of 32 or 64 bits to BAR2. -/
inductive HostAtomicKind where
  | fetchAdd | swap | cas
  deriving DecidableEq, Repr

structure HostAtomic where
  kind : HostAtomicKind
  wide : Bool
  offset : Nat
  operand : Nat
  expected : Nat
  deriving DecidableEq, Repr

/-- R386, R403: a moved or redirected range. -/
structure MoveRange where
  src : Nat
  dst : Nat
  len : Nat
  deriving DecidableEq, Repr


/-- One constructor per row of spec/opcode_table.json, in the order of its slots: the S, V and A
operations, the engine words, then the steps of the other agents, whose operands name what they act on. -/
inductive Instr where
  /-- R51. S-slot opcode 0 does nothing, whatever the other bits of the syllable hold. -/
  | sNop (x : BitVec 25)
  /-- R215. Pushes x + y on 32 or 64 bits. -/
  | add (a : SSpec) (b : SSpec) (w : Bool)
  /-- R215. Pushes x − y. -/
  | sub (a : SSpec) (b : SSpec) (w : Bool)
  /-- R215. Pushes the low N bits of x × y, with latency 3. -/
  | mul (a : SSpec) (b : SSpec) (w : Bool)
  /-- R215. Pushes the high N bits of the signed product. -/
  | mulh (a : SSpec) (b : SSpec) (w : Bool)
  /-- R215. Pushes the high N bits of the unsigned product. -/
  | mulhu (a : SSpec) (b : SSpec) (w : Bool)
  /-- R215. Pushes the signed quotient truncated toward zero, by Quot. -/
  | div (a : SSpec) (b : SSpec) (w : Bool)
  /-- R215. Pushes the unsigned quotient, or all ones for a zero divisor. -/
  | divu (a : SSpec) (b : SSpec) (w : Bool)
  /-- R215. Pushes the signed remainder, by Rem. -/
  | rem (a : SSpec) (b : SSpec) (w : Bool)
  /-- R215. Pushes the unsigned remainder, or x for a zero divisor. -/
  | remu (a : SSpec) (b : SSpec) (w : Bool)
  /-- R215. Pushes x AND y. -/
  | and (a : SSpec) (b : SSpec) (w : Bool)
  /-- R215. Pushes x OR y. -/
  | or (a : SSpec) (b : SSpec) (w : Bool)
  /-- R215. Pushes x XOR y. -/
  | xor (a : SSpec) (b : SSpec) (w : Bool)
  /-- R215. Pushes x AND NOT y. -/
  | andn (a : SSpec) (b : SSpec) (w : Bool)
  /-- R215. Pushes x shifted left by y mod N. -/
  | shl (a : SSpec) (b : SSpec) (w : Bool)
  /-- R215. Pushes x shifted right logically by y mod N. -/
  | shr (a : SSpec) (b : SSpec) (w : Bool)
  /-- R215. Pushes x shifted right arithmetically by y mod N. -/
  | sar (a : SSpec) (b : SSpec) (w : Bool)
  /-- R215. Pushes x rotated left by y mod N places. -/
  | rotl (a : SSpec) (b : SSpec) (w : Bool)
  /-- R215. Pushes the signed lesser of x and y. -/
  | min (a : SSpec) (b : SSpec) (w : Bool)
  /-- R215. Pushes the signed greater of x and y. -/
  | max (a : SSpec) (b : SSpec) (w : Bool)
  /-- R215. Pushes the unsigned lesser of x and y. -/
  | minu (a : SSpec) (b : SSpec) (w : Bool)
  /-- R215. Pushes the unsigned greater of x and y. -/
  | maxu (a : SSpec) (b : SSpec) (w : Bool)
  /-- R215. Pushes the count of leading zero bits of x. -/
  | clz (a : SSpec) (w : Bool)
  /-- R215. Pushes the count of trailing zero bits of x. -/
  | ctz (a : SSpec) (w : Bool)
  /-- R215. Pushes the count of one bits of x. -/
  | popc (a : SSpec) (w : Bool)
  /-- R216. Pushes the low 8, 16 or 32 bits of a, sign-extended to 64 bits. -/
  | sext (a : SSpec) (width : ExtWidth)
  /-- R216. Pushes the low 8, 16 or 32 bits of a, zero-extended to 64 bits. -/
  | zext (a : SSpec) (width : ExtWidth)
  /-- R214. Writes a scalar into a named scalar at the end of its vc. -/
  | keep (d : Fin 16) (b : SSpec)
  /-- R217. Pushes 1 if x = y, else 0. -/
  | ceq (a : SSpec) (b : SSpec) (w : Bool)
  /-- R217. Pushes 1 if x ≠ y, else 0. -/
  | cne (a : SSpec) (b : SSpec) (w : Bool)
  /-- R217. Pushes 1 if x is less than y as signed values, else 0. -/
  | clt (a : SSpec) (b : SSpec) (w : Bool)
  /-- R217. Pushes 1 if x is less than y as unsigned values, else 0. -/
  | cltu (a : SSpec) (b : SSpec) (w : Bool)
  /-- R217. Pushes 1 if x ≤ y as signed values, else 0. -/
  | cle (a : SSpec) (b : SSpec) (w : Bool)
  /-- R217. Pushes 1 if x ≤ y as unsigned values, else 0. -/
  | cleu (a : SSpec) (b : SSpec) (w : Bool)
  /-- R217. Pushes b when a is nonzero and c otherwise. -/
  | sel (a : SSpec) (b : SSpec) (c : SSpec)
  /-- R218. Pushes the sign-extended 20-bit immediate. -/
  | li (i : BitVec 20)
  /-- R218. Pushes (a × 2^20 + the unsigned immediate) mod 2^64. -/
  | lih (a : SSpec) (i : BitVec 20)
  /-- R218. Pushes a plus the sign-extended immediate. -/
  | addi (a : SSpec) (i : BitVec 20)
  /-- R218. Pushes a AND the sign-extended immediate. -/
  | andi (a : SSpec) (i : BitVec 20)
  /-- R218. Pushes a OR the sign-extended immediate. -/
  | ori (a : SSpec) (i : BitVec 20)
  /-- R218. Pushes a shifted left by a 6-bit immediate count. -/
  | shli (a : SSpec) (s : BitVec 6)
  /-- R219. Pushes the rounded FP32 or FP64 sum and ORs its flags into FPC. -/
  | fadd (a : SSpec) (b : SSpec) (r : Rnd) (d : Bool)
  /-- R219. Pushes the rounded difference. -/
  | fsub (a : SSpec) (b : SSpec) (r : Rnd) (d : Bool)
  /-- R219. Pushes the rounded product. -/
  | fmul (a : SSpec) (b : SSpec) (r : Rnd) (d : Bool)
  /-- R219. Pushes a × b + c, rounded once. -/
  | ffma (a : SSpec) (b : SSpec) (c : SSpec) (r : Rnd) (d : Bool)
  /-- R220. Pushes minimumNumber of a and b. -/
  | fmin (a : SSpec) (b : SSpec) (d : Bool)
  /-- R220. Pushes maximumNumber of a and b. -/
  | fmax (a : SSpec) (b : SSpec) (d : Bool)
  /-- R220. Pushes 1 if a equals b as floating-point values, else 0. -/
  | fceq (a : SSpec) (b : SSpec) (r : Rnd) (d : Bool)
  /-- R220. Pushes 1 if a is less than b, else 0; any NaN raises NV. -/
  | fclt (a : SSpec) (b : SSpec) (r : Rnd) (d : Bool)
  /-- R220. Pushes 1 if a ≤ b, else 0; any NaN raises NV. -/
  | fcle (a : SSpec) (b : SSpec) (r : Rnd) (d : Bool)
  /-- R221. Converts a scalar between the floating-point and integer types that the from and to fields name. -/
  | fcvt (a : SSpec) (f : SType) (t : SType) (r : Rnd)
  /-- R222. Branches to PC + 16 × offset when c is nonzero. -/
  | br (c : SSpec) (o : BitVec 20)
  /-- R222. Branches to PC + 16 × offset when c is zero. -/
  | brz (c : SSpec) (o : BitVec 20)
  /-- R222. Jumps to PC + 16 × offset. -/
  | jmp (o : BitVec 20)
  /-- R222. Pushes PC + 16 with latency 1 and jumps. -/
  | call (o : BitVec 20)
  /-- R222. Jumps to the address in a, raising ALIGN if its bits [3:0] are nonzero. -/
  | ret (a : SSpec)
  /-- R222. Decrements a named counter and branches while the result is nonzero. -/
  | loop (k : Fin 16) (o : BitVec 20)
  /-- R223. Issues once the store buffer is empty and every engine word of the slot has finished; then ends the thread and frees its slot. -/
  | halt
  /-- R224. Pushes a scalar onto the parameter stack of M, C0 or C1. -/
  | epush (a : SSpec) (e : Eng)
  /-- R226. Waits until the count from C0 or C1 is at least k, then takes k; it observes pending deferred engine faults. -/
  | tkwait (s : Side) (k : BitVec 4)
  /-- R226. Adds k to the core's token count toward C0 or C1. -/
  | tksig (s : Side) (k : BitVec 4)
  /-- R228. Pushes the status word of an engine, or observes its pending deferred fault. -/
  | estat (e : Eng)
  /-- R326. Pushes the identity value that the selector names. -/
  | getid (s : BitVec 4)
  /-- R329. Asks the hub to create a cohort or to add the thread to one, and pushes a cohort status word. -/
  | join (a : SSpec) (new : Bool) (lock : Bool)
  /-- R329. Asks the hub to remove the thread from a cohort, and pushes a cohort status word. -/
  | leave (a : SSpec)
  /-- R327. Pushes the vc of its own bundle. -/
  | vclk
  /-- R339. Sends a node descriptor to the launch table and pushes a launch status word, failing at once if the table is full. -/
  | launch (a : SSpec) (b : SSpec)
  /-- R339. As launch, but waits up to LNCHLIM for a free launch-table entry. -/
  | launchW (a : SSpec) (b : SSpec)
  /-- R361. Publishes the final extent of a shape node, in program order after the thread's earlier global accesses. -/
  | shapepub (a : SSpec) (b : SSpec)
  /-- R363. Pushes the shape word of a node. -/
  | shapeq (a : SSpec)
  /-- R363. Holds its bundle until the node resolves or LNCHLIM expires. -/
  | shapew (a : SSpec)
  /-- R372. Pushes the value of a system register. -/
  | rdsys (r : BitVec 10)
  /-- R372. Writes a system register for the next bundle, after the register's own checks. -/
  | wrsys (a : SSpec) (r : BitVec 10)
  /-- R372. Raises SOFTWARE with an 8-bit code. -/
  | trap (code : BitVec 8)
  /-- R374. Returns from a handler: restores the saved queues and pending results, the user mode and the PC, and releases halted engines. -/
  | rft
  /-- R372. Treats the slot's quantum as expired, so that the core switches if another slot is ready. -/
  | yield
  /-- R51. V-slot opcode 0 does nothing. -/
  | vNop (x : BitVec 25)
  /-- R232. Adds vectors element-wise, with rounding. -/
  | vadd (a : VSpec) (b : VSpec) (m : Fin 8) (t : VType) (r : Rnd)
  /-- R232. Subtracts vectors element-wise, with rounding. -/
  | vsub (a : VSpec) (b : VSpec) (m : Fin 8) (t : VType) (r : Rnd)
  /-- R232. Multiplies vectors element-wise, with rounding. -/
  | vmul (a : VSpec) (b : VSpec) (m : Fin 8) (t : VType) (r : Rnd)
  /-- R232. Computes a × b + c element-wise, rounded once. -/
  | vfma (a : VSpec) (b : VSpec) (c : VSpec) (m : Fin 8) (t : VType) (r : Rnd)
  /-- R232. Computes a × b − c element-wise, rounded once. -/
  | vfms (a : VSpec) (b : VSpec) (c : VSpec) (m : Fin 8) (t : VType) (r : Rnd)
  /-- R232. Computes c − a × b element-wise, rounded once. -/
  | vfnma (a : VSpec) (b : VSpec) (c : VSpec) (m : Fin 8) (t : VType) (r : Rnd)
  /-- R232. Pushes MinNum element-wise. -/
  | vmin (a : VSpec) (b : VSpec) (m : Fin 8) (t : VType)
  /-- R232. Pushes MaxNum element-wise. -/
  | vmax (a : VSpec) (b : VSpec) (m : Fin 8) (t : VType)
  /-- R232. Clears the sign bit of each element. -/
  | vabs (a : VSpec) (m : Fin 8) (t : VType)
  /-- R232. Inverts the sign bit of each element. -/
  | vneg (a : VSpec) (m : Fin 8) (t : VType)
  /-- R233. Adds integer elements, wrapping. -/
  | viadd (a : VSpec) (b : VSpec) (m : Fin 8) (t : VType)
  /-- R233. Subtracts integer elements, wrapping. -/
  | visub (a : VSpec) (b : VSpec) (m : Fin 8) (t : VType)
  /-- R233. Pushes the low bits of each integer product. -/
  | vimul (a : VSpec) (b : VSpec) (m : Fin 8) (t : VType)
  /-- R233. Pushes the high bits of each integer product, signed or unsigned. -/
  | vimulh (a : VSpec) (b : VSpec) (m : Fin 8) (t : VType) (u : Bool)
  /-- R233. ANDs the lanes bit by bit. -/
  | viand (a : VSpec) (b : VSpec) (m : Fin 8) (t : VType)
  /-- R233. ORs the lanes bit by bit. -/
  | vior (a : VSpec) (b : VSpec) (m : Fin 8) (t : VType)
  /-- R233. XORs the lanes bit by bit. -/
  | vixor (a : VSpec) (b : VSpec) (m : Fin 8) (t : VType)
  /-- R233. Shifts each element left by the count in b. -/
  | vishl (a : VSpec) (b : VSpec) (m : Fin 8) (t : VType)
  /-- R233. Shifts each element right logically. -/
  | vishr (a : VSpec) (b : VSpec) (m : Fin 8) (t : VType)
  /-- R233. Shifts each element right arithmetically. -/
  | visar (a : VSpec) (b : VSpec) (m : Fin 8) (t : VType)
  /-- R233. Pushes the lesser integer element, signed or unsigned. -/
  | vimin (a : VSpec) (b : VSpec) (m : Fin 8) (t : VType) (u : Bool)
  /-- R233. Pushes the greater integer element, signed or unsigned. -/
  | vimax (a : VSpec) (b : VSpec) (m : Fin 8) (t : VType) (u : Bool)
  /-- R234. Compares elements under a condition and pushes a vector holding a mask. -/
  | vcmp (a : VSpec) (b : VSpec) (u : Bool) (k : VCond) (m : Fin 8) (t : VType)
  /-- R235. Selects each lane from a or b by the mask. -/
  | vsel (a : VSpec) (b : VSpec) (m : Fin 8) (t : VType)
  /-- R236. Pushes X AND Y AND M as a vector holding a mask. -/
  | mand (x : Fin 8) (y : Fin 8) (m : Fin 8)
  /-- R236. Pushes (X OR Y) AND M as a vector holding a mask. -/
  | mor (x : Fin 8) (y : Fin 8) (m : Fin 8)
  /-- R236. Pushes (X XOR Y) AND M as a vector holding a mask. -/
  | mxor (x : Fin 8) (y : Fin 8) (m : Fin 8)
  /-- R236. Pushes NOT X AND M as a vector holding a mask. -/
  | mnot (x : Fin 8) (m : Fin 8)
  /-- R236. Pushes the count of set bits of X AND M to the scalar queue. -/
  | mpop (x : Fin 8) (m : Fin 8)
  /-- R236. Pushes the least set bit index of X AND M, or 96. -/
  | mfirst (x : Fin 8) (m : Fin 8)
  /-- R237. Converts the elements between vector types, into or from part p of each lane. -/
  | vcvt (a : VSpec) (g : VType) (m : Fin 8) (s : VType) (r : Rnd) (p : BitVec 2)
  /-- R237. Converts with stochastic rounding, stepping each active lane's LFSR. -/
  | vcvts (a : VSpec) (g : VType) (m : Fin 8) (s : VType) (p : BitVec 2)
  /-- R238. Quantises 96 FP32 lanes into one SB4 block by Quantise4. -/
  | vqnt4 (a : VSpec) (b : VSpec) (q : BitVec 3) (m : Fin 8) (n : Bool)
  /-- R239. Decodes an SB4 block and scales it into FP32 lanes. -/
  | vdq4 (a : VSpec) (b : VSpec) (m : Fin 8) (r : Rnd)
  /-- R240. Pushes the rounded reciprocal of each element. -/
  | vrcp (a : VSpec) (m : Fin 8) (t : VType) (r : Rnd)
  /-- R240. Pushes the rounded reciprocal square root of each element. -/
  | vrsq (a : VSpec) (m : Fin 8) (t : VType) (r : Rnd)
  /-- R240. Pushes the rounded square root of each element. -/
  | vsqrt (a : VSpec) (m : Fin 8) (t : VType) (r : Rnd)
  /-- R240. Pushes the rounded 2^x of each element. -/
  | vexp2 (a : VSpec) (m : Fin 8) (t : VType) (r : Rnd)
  /-- R240. Pushes the rounded log2 of each element. -/
  | vlog2 (a : VSpec) (m : Fin 8) (t : VType) (r : Rnd)
  /-- R241. Permutes lanes of a by the indices in b. -/
  | vperm (a : VSpec) (b : VSpec) (m : Fin 8) (t : VType)
  /-- R241. Rotates lanes of a by lane 0 of b. -/
  | vrot (a : VSpec) (b : VSpec) (m : Fin 8) (t : VType)
  /-- R241. Broadcasts the first masked lane of a to every lane. -/
  | vbcast (a : VSpec) (m : Fin 8) (t : VType)
  /-- R241. Pushes the first masked lane of a to the scalar queue. -/
  | vext (a : VSpec) (m : Fin 8) (t : VType)
  /-- R241. Inserts lane 0 of b at the first masked lane of a. -/
  | vins (a : VSpec) (b : VSpec) (m : Fin 8) (t : VType)
  /-- R241. Pushes a[0] plus the count of active lanes below each active lane. -/
  | viota (a : VSpec) (m : Fin 8)
  /-- R242. Sums the lanes by the fixed tree and pushes the sum to every lane. -/
  | vredadd (a : VSpec) (m : Fin 8) (t : VType) (r : Rnd)
  /-- R242. Reduces the lanes by maximum over the fixed tree. -/
  | vredmax (a : VSpec) (m : Fin 8) (t : VType) (u : Bool)
  /-- R242. Reduces the lanes by minimum over the fixed tree. -/
  | vredmin (a : VSpec) (m : Fin 8) (t : VType) (u : Bool)
  /-- R243. Pushes the inclusive prefix sum of the lanes in a fixed order. -/
  | vscan (a : VSpec) (m : Fin 8) (t : VType) (r : Rnd)
  /-- R214. Writes the masked lanes of a vector into a named vector register. -/
  | vkeep (d : Fin 8) (b : VSpec) (m : Fin 8)
  /-- R214. Writes the masked bits of a mask register from the nonzero lanes of a vector. -/
  | mkeep (d : Fin 8) (b : VSpec) (m : Fin 8)
  /-- R51. A-slot opcode 0 does nothing. -/
  | aNop (x : BitVec 25)
  /-- R198. Reads 1 to 8 bytes of the own scratchpad window and pushes them extended. -/
  | ld (b : SSpec) (sz : LoadSize) (i : BitVec 16)
  /-- R198. Writes 1 to 8 bytes to the own scratchpad in the issuing cc. -/
  | st (b : SSpec) (sz : StoreSize) (d : SSpec) (i : BitVec 11)
  /-- R198. Reads 384 bytes of the scratchpad as a vector, masked by m7. -/
  | vld (b : SSpec) (i : BitVec 16)
  /-- R198. Writes the active lanes of a vector to the scratchpad. -/
  | vst (b : SSpec) (d : VSpec) (i : BitVec 11)
  /-- R198. Loads lanes from the scratchpad at a stride, checked for bank conflicts. -/
  | vlds (a : SSpec) (b : SSpec)
  /-- R198. Stores lanes to the scratchpad at a stride. -/
  | vsts (a : SSpec) (b : SSpec) (c : VSpec)
  /-- R198. Gathers lanes from the scratchpad by index, in passes. -/
  | vgath (a : SSpec) (b : VSpec)
  /-- R198. Scatters lanes to the scratchpad by index, in passes. -/
  | vscat (a : SSpec) (b : VSpec) (c : VSpec)
  /-- R200. Waits for a word to be full and reads it. -/
  | ldwf (b : SSpec) (i : BitVec 16)
  /-- R200. Waits for a word to be full, reads it and marks it empty. -/
  | ldwfe (b : SSpec) (i : BitVec 16)
  /-- R200. Waits for a word to be empty, writes it and marks it full. -/
  | stwe (b : SSpec) (d : SSpec) (i : BitVec 11)
  /-- R200. Writes a word and marks it full. -/
  | stf (b : SSpec) (d : SSpec) (i : BitVec 11)
  /-- R200. Marks a word full. -/
  | feset (b : SSpec) (i : BitVec 16)
  /-- R200. Marks a word empty. -/
  | feclr (b : SSpec) (i : BitVec 16)
  /-- R200. Pushes the full/empty bit of a word. -/
  | fetest (b : SSpec) (i : BitVec 16)
  /-- R204. Loads 1 to 8 bytes through a handle. -/
  | gld (b : SSpec) (h : Fin 16) (sz : LoadSize) (i : BitVec 13)
  /-- R204. Stores 1 to 8 bytes through a handle, taking one store-buffer entry. -/
  | gst (b : SSpec) (h : Fin 16) (d : SSpec) (sz : StoreSize) (i : BitVec 9)
  /-- R204. Loads 384 bytes through a handle, masked by m7. -/
  | gvld (b : SSpec) (h : Fin 16) (i : BitVec 16)
  /-- R204. Stores the active lanes of a vector through a handle, as six line accesses. -/
  | gvst (b : SSpec) (h : Fin 16) (d : VSpec) (i : BitVec 11)
  /-- R204. Pauses the thread until its earlier global writes and atomics have performed. -/
  | gwait
  /-- R94. Translates a virtual address into a handle and pushes the handle word. -/
  | xlat (a : SSpec) (h : Fin 16) (p : BitVec 3)
  /-- R96. Sets a handle to EMPTY. -/
  | hdrop (h : Fin 16)
  /-- R96. Pushes the bytes left in the page from an offset, or 0. -/
  | hchk (a : SSpec) (h : Fin 16)
  /-- R96. Pushes a handle word. -/
  | hinfo (h : Fin 16)
  /-- R273. Sends an atomic operation of the coded kind to a word through a handle and pushes the old value. -/
  | amo (a : SSpec) (b : SSpec) (h : Fin 16) (o : AmoOp) (w : AmoWidth)
  /-- R273. Sends a compare-and-swap of 4 or 8 bytes and pushes the old value. -/
  | cas (a : SSpec) (b : SSpec) (c : SSpec) (h : Fin 16) (w : AmoWidth)
  /-- R275. Sends a 16-byte compare-and-swap whose operands come from a scratchpad record, and pushes the old value in two entries. -/
  | cas2 (a : SSpec) (b : SSpec) (h : Fin 16)
  /-- R282. Checks a chain descriptor, takes a chain entry, clears STAT and DEST, and starts a chained load. -/
  | chain (a : SSpec)
  /-- R286. Pushes a chain status word, consuming a FAULTED entry without a trap. -/
  | chainq (a : SSpec)
  /-- R294. Writes a fresh barrier object. -/
  | barinit (a : SSpec) (b : SSpec) (g : Option (Fin 16))
  /-- R294. Arrives on a barrier object with a ticket. -/
  | bararr (a : SSpec) (b : SSpec) (g : Option (Fin 16))
  /-- R294. Decrements DELTA, then arrives. -/
  | bardrop (a : SSpec) (b : SSpec) (g : Option (Fin 16))
  /-- R294. Increments DELTA, then arrives. -/
  | barjoin (a : SSpec) (b : SSpec) (g : Option (Fin 16))
  /-- R297. Waits until the barrier's phase differs from the ticket's phase. -/
  | barwait (a : SSpec) (b : SSpec) (g : Option (Fin 16))
  /-- R294. Adds a byte count to the barrier's pending-byte counter. -/
  | barbytes (a : SSpec) (b : SSpec) (g : Option (Fin 16))
  /-- R298. Pushes word 0 of a barrier object with the OK and PZ bits. -/
  | barq (a : SSpec) (b : SSpec) (g : Option (Fin 16))
  /-- R164. Sends a 384-byte vector into the port buffer of a LIVE circuit. -/
  | csend (b : VSpec) (h : BitVec 7)
  /-- R168. Pushes the circuit status word of a handle. -/
  | cstat (h : BitVec 7)
  /-- R311. Waits until the named engine queues, chains and csends have finished, observing their deferred faults. -/
  | fenceQ (q : BitVec 4)
  /-- R312. Waits until every covered write is acknowledged or known dropped, then writes FENCESTAT. -/
  | fenceSys
  /-- R313. Waits until the covered writes to host memory are placed or known dropped. -/
  | fenceHost
  /-- R107. Starts a dirty harvest of one page, bypassing the TLBs. -/
  | harv (a : SSpec)
  /-- R98. Starts a package-wide invalidation of a page range and holds the next bundle until it completes. -/
  | xinval (a : SSpec) (z : PageSize)
  /-- R63. The engine word 0x0000 does nothing. -/
  | engineNop
  /-- R63. Pushes a sign-extended 13-bit literal onto an engine's parameter stack. -/
  | lit (e : Eng) (v : BitVec 13)
  /-- R63. Extends the top entry of a stack by 11 literal bits. -/
  | litx (e : Eng) (v : BitVec 11)
  /-- R63. The common operation word with op 0 and no bits set does nothing. -/
  | commonNop
  /-- R63. Pushes a copy of the top entry of a stack. -/
  | dup (e : Eng)
  /-- R63. Pops and discards the top entry of a stack. -/
  | drop (e : Eng)
  /-- R63. Exchanges the top two entries of a stack. -/
  | swap (e : Eng)
  /-- R63. Enters an engine queue and does nothing but its token pops and pushes. -/
  | tokenOnly (e : Eng) (tk : Tok)
  /-- R258. Loads a 96×96 A tile from the scratchpad into the shadow plane and sets FRESH. -/
  | lda (tk : Tok) (t : MType)
  /-- R259. Captures 96 accumulator columns as an A tile in the shadow plane. -/
  | ldac (tk : Tok) (i : Bool) (t : MType)
  /-- R260. Multiplies the active plane by n columns of B from the weight store, accumulating. -/
  | mma (tk : Tok) (t : MType)
  /-- R260. As mma, zeroing the columns first. -/
  | mmaz (tk : Tok) (t : MType)
  /-- R262. Writes accumulator columns to the scratchpad in a chosen format. -/
  | drain (tk : Tok) (fe : Bool) (f : DrainFmt)
  /-- R263. Quantises accumulator columns into SB4 blocks in the scratchpad. -/
  | drainq (tk : Tok) (n : Bool) (s : BitVec 3)
  /-- R267. Reads a matrix nest descriptor and runs its loop of lda and mma iterations. -/
  | nest (tk : Tok)
  /-- R264. Zeroes accumulator columns. -/
  | zacc (tk : Tok)
  /-- R265. Waits at a scratchpad word until it is full, optionally taking it. -/
  | msync (tk : Tok) (take : Bool)
  /-- R266. Writes M's status record, optionally clearing its flags. -/
  | mstat (tk : Tok) (clr : Bool)
  /-- R171. Copies global memory into the own scratchpad. -/
  | g2s (c : Chan) (tk : Tok) (path : PathSel) (fe : Bool)
  /-- R171. Copies the own scratchpad to global memory. -/
  | s2g (c : Chan) (tk : Tok) (path : PathSel) (fe : Bool)
  /-- R171. Copies any core's scratchpad into the own scratchpad. -/
  | s2s (c : Chan) (tk : Tok) (path : PathSel) (fe : Bool)
  /-- R184. Unpacks scratchpad records into the own weight store. -/
  | s2w (c : Chan) (tk : Tok)
  /-- R184. Unpacks global records into the own weight store. -/
  | g2w (c : Chan) (tk : Tok) (path : PathSel)
  /-- R171. Copies global memory to global memory. -/
  | g2g (c : Chan) (tk : Tok) (path : PathSel) (fe : Bool)
  /-- R178. Copies the own scratchpad over a program circuit. -/
  | circ (c : Chan) (tk : Tok) (fe : Bool)
  /-- R182. Writes an 8-byte flag after every earlier write of its channel. -/
  | cflag (c : Chan) (tk : Tok) (fe : Bool)
  /-- R185. Runs a strided copy nest from a descriptor. -/
  | cnest (c : Chan) (tk : Tok) (path : PathSel) (fe : Bool)
  /-- R187. After the channel's earlier words, arrives on a barrier and subtracts bytes from it. -/
  | cbar (c : Chan) (tk : Tok) (g : Bool)
  /-- R188. Writes the channel status record after the channel's earlier words. -/
  | channelCstat (c : Chan) (tk : Tok)
  /-- R154. Performs when the leading member issues program vc B + T, sets S and performs its group of words. -/
  | step (ctx : Nat)
  /-- R154. One repetition of the word after rpt performs when the leading member reaches S + k × I. -/
  | rptRepetition (ctx : Nat)
  /-- R154. Waits until a handle state or member-progress condition holds, then continues the group. -/
  | waitc (ctx : Nat)
  /-- R71. At the end of vc t + L − 1 the results falling due are pushed in the order of R211 and their flags are ORed into FPC. -/
  | resultPush (slot : Nat)
  /-- R73. A late result arrives, is pushed at its virtual time, and the stopped thread resumes. -/
  | lateItemArrival (slot : Nat)
  /-- R91. A failed fetch translation raises PAGE_FAULT at the fetched bundle. -/
  | bundleFetchFault (slot : Nat)
  /-- R322. The core switches to another ready slot in 4 cc when the current slot is not ready. -/
  | slotSwitch (core : Nat)
  /-- R322. After 8192 cc as current slot, the core switches if another slot is ready. -/
  | quantumExpiry (core : Nat)
  /-- R370. The user-mode resident count reaches LIMIT × 65536 and WATCHDOG is raised as a boundary trap. -/
  | watchdogExpiry (slot : Nat)
  /-- R373. Once pending results arrive, saves the queues, writes the trap registers and enters the handler in system mode, or kills the thread. -/
  | trapEntry (slot : Nat)
  /-- R364. A pending boundary trap is raised at the first bundle boundary after its event reaches the thread. -/
  | boundaryTrap (slot : Nat)
  /-- R201. In the cc after a full/empty change, the earliest waiter whose condition holds performs its action. -/
  | feWaiterPerform (word : Nat)
  /-- R202. A full/empty waiter's deadline passes; it is removed and FE_TIMEOUT is raised. -/
  | feTimeout (word : Nat) (waiter : Nat)
  /-- R74. A further pass of vgath or vscat serves up to 8 lanes per bank. -/
  | vgathPass (slot : Nat)
  /-- R190. A bank's engine port grants one requester by rotating priority and serves one line. -/
  | enginePortAccess (slot : Nat) (e : Eng) (k : Nat)
  /-- R89. A hardware walk finishes with a leaf or a fault and fills the handle or TLB. -/
  | pageWalkComplete (slot : Nat) (tag : Nat)
  /-- R98. The invalidation ends once its translations are cleared, the shootdown count is raised and covered accesses have ended; the held thread resumes. -/
  | xinvalComplete (slot : Nat)
  /-- R107. The harvest has read and cleared G at every granule home and set D; the held thread resumes. -/
  | harvComplete (slot : Nat)
  /-- R105. Every 1 ms the hub evaluates the granule counters, chooses pages to migrate and clears the counts. -/
  | migrationEvaluation
  /-- R106. A page's lines are moved, its leaf rewritten and shot down, and the old frame is returned to the pool. -/
  | pageMigrationComplete (k : Nat)
  /-- R104. A line access arrives at a home slice, is checked, counted, leased or granted ownership, and performed or forwarded. -/
  | homeLineAccess (id : Served)
  /-- R276. An atomic is performed at its home or engine port as one action and its old value returned. -/
  | atomicPerform (id : Served)
  /-- R116. A packet advances through a router by dimension-ordered routing on its virtual channel. -/
  | packetRoute (id : Nat)
  /-- R126. A merging router receives the reply of a merged atomic and answers both issuers. -/
  | mergedReplySplit (id : Nat)
  /-- R120. A response arrives at a master's interface, is delivered, and frees its response-receive slot or store-buffer entry. -/
  | responseReceive (id : Nat)
  /-- R121. A bounced packet returns to its master and is injected again under the same slot. -/
  | bounceReinject (id : Nat)
  /-- R122. A flit arrives and is checked by CRC and sequence, or discarded with a replay request. -/
  | flitReceive (link : LinkId) (ok : Bool)
  /-- R122. A sender receives a replay request and resends from its replay buffer. -/
  | replayRequest (link : LinkId)
  /-- R122. A receiver acknowledges flits cumulatively at least every 16 cc. -/
  | linkAck (link : LinkId)
  /-- R122. Retraining ends: held flits are sent, or on failure the package goes out of service. -/
  | linkRetrainDone (link : LinkId) (ok : Bool)
  /-- R119. A credit flit returns a free buffer slot to the sender. -/
  | creditReturn (link : LinkId) (resp : Bool)
  /-- R123. Every 256 cc a receiver sends a credit-sync flit on each input and channel. -/
  | creditSyncSend (link : LinkId) (resp : Bool)
  /-- R123. A sender resets its credit count from a credit-sync flit. -/
  | creditSyncReceive (link : LinkId) (resp : Bool)
  /-- R131. At the end of each 1 ms window a lane receiver measures W and decides code changes or leaving service. -/
  | berWindow (lane : Nat) (w : BitVec 32) (uncorr : Nat)
  /-- R132. The sending device receives a code request, finishes its codeword and sends a marker before switching code. -/
  | codeRequest (lane : Nat) (code : BitVec 2)
  /-- R132. No marker arrives within 1 ms and the receiver repeats its code request. -/
  | codeMarkerTimeout (lane : Nat)
  /-- R132. The receiver decodes the marker, switches code and sends a completion; both record CODE_CHANGE. -/
  | codeChange (lane : Nat)
  /-- R137. An ORD frame arrives and is applied in pair sequence order or held in the reorder buffer. -/
  | ordFrameReceive (f : FrameRef)
  /-- R139. A BULK frame arrives, duplicates are discarded, and it is applied and acknowledged. -/
  | bulkFrameReceive (f : FrameRef)
  /-- R183. A held FLAG frame is applied once every APPLIED count reaches its carried SENT count. -/
  | flagFrameApply (f : FrameRef)
  /-- R139. An end-to-end acknowledgement arrives and the sender releases the frame. -/
  | frameAckReceive (id : Nat)
  /-- R138. A CTRL frame returns end-to-end receive credits to the sender. -/
  | endToEndCredit (peer : Nat) (ord : Nat) (bulk : Nat)
  /-- R139. A frame unacknowledged for 20 µs is sent again on a usable path; `path` is the path that its last sending took. -/
  | frameResendTimeout (id : Nat) (path : Nat)
  /-- R140. A frame not delivered within 50 µs of entering the fabric is discarded where it is held. -/
  | frameAgeDiscard (id : Nat)
  /-- R140. A frame lost on a lane is replayed from the lane's buffer. -/
  | laneFrameReplay (id : Nat)
  /-- R138. A relay forwards a held frame into the destination's reservation. -/
  | relayForward (id : Nat)
  /-- R143. At least every 10 µs a device sends a keepalive to each reachable member. -/
  | keepaliveSend (peer : Nat)
  /-- R143. After 50 µs with no frame from a peer, only keepalives are sent to it. -/
  | peerSilenceHold (peer : Nat)
  /-- R143. After 100 µs without a path or a frame, a peer is declared unreachable and its outstanding accesses and copies are ended. -/
  | peerLost (peer : Nat)
  /-- R143. A path to an unreachable peer returns; credits and sequence numbers are exchanged afresh and relays refilled. -/
  | peerBack (peer : Nat)
  /-- R385. Within 1 ms of PEER_LOST the firmware refills RLYTAB with the lost device treated as absent. -/
  | relayRefill (peer : Nat)
  /-- R142. An engine's comb fails and its 32 transmit lanes leave service. -/
  | combLoss (engine : Nat)
  /-- R142. A failed comb locks again and its lanes retrain. -/
  | combRelock (engine : Nat)
  /-- R141. A transmit or receive ring loses tuning and its lane leaves service. -/
  | tuneLoss (lane : Nat) (rx : Bool)
  /-- R141. A lane loses its signal and leaves service. -/
  | laneDown (lane : Nat) (rx : Bool)
  /-- R141. A retrained lane returns to service at strong code. -/
  | laneUp (lane : Nat) (rx : LaneEnd)
  /-- R144. A CTRL notice of a lane event at a peer or relay arrives and is recorded. -/
  | laneNotice (rec : PeerNotice)
  /-- R152. 240 cc after a path is set, a SETTLING or REPAIRING handle becomes LIVE. -/
  | circuitSettled (ctx : Nat) (h : Nat)
  /-- R159. A circuit's path fails; the handle enters DOWN and CIRC_FAIL is recorded. -/
  | circuitFailure (ctx : Nat) (h : Nat) (cause : Nat)
  /-- R159. Under basic policy the sequencer starts a repair, entering REPAIRING with a new generation. -/
  | circuitRepairStart (ctx : Nat) (h : Nat)
  /-- R159. The 2 µs route search ends with a new route set or the handle back in DOWN. -/
  | circuitRepairSearchEnd (ctx : Nat) (h : Nat) (found : Bool) (src : Nat)
  /-- R156. A pending tear performs after every member has issued vc T − 1, and the circuit drains. -/
  | tearPerform (ctx : Nat) (h : Nat)
  /-- R156. The last accepted vector or chunk lands and the handle becomes IDLE. -/
  | tearComplete (ctx : Nat) (h : Nat)
  /-- R167. A vector lands in the next ring slot once its word 0 is empty, setting full bits and LANDED. -/
  | csendLanding (port : Nat)
  /-- R163. An automatic circuit unused for 20 µs is torn. -/
  | autoCircuitIdleTear (src : Nat)
  /-- R176. A copy word starts after the previous word, pops its tokens and chooses its route. -/
  | copyWordStart (slot : Nat) (c : Chan)
  /-- R251. An M word starts after its predecessor, or when granted the array. -/
  | matrixWordStart (slot : Nat)
  /-- R268. One iteration of a matrix nest pops, checks, loads A if needed and multiplies. -/
  | nestIteration (slot : Nat)
  /-- R173. An engine word finishes and pushes its tokens. -/
  | engineWordFinish (slot : Nat) (e : Eng)
  /-- R283. A chain's packet reaches a home, is translated and read, and is forwarded or fetched; `k` is the number of the step. -/
  | chainStep (id : Nat) (k : Nat)
  /-- R285. A chain's data or fault status returns and is written at DEST and STAT; `k` is the entry of the issuing thread. -/
  | chainReturn (id : Nat) (k : Nat)
  /-- R294. A barrier operation acts on its object as one action, flipping the phase when complete. -/
  | barrierAction (id : Nat)
  /-- R297. A barwait's FELIMIT deadline passes and FE_TIMEOUT is raised. -/
  | barwaitTimeout (slot : Nat)
  /-- R314. A fence whose outstanding writes have no path completes after FENCE_LIMIT, reporting them dropped. -/
  | fenceLimitExpiry (slot : Nat)
  /-- R339. The hub reads a launch's descriptor and arguments, takes an entry and answers with a status. -/
  | launchRequest (slot : Nat) (entry : Nat)
  /-- R339. A launch.w finds no entry within LNCHLIM and answers timed out. -/
  | launchWaitTimeout (slot : Nat)
  /-- R329. The hub performs a join or leave in one action and answers with a status. -/
  | cohortRequest (slot : Nat) (cohort : Nat)
  /-- R355. A shapepub's performance resolves the node: blocks commit or are squashed, and the tail group and cicada are updated. -/
  | shapeResolution (slot : Nat)
  /-- R363. A shapew expires after LNCHLIM without a resolution. -/
  | shapewTimeout (slot : Nat)
  /-- R342. The hub places the next block of a ready node on a free slot and starts it. -/
  | blockDispatch (entry : Nat) (place : Placement)
  /-- R343. A lockstep node is placed whole as a new cohort and its circuit program is checked and bound. -/
  | gangDispatch (entry : Nat) (cohort : Nat) (ctx : Nat) (places : List Placement)
  /-- R344. A lockstep node waiting 100 µs takes a reservation of slots, windows and context. -/
  | gangReservation (entry : Nat) (places : List Placement)
  /-- R348. A node completes: the completion word is written, successors are released and the entry is freed. -/
  | nodeCompletion (entry : Nat)
  /-- R379. A thread or cohort stops at a bundle boundary, drains and has its context saved. -/
  | preemption (slot : Nat)
  /-- R381. A saved context is restored on a core with matching windows, reissuing chains and re-establishing circuits. -/
  | contextRestore (k : Nat) (slots : List Nat) (cohort : Nat) (ctx : Nat)
  /-- R82. A write that changes ASIDREG revokes every VALID handle of the thread. -/
  | asidregWrite (slot : Nat) (v : BitVec 64)
  /-- R35. A write to SRSEED reseeds all 96 lane LFSR states. -/
  | srseedWrite (slot : Nat) (v : BitVec 64)
  /-- R148. A write to FRECPOP removes the oldest fault record. -/
  | frecpop (slot : Nat)
  /-- R166. A write to LANDWIN claims or releases a landing side and sets the ring. -/
  | landwinWrite (slot : Nat) (v : BitVec 64)
  /-- R175. Writing 1 to DROP0 or DROP1 discards a halted copy channel's word and queue. -/
  | chdrop (slot : Nat) (v : BitVec 64)
  /-- R269. Writing DROP discards M's halted word and the rest of its queue. -/
  | mnest1Drop (slot : Nat)
  /-- R370. A write to WDLIMIT sets the watchdog limit and restarts its count. -/
  | wdlimitWrite (slot : Nat) (v : BitVec 64)
  /-- R133. A write of PIN or PCODE to a lane in service starts a code-change handshake. -/
  | lanePinWrite (lane : Nat) (pin : Bool) (pcode : BitVec 2)
  /-- R133. Setting DIS takes a lane out of service; clearing it lets it retrain. -/
  | laneDisWrite (lane : Nat) (dis : Bool)
  /-- R390. A write that sets CMDRING.EN resets the slot index and pass count and starts consumption. -/
  | cmdringEnable (v : BitVec 64)
  /-- R390. A write with EN = 0 stops consumption after the slot being read. -/
  | cmdringDisable (v : BitVec 64)
  /-- R113. A firmware write to an access table takes effect when every mirror holds it. -/
  | accessTableWrite (table : Nat) (index : Nat) (v : BitVec 128)
  /-- R6. A write to a register with no behaviour of its own sets its writable fields. -/
  | registerWrite (reg : RegRef) (v : BitVec 64)
  /-- R389. A host read or write through BAR0 or BAR2 is checked and performed as an ordinary access. -/
  | hostAccess (x : HostReq)
  /-- R389. A host AtomicOp to BAR2 is performed at the line's home slice. -/
  | hostAtomicop (x : HostAtomic)
  /-- R392. The hub consumes a ring slot whose valid byte matches the pass and writes the consumed count. -/
  | commandConsume
  /-- R393. A command's work ends and the hub writes its completion word and sends its message. -/
  | commandCompletion (k : Nat)
  /-- R394. The NOP command completes when consumed. -/
  | nopCommand (k : Nat)
  /-- R395. Creates all the nodes of a node table in the command's ASID, or none. -/
  | launchCommand (k : Nat) (entries : List Nat)
  /-- R102. Invalidates up to 29 pages in the command's ASID as xinval does. -/
  | shootdown (k : Nat)
  /-- R108. Harvests dirty bits over a range into a host buffer. -/
  | harvest (k : Nat)
  /-- R394. Saves a node's resident blocks and returns them to the head of their list. -/
  | preempt (k : Nat)
  /-- R399. Writes a signed attestation report to the host. -/
  | attest (k : Nat)
  /-- R394. Removes the redirect of eviction or SUBST for a device. -/
  | redirclr (k : Nat)
  /-- R397. Writes TVECDEF. -/
  | settvec (k : Nat)
  /-- R394. Kills a node's resident blocks, runs no more of them and completes the node with a fault. -/
  | abort (k : Nat)
  /-- R386. Redirects accesses to listed ranges of a lost device to a substitute. -/
  | subst (k : Nat)
  /-- R403. The management START command begins a warm or cold start. -/
  | start (warm : Bool) (keepHbm : Bool)
  /-- R382. The management EVICT command begins eviction to a neighbour, entering STOPPING. -/
  | evict (cmd : List (BitVec 8))
  /-- R402. A private I3C read returns bytes of the identity memory, powered or not. -/
  | identityMemoryRead (offset : Nat) (count : Nat)
  /-- R382. Stopping ends and contexts, nodes and ranges are copied to the neighbour. -/
  | evictionMoving
  /-- R382. The move ends and peers redirect frames for moved ranges to the neighbour. -/
  | evictionRedirected
  /-- R382. No frame to or from the evicted device remains in flight. -/
  | evictionDrained
  /-- R382. The combs are dark and the package is unpowered. -/
  | safeToUnlatch
  /-- R382. The neighbour refused or was lost and the device restores its contexts and returns to IDLE. -/
  | evictionFailed (cause : Nat)
  /-- R383. A peer receiving an EVICT notice removes the device from RLYTAB and holds new frames for it. -/
  | evictNotice (dev : Nat) (dest : Nat)
  /-- R383. On the neighbour's announcement, peers send the held frames to the neighbour. -/
  | moveDoneNotice (dev : Nat) (dest : Nat) (ranges : List MoveRange)
  /-- R400. Power-on starts a cold start. -/
  | powerOn
  /-- R400. The last start step ends and the device joins its domain. -/
  | startComplete
  /-- R385. The module loses power or is removed, and its peers lose it. -/
  | powerLoss
  /-- R378. The firmware stops dispatch, kills every thread and stops transmitting. -/
  | packageOutOfService
  /-- R396. The scheduling pair's stores differ; it resumes from its checkpoint, or a second mismatch within 1 s takes the package out of service. -/
  | lockstepMismatch
  /-- R396. A faulting worker core's command is parsed again by another worker. -/
  | workerFault (worker : Nat)
  /-- R404. A hot inlet or die makes each core issue in at most 3 of every 4 cc. -/
  | thermalThrottle
  /-- R404. A die reaches its limit and the package is taken out of service. -/
  | dieLimit
  /-- R51. A bundle holding an unassigned S, V or A opcode, an unassigned engine word or modifier, or a nonzero reserved field is presented for issue and raises ILLEGAL_OP. -/
  | illegalOp
  /-- R143. A CTRL keepalive from a domain member arrives and counts as a frame received from that peer. -/
  | keepaliveReceive (peer : Nat)
  /-- R140. A cumulative per-lane acknowledgement by frame number arrives and releases frames from the lane's replay buffer. -/
  | laneFrameAck (lane : Nat) (upTo : Nat)
  /-- R313. The Erard host link goes down, so the writes to host memory that are still outstanding become known dropped. -/
  | erardLinkDown
  /-- R404. The inlet temperature and die temperatures fall back within limits, and the cores resume issuing in every cc. -/
  | throttleRelease
  deriving DecidableEq, Repr

end Sys2Proof
end

