-- ==== Sys2Proof/WellFormed.lean ====
section
/-! DEFINITION. The checks of R51, R53 to R66, R231 and R326 on an operation, beyond what its type already says:
a field value that the rules reserve or call illegal is refused here by name of the check. -/

namespace Sys2Proof

/-- The system register numbers of R371. -/
def sysRegNumbers : List Nat :=
  [0x000, 0x001, 0x002, 0x010, 0x011, 0x012, 0x013, 0x014, 0x015, 0x040, 0x041, 0x042, 0x043, 0x044, 0x045,
   0x060, 0x061, 0x062, 0x063, 0x064, 0x065, 0x066, 0x067, 0x068, 0x069, 0x06A, 0x06B, 0x06C, 0x06D, 0x06E]

/-- R371: a number outside the table raises ILLEGAL_OP. -/
def sysRegNumber (n : Nat) : Bool := sysRegNumbers.contains n

/-- Whether the fields of an operation hold values that the rules allow; a step of another agent has no encoding
and no field to refuse. -/
def Instr.wellFormed : Instr → Bool
  | .sNop _ => true
  | .add _ _ _ => true
  | .sub _ _ _ => true
  | .mul _ _ _ => true
  | .mulh _ _ _ => true
  | .mulhu _ _ _ => true
  | .div _ _ _ => true
  | .divu _ _ _ => true
  | .rem _ _ _ => true
  | .remu _ _ _ => true
  | .and _ _ _ => true
  | .or _ _ _ => true
  | .xor _ _ _ => true
  | .andn _ _ _ => true
  | .shl _ _ _ => true
  | .shr _ _ _ => true
  | .sar _ _ _ => true
  | .rotl _ _ _ => true
  | .min _ _ _ => true
  | .max _ _ _ => true
  | .minu _ _ _ => true
  | .maxu _ _ _ => true
  | .clz _ _ => true
  | .ctz _ _ => true
  | .popc _ _ => true
  | .sext _ _ => true
  | .zext _ _ => true
  | .keep _ _ => true
  | .ceq _ _ _ => true
  | .cne _ _ _ => true
  | .clt _ _ _ => true
  | .cltu _ _ _ => true
  | .cle _ _ _ => true
  | .cleu _ _ _ => true
  | .sel _ _ _ => true
  | .li _ => true
  | .lih _ _ => true
  | .addi _ _ => true
  | .andi _ _ => true
  | .ori _ _ => true
  | .shli _ _ => true
  | .fadd _ _ r _ => r.legal
  | .fsub _ _ r _ => r.legal
  | .fmul _ _ r _ => r.legal
  | .ffma _ _ _ r _ => r.legal
  | .fmin _ _ _ => true
  | .fmax _ _ _ => true
  | .fceq _ _ r _ => r.legal
  | .fclt _ _ r _ => r.legal
  | .fcle _ _ r _ => r.legal
  | .fcvt _ f t r => r.legal && !(f.isInt && t.isInt)
  | .br _ _ => true
  | .brz _ _ => true
  | .jmp _ => true
  | .call _ => true
  | .ret _ => true
  | .loop _ _ => true
  | .halt => true
  | .epush _ _ => true
  | .tkwait _ k => decide (k ≠ 0)
  | .tksig _ k => decide (k ≠ 0)
  | .estat _ => true
  | .getid s => decide (s.toNat ≤ 11)
  | .join _ _ _ => true
  | .leave _ => true
  | .vclk => true
  | .launch _ _ => true
  | .launchW _ _ => true
  | .shapepub _ _ => true
  | .shapeq _ => true
  | .shapew _ => true
  | .rdsys r => sysRegNumber r.toNat
  | .wrsys _ r => sysRegNumber r.toNat
  | .trap _ => true
  | .rft => true
  | .yield => true
  | .vNop _ => true
  | .vadd _ _ _ t r => t.isFp16or32 && r.legal
  | .vsub _ _ _ t r => t.isFp16or32 && r.legal
  | .vmul _ _ _ t r => t.isFp16or32 && r.legal
  | .vfma _ _ _ _ t r => t.isFp16or32 && r.legal
  | .vfms _ _ _ _ t r => t.isFp16or32 && r.legal
  | .vfnma _ _ _ _ t r => t.isFp16or32 && r.legal
  | .vmin _ _ _ t => t.isFp16or32
  | .vmax _ _ _ t => t.isFp16or32
  | .vabs _ _ t => t.isFp16or32
  | .vneg _ _ t => t.isFp16or32
  | .viadd _ _ _ t => t.isInt16or32
  | .visub _ _ _ t => t.isInt16or32
  | .vimul _ _ _ t => t.isInt16or32
  | .vimulh _ _ _ t _ => t.isInt16or32
  | .viand _ _ _ t => t.isInt16or32
  | .vior _ _ _ t => t.isInt16or32
  | .vixor _ _ _ t => t.isInt16or32
  | .vishl _ _ _ t => t.isInt16or32
  | .vishr _ _ _ t => t.isInt16or32
  | .visar _ _ _ t => t.isInt16or32
  | .vimin _ _ _ t _ => t.isInt16or32
  | .vimax _ _ _ t _ => t.isInt16or32
  | .vcmp _ _ u k _ t => (t.isFp16or32 && !u) || (t.isInt16or32 && !k.fpOnly)
  | .vsel _ _ _ t => t.isWord32
  | .mand _ _ _ => true
  | .mor _ _ _ => true
  | .mxor _ _ _ => true
  | .mnot _ _ => true
  | .mpop _ _ => true
  | .mfirst _ _ => true
  | .vcvt _ g _ s r p => r.legal && (s.isFp || g.isFp || r == .fpc) && VType.partLegal s g p.toNat
  | .vcvts _ g _ s p => g.isSrTarget && VType.partLegal s g p.toNat
  | .vqnt4 _ _ q _ _ => decide (q.toNat ≤ 4)
  | .vdq4 _ _ _ r => r.legal
  | .vrcp _ _ t r => t.isFp16or32 && r.legal
  | .vrsq _ _ t r => t.isFp16or32 && r.legal
  | .vsqrt _ _ t r => t.isFp16or32 && r.legal
  | .vexp2 _ _ t r => t.isFp16or32 && r.legal
  | .vlog2 _ _ t r => t.isFp16or32 && r.legal
  | .vperm _ _ _ t => t.isWord32
  | .vrot _ _ _ t => t.isWord32
  | .vbcast _ _ t => t.isWord32
  | .vext _ _ t => t.isWord32
  | .vins _ _ _ t => t.isWord32
  | .viota _ _ => true
  | .vredadd _ _ t r => t.isWord32 && r.legal && (t == .f32 || r == .fpc)
  | .vredmax _ _ t u => t.isWord32 && (t == .i32 || !u)
  | .vredmin _ _ t u => t.isWord32 && (t == .i32 || !u)
  | .vscan _ _ t r => t.isWord32 && r.legal && (t == .f32 || r == .fpc)
  | .vkeep _ _ _ => true
  | .mkeep _ _ _ => true
  | .aNop _ => true
  | .ld _ _ _ => true
  | .st _ _ _ _ => true
  | .vld _ _ => true
  | .vst _ _ _ => true
  | .vlds _ _ => true
  | .vsts _ _ _ => true
  | .vgath _ _ => true
  | .vscat _ _ _ => true
  | .ldwf _ _ => true
  | .ldwfe _ _ => true
  | .stwe _ _ _ => true
  | .stf _ _ _ => true
  | .feset _ _ => true
  | .feclr _ _ => true
  | .fetest _ _ => true
  | .gld _ _ _ _ => true
  | .gst _ _ _ _ _ => true
  | .gvld _ _ _ => true
  | .gvst _ _ _ _ => true
  | .gwait => true
  | .xlat a _ p => decide (p ≠ 0 ∨ a = .q 0)
  | .hdrop _ => true
  | .hchk _ _ => true
  | .hinfo _ => true
  | .amo _ _ _ _ _ => true
  | .cas _ _ _ _ _ => true
  | .cas2 _ _ _ => true
  | .chain _ => true
  | .chainq _ => true
  | .barinit _ _ _ => true
  | .bararr _ _ _ => true
  | .bardrop _ _ _ => true
  | .barjoin _ _ _ => true
  | .barwait _ _ _ => true
  | .barbytes _ _ _ => true
  | .barq _ _ _ => true
  | .csend _ _ => true
  | .cstat _ => true
  | .fenceQ q => decide (q ≠ 0)
  | .fenceSys => true
  | .fenceHost => true
  | .harv _ => true
  | .xinval _ _ => true
  | .engineNop => true
  | .lit _ _ => true
  | .litx _ _ => true
  | .commonNop => true
  | .dup _ => true
  | .drop _ => true
  | .swap _ => true
  | .tokenOnly _ tk => decide (tk.code ≠ 0)
  | .lda _ _ => true
  | .ldac _ _ t => decide (t ≠ .sb4)
  | .mma _ _ => true
  | .mmaz _ _ => true
  | .drain _ _ _ => true
  | .drainq _ _ s => decide (s.toNat ≤ 4)
  | .nest _ => true
  | .zacc _ => true
  | .msync _ _ => true
  | .mstat _ _ => true
  | .g2s _ _ _ _ => true
  | .s2g _ _ _ _ => true
  | .s2s _ _ _ _ => true
  | .s2w _ _ => true
  | .g2w _ _ _ => true
  | .g2g _ _ _ _ => true
  | .circ _ _ _ => true
  | .cflag _ _ _ => true
  | .cnest _ _ _ _ => true
  | .cbar _ _ _ => true
  | .channelCstat _ _ => true
  | .step _ => true
  | .rptRepetition _ => true
  | .waitc _ => true
  | .resultPush _ => true
  | .lateItemArrival _ => true
  | .bundleFetchFault _ => true
  | .slotSwitch _ => true
  | .quantumExpiry _ => true
  | .watchdogExpiry _ => true
  | .trapEntry _ => true
  | .boundaryTrap _ => true
  | .feWaiterPerform _ => true
  | .feTimeout _ _ => true
  | .vgathPass _ => true
  | .enginePortAccess _ _ _ => true
  | .pageWalkComplete _ _ => true
  | .xinvalComplete _ => true
  | .harvComplete _ => true
  | .migrationEvaluation => true
  | .pageMigrationComplete _ => true
  | .homeLineAccess _ => true
  | .atomicPerform _ => true
  | .packetRoute _ => true
  | .mergedReplySplit _ => true
  | .responseReceive _ => true
  | .bounceReinject _ => true
  | .flitReceive _ _ => true
  | .replayRequest _ => true
  | .linkAck _ => true
  | .linkRetrainDone _ _ => true
  | .creditReturn _ _ => true
  | .creditSyncSend _ _ => true
  | .creditSyncReceive _ _ => true
  | .berWindow _ _ _ => true
  | .codeRequest _ _ => true
  | .codeMarkerTimeout _ => true
  | .codeChange _ => true
  | .ordFrameReceive _ => true
  | .bulkFrameReceive _ => true
  | .flagFrameApply _ => true
  | .frameAckReceive _ => true
  | .endToEndCredit _ _ _ => true
  | .frameResendTimeout _ _ => true
  | .frameAgeDiscard _ => true
  | .laneFrameReplay _ => true
  | .relayForward _ => true
  | .keepaliveSend _ => true
  | .peerSilenceHold _ => true
  | .peerLost _ => true
  | .peerBack _ => true
  | .relayRefill _ => true
  | .combLoss _ => true
  | .combRelock _ => true
  | .tuneLoss _ _ => true
  | .laneDown _ _ => true
  | .laneUp _ _ => true
  | .laneNotice _ => true
  | .circuitSettled _ _ => true
  | .circuitFailure _ _ _ => true
  | .circuitRepairStart _ _ => true
  | .circuitRepairSearchEnd _ _ _ _ => true
  | .tearPerform _ _ => true
  | .tearComplete _ _ => true
  | .csendLanding _ => true
  | .autoCircuitIdleTear _ => true
  | .copyWordStart _ _ => true
  | .matrixWordStart _ => true
  | .nestIteration _ => true
  | .engineWordFinish _ _ => true
  | .chainStep _ _ => true
  | .chainReturn _ _ => true
  | .barrierAction _ => true
  | .barwaitTimeout _ => true
  | .fenceLimitExpiry _ => true
  | .launchRequest _ _ => true
  | .launchWaitTimeout _ => true
  | .cohortRequest _ _ => true
  | .shapeResolution _ => true
  | .shapewTimeout _ => true
  | .blockDispatch _ _ => true
  | .gangDispatch _ _ _ _ => true
  | .gangReservation _ _ => true
  | .nodeCompletion _ => true
  | .preemption _ => true
  | .contextRestore _ _ _ _ => true
  | .asidregWrite _ _ => true
  | .srseedWrite _ _ => true
  | .frecpop _ => true
  | .landwinWrite _ _ => true
  | .chdrop _ _ => true
  | .mnest1Drop _ => true
  | .wdlimitWrite _ _ => true
  | .lanePinWrite _ _ _ => true
  | .laneDisWrite _ _ => true
  | .cmdringEnable _ => true
  | .cmdringDisable _ => true
  | .accessTableWrite _ _ _ => true
  | .registerWrite _ _ => true
  | .hostAccess _ => true
  | .hostAtomicop _ => true
  | .commandConsume => true
  | .commandCompletion _ => true
  | .nopCommand _ => true
  | .launchCommand _ _ => true
  | .shootdown _ => true
  | .harvest _ => true
  | .preempt _ => true
  | .attest _ => true
  | .redirclr _ => true
  | .settvec _ => true
  | .abort _ => true
  | .subst _ => true
  | .start _ _ => true
  | .evict _ => true
  | .identityMemoryRead _ _ => true
  | .evictionMoving => true
  | .evictionRedirected => true
  | .evictionDrained => true
  | .safeToUnlatch => true
  | .evictionFailed _ => true
  | .evictNotice _ _ => true
  | .moveDoneNotice _ _ _ => true
  | .powerOn => true
  | .startComplete => true
  | .powerLoss => true
  | .packageOutOfService => true
  | .lockstepMismatch => true
  | .workerFault _ => true
  | .thermalThrottle => true
  | .dieLimit => true
  | .illegalOp => true
  | .keepaliveReceive _ => true
  | .laneFrameAck _ _ => true
  | .erardLinkDown => true
  | .throttleRelease => true

end Sys2Proof
end

