-- ==== Sys2Proof/Decode.lean ====
section
/-! DEFINITION. Instruction words (R49 to R64, R69): the encoder, the decoder of a syllable, an engine word and a
bundle, and the words as the opcode table numbers them. The decoder reads each field where the format places it and
accepts a word only if encoding what it read gives that word back (every reserved bit zero, every code assigned)
and the operation is well formed; it names what it refuses. -/

namespace Sys2Proof

/-- R49, R62: where a word stands. -/
inductive WordSlot where
  | s | v | a | e
  deriving DecidableEq, Repr

/-- A syllable or an engine word with its slot. -/
structure Word where
  slot : WordSlot
  bits : Nat
  deriving DecidableEq, Repr

/-- R51: why a word is refused. -/
inductive DecodeError where
  /-- An unassigned opcode or engine operation. -/
  | unassigned (slot : WordSlot)
  /-- A reserved or must-be-zero field is nonzero, or a specifier or code has no meaning in its field. -/
  | reservedField (slot : WordSlot)
  /-- A field value that the operation's rules call illegal. -/
  | illegalValue (slot : WordSlot)
  /-- R372: `trap` or `rft` beside another operation. -/
  | notAlone
  deriving DecidableEq, Repr

/-- Formats RR and AR (R54, R58), and the shape of the V format before its last field is cut (R57). -/
def rr (op a b c sub : Nat) : Nat := op * 2 ^ 25 + a * 2 ^ 20 + b * 2 ^ 15 + c * 2 ^ 10 + sub
/-- Formats RI and BR (R54). -/
def ri (op a imm : Nat) : Nat := op * 2 ^ 25 + a * 2 ^ 20 + imm
/-- The V format (R57). -/
def vf (op a b c mask type rnd flg : Nat) : Nat := rr op a b c (mask * 2 ^ 7 + type * 2 ^ 4 + rnd * 2 ^ 2 + flg)
/-- Format AM (R58). -/
def am (op b hs imm : Nat) : Nat := op * 2 ^ 25 + b * 2 ^ 20 + hs * 2 ^ 16 + imm
/-- Format AS (R58). -/
def asf (op b hs d imm : Nat) : Nat := op * 2 ^ 25 + b * 2 ^ 20 + hs * 2 ^ 16 + d * 2 ^ 11 + imm
/-- Format AG (R58). -/
def ag (op b h sz imm : Nat) : Nat := op * 2 ^ 25 + b * 2 ^ 20 + h * 2 ^ 16 + sz * 2 ^ 13 + imm
/-- Format AGS (R58). -/
def ags (op b h d sz imm : Nat) : Nat := op * 2 ^ 25 + b * 2 ^ 20 + h * 2 ^ 16 + d * 2 ^ 11 + sz * 2 ^ 9 + imm
/-- An engine literal (R62). -/
def el (eng v : Nat) : Nat := eng * 2 ^ 14 + 2 ^ 13 + v
/-- An engine operation word (R62). -/
def eo (eng op tok mod : Nat) : Nat := eng * 2 ^ 14 + op * 2 ^ 8 + tok * 2 ^ 4 + mod


/-- The encoding tables of R54 to R64 and R69: the slot of an operation and its syllable or engine word.
A step of another agent has no word. -/
def encode : Instr → Option Word
  | .sNop x => some ⟨.s, x.toNat⟩
  | .add a b w => some ⟨.s, rr 0x1 a.code b.code 0 (bit w)⟩
  | .sub a b w => some ⟨.s, rr 0x2 a.code b.code 0 (bit w)⟩
  | .mul a b w => some ⟨.s, rr 0x3 a.code b.code 0 (bit w)⟩
  | .mulh a b w => some ⟨.s, rr 0x4 a.code b.code 0 (bit w)⟩
  | .mulhu a b w => some ⟨.s, rr 0x5 a.code b.code 0 (bit w)⟩
  | .div a b w => some ⟨.s, rr 0x6 a.code b.code 0 (bit w)⟩
  | .divu a b w => some ⟨.s, rr 0x7 a.code b.code 0 (bit w)⟩
  | .rem a b w => some ⟨.s, rr 0x8 a.code b.code 0 (bit w)⟩
  | .remu a b w => some ⟨.s, rr 0x9 a.code b.code 0 (bit w)⟩
  | .and a b w => some ⟨.s, rr 0xa a.code b.code 0 (bit w)⟩
  | .or a b w => some ⟨.s, rr 0xb a.code b.code 0 (bit w)⟩
  | .xor a b w => some ⟨.s, rr 0xc a.code b.code 0 (bit w)⟩
  | .andn a b w => some ⟨.s, rr 0xd a.code b.code 0 (bit w)⟩
  | .shl a b w => some ⟨.s, rr 0xe a.code b.code 0 (bit w)⟩
  | .shr a b w => some ⟨.s, rr 0xf a.code b.code 0 (bit w)⟩
  | .sar a b w => some ⟨.s, rr 0x10 a.code b.code 0 (bit w)⟩
  | .rotl a b w => some ⟨.s, rr 0x11 a.code b.code 0 (bit w)⟩
  | .min a b w => some ⟨.s, rr 0x12 a.code b.code 0 (bit w)⟩
  | .max a b w => some ⟨.s, rr 0x13 a.code b.code 0 (bit w)⟩
  | .minu a b w => some ⟨.s, rr 0x14 a.code b.code 0 (bit w)⟩
  | .maxu a b w => some ⟨.s, rr 0x15 a.code b.code 0 (bit w)⟩
  | .clz a w => some ⟨.s, rr 0x16 a.code 0 0 (bit w)⟩
  | .ctz a w => some ⟨.s, rr 0x17 a.code 0 0 (bit w)⟩
  | .popc a w => some ⟨.s, rr 0x18 a.code 0 0 (bit w)⟩
  | .sext a width => some ⟨.s, rr 0x19 a.code 0 0 width.code⟩
  | .zext a width => some ⟨.s, rr 0x1a a.code 0 0 width.code⟩
  | .keep d b => some ⟨.s, rr 0x1b (16 + d.val) b.code 0 0⟩
  | .ceq a b w => some ⟨.s, rr 0x20 a.code b.code 0 (bit w)⟩
  | .cne a b w => some ⟨.s, rr 0x21 a.code b.code 0 (bit w)⟩
  | .clt a b w => some ⟨.s, rr 0x22 a.code b.code 0 (bit w)⟩
  | .cltu a b w => some ⟨.s, rr 0x23 a.code b.code 0 (bit w)⟩
  | .cle a b w => some ⟨.s, rr 0x24 a.code b.code 0 (bit w)⟩
  | .cleu a b w => some ⟨.s, rr 0x25 a.code b.code 0 (bit w)⟩
  | .sel a b c => some ⟨.s, rr 0x26 a.code b.code c.code 0⟩
  | .li i => some ⟨.s, ri 0x28 0 i.toNat⟩
  | .lih a i => some ⟨.s, ri 0x29 a.code i.toNat⟩
  | .addi a i => some ⟨.s, ri 0x2a a.code i.toNat⟩
  | .andi a i => some ⟨.s, ri 0x2b a.code i.toNat⟩
  | .ori a i => some ⟨.s, ri 0x2c a.code i.toNat⟩
  | .shli a s => some ⟨.s, ri 0x2d a.code s.toNat⟩
  | .fadd a b r d => some ⟨.s, rr 0x30 a.code b.code 0 (4 * r.code + bit d)⟩
  | .fsub a b r d => some ⟨.s, rr 0x31 a.code b.code 0 (4 * r.code + bit d)⟩
  | .fmul a b r d => some ⟨.s, rr 0x32 a.code b.code 0 (4 * r.code + bit d)⟩
  | .ffma a b c r d => some ⟨.s, rr 0x33 a.code b.code c.code (4 * r.code + bit d)⟩
  | .fmin a b d => some ⟨.s, rr 0x34 a.code b.code 0 (bit d)⟩
  | .fmax a b d => some ⟨.s, rr 0x35 a.code b.code 0 (bit d)⟩
  | .fceq a b r d => some ⟨.s, rr 0x36 a.code b.code 0 (4 * r.code + bit d)⟩
  | .fclt a b r d => some ⟨.s, rr 0x37 a.code b.code 0 (4 * r.code + bit d)⟩
  | .fcle a b r d => some ⟨.s, rr 0x38 a.code b.code 0 (4 * r.code + bit d)⟩
  | .fcvt a f t r => some ⟨.s, rr 0x39 a.code 0 0 (128 * f.code + 16 * t.code + 4 * r.code)⟩
  | .br c o => some ⟨.s, ri 0x40 c.code o.toNat⟩
  | .brz c o => some ⟨.s, ri 0x41 c.code o.toNat⟩
  | .jmp o => some ⟨.s, ri 0x42 0 o.toNat⟩
  | .call o => some ⟨.s, ri 0x43 0 o.toNat⟩
  | .ret a => some ⟨.s, rr 0x44 a.code 0 0 0⟩
  | .loop k o => some ⟨.s, ri 0x45 (16 + k.val) o.toNat⟩
  | .halt => some ⟨.s, rr 0x46 0 0 0 0⟩
  | .epush a e => some ⟨.s, rr 0x48 a.code 0 0 (256 * e.code)⟩
  | .tkwait s k => some ⟨.s, rr 0x49 0 0 0 (256 * s.code + k.toNat)⟩
  | .tksig s k => some ⟨.s, rr 0x4a 0 0 0 (256 * s.code + k.toNat)⟩
  | .estat e => some ⟨.s, rr 0x4b 0 0 0 (256 * e.code)⟩
  | .getid s => some ⟨.s, rr 0x4c 0 0 0 s.toNat⟩
  | .join a new lock => some ⟨.s, rr 0x4d a.code 0 0 (2 * bit new + bit lock)⟩
  | .leave a => some ⟨.s, rr 0x4e a.code 0 0 0⟩
  | .vclk => some ⟨.s, rr 0x4f 0 0 0 0⟩
  | .launch a b => some ⟨.s, rr 0x50 a.code b.code 0 0⟩
  | .launchW a b => some ⟨.s, rr 0x50 a.code b.code 0 1⟩
  | .shapepub a b => some ⟨.s, rr 0x51 a.code b.code 0 0⟩
  | .shapeq a => some ⟨.s, rr 0x52 a.code 0 0 0⟩
  | .shapew a => some ⟨.s, rr 0x53 a.code 0 0 0⟩
  | .rdsys r => some ⟨.s, rr 0x58 0 0 0 r.toNat⟩
  | .wrsys a r => some ⟨.s, rr 0x59 a.code 0 0 r.toNat⟩
  | .trap code => some ⟨.s, rr 0x5a 0 0 0 code.toNat⟩
  | .rft => some ⟨.s, rr 0x5b 0 0 0 0⟩
  | .yield => some ⟨.s, rr 0x5c 0 0 0 0⟩
  | .vNop x => some ⟨.v, x.toNat⟩
  | .vadd a b m t r => some ⟨.v, vf 0x1 a.code b.code 0 m.val t.code r.code 0⟩
  | .vsub a b m t r => some ⟨.v, vf 0x2 a.code b.code 0 m.val t.code r.code 0⟩
  | .vmul a b m t r => some ⟨.v, vf 0x3 a.code b.code 0 m.val t.code r.code 0⟩
  | .vfma a b c m t r => some ⟨.v, vf 0x4 a.code b.code c.code m.val t.code r.code 0⟩
  | .vfms a b c m t r => some ⟨.v, vf 0x5 a.code b.code c.code m.val t.code r.code 0⟩
  | .vfnma a b c m t r => some ⟨.v, vf 0x6 a.code b.code c.code m.val t.code r.code 0⟩
  | .vmin a b m t => some ⟨.v, vf 0x7 a.code b.code 0 m.val t.code 0 0⟩
  | .vmax a b m t => some ⟨.v, vf 0x8 a.code b.code 0 m.val t.code 0 0⟩
  | .vabs a m t => some ⟨.v, vf 0x9 a.code 0 0 m.val t.code 0 0⟩
  | .vneg a m t => some ⟨.v, vf 0xa a.code 0 0 m.val t.code 0 0⟩
  | .viadd a b m t => some ⟨.v, vf 0x10 a.code b.code 0 m.val t.code 0 0⟩
  | .visub a b m t => some ⟨.v, vf 0x11 a.code b.code 0 m.val t.code 0 0⟩
  | .vimul a b m t => some ⟨.v, vf 0x12 a.code b.code 0 m.val t.code 0 0⟩
  | .vimulh a b m t u => some ⟨.v, vf 0x13 a.code b.code 0 m.val t.code 0 (bit u)⟩
  | .viand a b m t => some ⟨.v, vf 0x14 a.code b.code 0 m.val t.code 0 0⟩
  | .vior a b m t => some ⟨.v, vf 0x15 a.code b.code 0 m.val t.code 0 0⟩
  | .vixor a b m t => some ⟨.v, vf 0x16 a.code b.code 0 m.val t.code 0 0⟩
  | .vishl a b m t => some ⟨.v, vf 0x17 a.code b.code 0 m.val t.code 0 0⟩
  | .vishr a b m t => some ⟨.v, vf 0x18 a.code b.code 0 m.val t.code 0 0⟩
  | .visar a b m t => some ⟨.v, vf 0x19 a.code b.code 0 m.val t.code 0 0⟩
  | .vimin a b m t u => some ⟨.v, vf 0x1a a.code b.code 0 m.val t.code 0 (bit u)⟩
  | .vimax a b m t u => some ⟨.v, vf 0x1b a.code b.code 0 m.val t.code 0 (bit u)⟩
  | .vcmp a b u k m t => some ⟨.v, vf 0x20 a.code b.code (8 * bit u + k.code) m.val t.code 0 0⟩
  | .vsel a b m t => some ⟨.v, vf 0x21 a.code b.code 0 m.val t.code 0 0⟩
  | .mand x y m => some ⟨.v, vf 0x22 x.val y.val 0 m.val 0 0 0⟩
  | .mor x y m => some ⟨.v, vf 0x23 x.val y.val 0 m.val 0 0 0⟩
  | .mxor x y m => some ⟨.v, vf 0x24 x.val y.val 0 m.val 0 0 0⟩
  | .mnot x m => some ⟨.v, vf 0x25 x.val 0 0 m.val 0 0 0⟩
  | .mpop x m => some ⟨.v, vf 0x26 x.val 0 0 m.val 0 0 0⟩
  | .mfirst x m => some ⟨.v, vf 0x27 x.val 0 0 m.val 0 0 0⟩
  | .vcvt a g m s r p => some ⟨.v, vf 0x28 a.code 0 g.code m.val s.code r.code p.toNat⟩
  | .vcvts a g m s p => some ⟨.v, vf 0x29 a.code 0 g.code m.val s.code 0 p.toNat⟩
  | .vqnt4 a b q m n => some ⟨.v, vf 0x2a a.code b.code q.toNat m.val 0 0 (bit n)⟩
  | .vdq4 a b m r => some ⟨.v, vf 0x2b a.code b.code 0 m.val 0 r.code 0⟩
  | .vrcp a m t r => some ⟨.v, vf 0x30 a.code 0 0 m.val t.code r.code 0⟩
  | .vrsq a m t r => some ⟨.v, vf 0x31 a.code 0 0 m.val t.code r.code 0⟩
  | .vsqrt a m t r => some ⟨.v, vf 0x32 a.code 0 0 m.val t.code r.code 0⟩
  | .vexp2 a m t r => some ⟨.v, vf 0x33 a.code 0 0 m.val t.code r.code 0⟩
  | .vlog2 a m t r => some ⟨.v, vf 0x34 a.code 0 0 m.val t.code r.code 0⟩
  | .vperm a b m t => some ⟨.v, vf 0x38 a.code b.code 0 m.val t.code 0 0⟩
  | .vrot a b m t => some ⟨.v, vf 0x39 a.code b.code 0 m.val t.code 0 0⟩
  | .vbcast a m t => some ⟨.v, vf 0x3a a.code 0 0 m.val t.code 0 0⟩
  | .vext a m t => some ⟨.v, vf 0x3b a.code 0 0 m.val t.code 0 0⟩
  | .vins a b m t => some ⟨.v, vf 0x3c a.code b.code 0 m.val t.code 0 0⟩
  | .viota a m => some ⟨.v, vf 0x3d a.code 0 0 m.val 1 0 0⟩
  | .vredadd a m t r => some ⟨.v, vf 0x40 a.code 0 0 m.val t.code r.code 0⟩
  | .vredmax a m t u => some ⟨.v, vf 0x41 a.code 0 0 m.val t.code 0 (bit u)⟩
  | .vredmin a m t u => some ⟨.v, vf 0x42 a.code 0 0 m.val t.code 0 (bit u)⟩
  | .vscan a m t r => some ⟨.v, vf 0x43 a.code 0 0 m.val t.code r.code 0⟩
  | .vkeep d b m => some ⟨.v, vf 0x48 (16 + d.val) b.code 0 m.val 0 0 0⟩
  | .mkeep d b m => some ⟨.v, vf 0x49 d.val b.code 0 m.val 0 0 0⟩
  | .aNop x => some ⟨.a, x.toNat⟩
  | .ld b sz i => some ⟨.a, am 0x1 b.code sz.code i.toNat⟩
  | .st b sz d i => some ⟨.a, asf 0x2 b.code sz.code d.code i.toNat⟩
  | .vld b i => some ⟨.a, am 0x3 b.code 0 i.toNat⟩
  | .vst b d i => some ⟨.a, asf 0x4 b.code 0 d.code i.toNat⟩
  | .vlds a b => some ⟨.a, rr 0x5 a.code b.code 0 0⟩
  | .vsts a b c => some ⟨.a, rr 0x6 a.code b.code c.code 0⟩
  | .vgath a b => some ⟨.a, rr 0x7 a.code b.code 0 0⟩
  | .vscat a b c => some ⟨.a, rr 0x8 a.code b.code c.code 0⟩
  | .ldwf b i => some ⟨.a, am 0x9 b.code 0 i.toNat⟩
  | .ldwfe b i => some ⟨.a, am 0xa b.code 0 i.toNat⟩
  | .stwe b d i => some ⟨.a, asf 0xb b.code 0 d.code i.toNat⟩
  | .stf b d i => some ⟨.a, asf 0xc b.code 0 d.code i.toNat⟩
  | .feset b i => some ⟨.a, am 0xd b.code 0 i.toNat⟩
  | .feclr b i => some ⟨.a, am 0xe b.code 0 i.toNat⟩
  | .fetest b i => some ⟨.a, am 0xf b.code 0 i.toNat⟩
  | .gld b h sz i => some ⟨.a, ag 0x10 b.code h.val sz.code i.toNat⟩
  | .gst b h d sz i => some ⟨.a, ags 0x11 b.code h.val d.code sz.code i.toNat⟩
  | .gvld b h i => some ⟨.a, am 0x12 b.code h.val i.toNat⟩
  | .gvst b h d i => some ⟨.a, asf 0x13 b.code h.val d.code i.toNat⟩
  | .gwait => some ⟨.a, rr 0x14 0 0 0 0⟩
  | .xlat a h p => some ⟨.a, rr 0x18 a.code 0 0 (64 * h.val + p.toNat)⟩
  | .hdrop h => some ⟨.a, rr 0x19 0 0 0 (64 * h.val)⟩
  | .hchk a h => some ⟨.a, rr 0x1a a.code 0 0 (64 * h.val)⟩
  | .hinfo h => some ⟨.a, rr 0x1b 0 0 0 (64 * h.val)⟩
  | .amo a b h o w => some ⟨.a, rr 0x20 a.code b.code 0 (64 * h.val + 4 * o.code + w.code)⟩
  | .cas a b c h w => some ⟨.a, rr 0x21 a.code b.code c.code (64 * h.val + w.code)⟩
  | .cas2 a b h => some ⟨.a, rr 0x22 a.code b.code 0 (64 * h.val)⟩
  | .chain a => some ⟨.a, rr 0x23 a.code 0 0 0⟩
  | .chainq a => some ⟨.a, rr 0x24 a.code 0 0 0⟩
  | .barinit a b g => some ⟨.a, rr 0x28 a.code b.code 0 (gCode g)⟩
  | .bararr a b g => some ⟨.a, rr 0x29 a.code b.code 0 (gCode g)⟩
  | .bardrop a b g => some ⟨.a, rr 0x2a a.code b.code 0 (gCode g)⟩
  | .barjoin a b g => some ⟨.a, rr 0x2b a.code b.code 0 (gCode g)⟩
  | .barwait a b g => some ⟨.a, rr 0x2c a.code b.code 0 (gCode g)⟩
  | .barbytes a b g => some ⟨.a, rr 0x2d a.code b.code 0 (gCode g)⟩
  | .barq a b g => some ⟨.a, rr 0x2e a.code b.code 0 (gCode g)⟩
  | .csend b h => some ⟨.a, rr 0x30 0 b.code 0 h.toNat⟩
  | .cstat h => some ⟨.a, rr 0x31 0 0 0 h.toNat⟩
  | .fenceQ q => some ⟨.a, rr 0x32 0 0 0 q.toNat⟩
  | .fenceSys => some ⟨.a, rr 0x33 0 0 0 0⟩
  | .fenceHost => some ⟨.a, rr 0x34 0 0 0 0⟩
  | .harv a => some ⟨.a, rr 0x38 a.code 0 0 0⟩
  | .xinval a z => some ⟨.a, rr 0x39 a.code 0 0 z.code⟩
  | .engineNop => some ⟨.e, 0⟩
  | .lit e v => some ⟨.e, el e.code v.toNat⟩
  | .litx e v => some ⟨.e, el 3 (2048 * e.code + v.toNat)⟩
  | .commonNop => some ⟨.e, eo 3 0 0 0⟩
  | .dup e => some ⟨.e, eo 3 1 0 e.code⟩
  | .drop e => some ⟨.e, eo 3 2 0 e.code⟩
  | .swap e => some ⟨.e, eo 3 3 0 e.code⟩
  | .tokenOnly e tk => some ⟨.e, eo e.code 0 tk.code 0⟩
  | .lda tk t => some ⟨.e, eo 0 1 tk.code t.code⟩
  | .ldac tk i t => some ⟨.e, eo 0 2 tk.code (8 * bit i + t.code)⟩
  | .mma tk t => some ⟨.e, eo 0 3 tk.code t.code⟩
  | .mmaz tk t => some ⟨.e, eo 0 4 tk.code t.code⟩
  | .drain tk fe f => some ⟨.e, eo 0 5 tk.code (8 * bit fe + f.code)⟩
  | .drainq tk n s => some ⟨.e, eo 0 6 tk.code (8 * bit n + s.toNat)⟩
  | .nest tk => some ⟨.e, eo 0 7 tk.code 0⟩
  | .zacc tk => some ⟨.e, eo 0 8 tk.code 0⟩
  | .msync tk take => some ⟨.e, eo 0 9 tk.code (bit take)⟩
  | .mstat tk clr => some ⟨.e, eo 0 10 tk.code (bit clr)⟩
  | .g2s c tk path fe => some ⟨.e, eo c.code 1 tk.code (2 * path.code + bit fe)⟩
  | .s2g c tk path fe => some ⟨.e, eo c.code 2 tk.code (2 * path.code + bit fe)⟩
  | .s2s c tk path fe => some ⟨.e, eo c.code 3 tk.code (2 * path.code + bit fe)⟩
  | .s2w c tk => some ⟨.e, eo c.code 4 tk.code 0⟩
  | .g2w c tk path => some ⟨.e, eo c.code 5 tk.code (2 * path.code)⟩
  | .g2g c tk path fe => some ⟨.e, eo c.code 6 tk.code (2 * path.code + bit fe)⟩
  | .circ c tk fe => some ⟨.e, eo c.code 7 tk.code (bit fe)⟩
  | .cflag c tk fe => some ⟨.e, eo c.code 8 tk.code (bit fe)⟩
  | .cnest c tk path fe => some ⟨.e, eo c.code 9 tk.code (2 * path.code + bit fe)⟩
  | .cbar c tk g => some ⟨.e, eo c.code 10 tk.code (bit g)⟩
  | .channelCstat c tk => some ⟨.e, eo c.code 11 tk.code 0⟩
  | .step _ => none
  | .rptRepetition _ => none
  | .waitc _ => none
  | .resultPush _ => none
  | .lateItemArrival _ => none
  | .bundleFetchFault _ => none
  | .slotSwitch _ => none
  | .quantumExpiry _ => none
  | .watchdogExpiry _ => none
  | .trapEntry _ => none
  | .boundaryTrap _ => none
  | .feWaiterPerform _ => none
  | .feTimeout _ _ => none
  | .vgathPass _ => none
  | .enginePortAccess _ _ _ => none
  | .pageWalkComplete _ _ => none
  | .xinvalComplete _ => none
  | .harvComplete _ => none
  | .migrationEvaluation => none
  | .pageMigrationComplete _ => none
  | .homeLineAccess _ => none
  | .atomicPerform _ => none
  | .packetRoute _ => none
  | .mergedReplySplit _ => none
  | .responseReceive _ => none
  | .bounceReinject _ => none
  | .flitReceive _ _ => none
  | .replayRequest _ => none
  | .linkAck _ => none
  | .linkRetrainDone _ _ => none
  | .creditReturn _ _ => none
  | .creditSyncSend _ _ => none
  | .creditSyncReceive _ _ => none
  | .berWindow _ _ _ => none
  | .codeRequest _ _ => none
  | .codeMarkerTimeout _ => none
  | .codeChange _ => none
  | .ordFrameReceive _ => none
  | .bulkFrameReceive _ => none
  | .flagFrameApply _ => none
  | .frameAckReceive _ => none
  | .endToEndCredit _ _ _ => none
  | .frameResendTimeout _ _ => none
  | .frameAgeDiscard _ => none
  | .laneFrameReplay _ => none
  | .relayForward _ => none
  | .keepaliveSend _ => none
  | .peerSilenceHold _ => none
  | .peerLost _ => none
  | .peerBack _ => none
  | .relayRefill _ => none
  | .combLoss _ => none
  | .combRelock _ => none
  | .tuneLoss _ _ => none
  | .laneDown _ _ => none
  | .laneUp _ _ => none
  | .laneNotice _ => none
  | .circuitSettled _ _ => none
  | .circuitFailure _ _ _ => none
  | .circuitRepairStart _ _ => none
  | .circuitRepairSearchEnd _ _ _ _ => none
  | .tearPerform _ _ => none
  | .tearComplete _ _ => none
  | .csendLanding _ => none
  | .autoCircuitIdleTear _ => none
  | .copyWordStart _ _ => none
  | .matrixWordStart _ => none
  | .nestIteration _ => none
  | .engineWordFinish _ _ => none
  | .chainStep _ _ => none
  | .chainReturn _ _ => none
  | .barrierAction _ => none
  | .barwaitTimeout _ => none
  | .fenceLimitExpiry _ => none
  | .launchRequest _ _ => none
  | .launchWaitTimeout _ => none
  | .cohortRequest _ _ => none
  | .shapeResolution _ => none
  | .shapewTimeout _ => none
  | .blockDispatch _ _ => none
  | .gangDispatch _ _ _ _ => none
  | .gangReservation _ _ => none
  | .nodeCompletion _ => none
  | .preemption _ => none
  | .contextRestore _ _ _ _ => none
  | .asidregWrite _ _ => none
  | .srseedWrite _ _ => none
  | .frecpop _ => none
  | .landwinWrite _ _ => none
  | .chdrop _ _ => none
  | .mnest1Drop _ => none
  | .wdlimitWrite _ _ => none
  | .lanePinWrite _ _ _ => none
  | .laneDisWrite _ _ => none
  | .cmdringEnable _ => none
  | .cmdringDisable _ => none
  | .accessTableWrite _ _ _ => none
  | .registerWrite _ _ => none
  | .hostAccess _ => none
  | .hostAtomicop _ => none
  | .commandConsume => none
  | .commandCompletion _ => none
  | .nopCommand _ => none
  | .launchCommand _ _ => none
  | .shootdown _ => none
  | .harvest _ => none
  | .preempt _ => none
  | .attest _ => none
  | .redirclr _ => none
  | .settvec _ => none
  | .abort _ => none
  | .subst _ => none
  | .start _ _ => none
  | .evict _ => none
  | .identityMemoryRead _ _ => none
  | .evictionMoving => none
  | .evictionRedirected => none
  | .evictionDrained => none
  | .safeToUnlatch => none
  | .evictionFailed _ => none
  | .evictNotice _ _ => none
  | .moveDoneNotice _ _ _ => none
  | .powerOn => none
  | .startComplete => none
  | .powerLoss => none
  | .packageOutOfService => none
  | .lockstepMismatch => none
  | .workerFault _ => none
  | .thermalThrottle => none
  | .dieLimit => none
  | .illegalOp => none
  | .keepaliveReceive _ => none
  | .laneFrameAck _ _ => none
  | .erardLinkDown => none
  | .throttleRelease => none

/-- The operation that the opcode of R69, S-slot opcode map names, its fields read where R54 to R60 place them. -/
def readS (w : Nat) : Option Instr :=
  match bits w 25 7 with
  | 0x0 => some (.sNop (BitVec.ofNat 25 (bits w 0 25)))
  | 0x1 => some (.add (SSpec.ofCode (bits w 20 5)) (SSpec.ofCode (bits w 15 5)) (flag w 0))
  | 0x2 => some (.sub (SSpec.ofCode (bits w 20 5)) (SSpec.ofCode (bits w 15 5)) (flag w 0))
  | 0x3 => some (.mul (SSpec.ofCode (bits w 20 5)) (SSpec.ofCode (bits w 15 5)) (flag w 0))
  | 0x4 => some (.mulh (SSpec.ofCode (bits w 20 5)) (SSpec.ofCode (bits w 15 5)) (flag w 0))
  | 0x5 => some (.mulhu (SSpec.ofCode (bits w 20 5)) (SSpec.ofCode (bits w 15 5)) (flag w 0))
  | 0x6 => some (.div (SSpec.ofCode (bits w 20 5)) (SSpec.ofCode (bits w 15 5)) (flag w 0))
  | 0x7 => some (.divu (SSpec.ofCode (bits w 20 5)) (SSpec.ofCode (bits w 15 5)) (flag w 0))
  | 0x8 => some (.rem (SSpec.ofCode (bits w 20 5)) (SSpec.ofCode (bits w 15 5)) (flag w 0))
  | 0x9 => some (.remu (SSpec.ofCode (bits w 20 5)) (SSpec.ofCode (bits w 15 5)) (flag w 0))
  | 0xa => some (.and (SSpec.ofCode (bits w 20 5)) (SSpec.ofCode (bits w 15 5)) (flag w 0))
  | 0xb => some (.or (SSpec.ofCode (bits w 20 5)) (SSpec.ofCode (bits w 15 5)) (flag w 0))
  | 0xc => some (.xor (SSpec.ofCode (bits w 20 5)) (SSpec.ofCode (bits w 15 5)) (flag w 0))
  | 0xd => some (.andn (SSpec.ofCode (bits w 20 5)) (SSpec.ofCode (bits w 15 5)) (flag w 0))
  | 0xe => some (.shl (SSpec.ofCode (bits w 20 5)) (SSpec.ofCode (bits w 15 5)) (flag w 0))
  | 0xf => some (.shr (SSpec.ofCode (bits w 20 5)) (SSpec.ofCode (bits w 15 5)) (flag w 0))
  | 0x10 => some (.sar (SSpec.ofCode (bits w 20 5)) (SSpec.ofCode (bits w 15 5)) (flag w 0))
  | 0x11 => some (.rotl (SSpec.ofCode (bits w 20 5)) (SSpec.ofCode (bits w 15 5)) (flag w 0))
  | 0x12 => some (.min (SSpec.ofCode (bits w 20 5)) (SSpec.ofCode (bits w 15 5)) (flag w 0))
  | 0x13 => some (.max (SSpec.ofCode (bits w 20 5)) (SSpec.ofCode (bits w 15 5)) (flag w 0))
  | 0x14 => some (.minu (SSpec.ofCode (bits w 20 5)) (SSpec.ofCode (bits w 15 5)) (flag w 0))
  | 0x15 => some (.maxu (SSpec.ofCode (bits w 20 5)) (SSpec.ofCode (bits w 15 5)) (flag w 0))
  | 0x16 => some (.clz (SSpec.ofCode (bits w 20 5)) (flag w 0))
  | 0x17 => some (.ctz (SSpec.ofCode (bits w 20 5)) (flag w 0))
  | 0x18 => some (.popc (SSpec.ofCode (bits w 20 5)) (flag w 0))
  | 0x19 => some (.sext (SSpec.ofCode (bits w 20 5)) (ExtWidth.ofCode (bits w 0 2)))
  | 0x1a => some (.zext (SSpec.ofCode (bits w 20 5)) (ExtWidth.ofCode (bits w 0 2)))
  | 0x1b => some (.keep (Fin.ofNat 16 (bits w 20 5)) (SSpec.ofCode (bits w 15 5)))
  | 0x20 => some (.ceq (SSpec.ofCode (bits w 20 5)) (SSpec.ofCode (bits w 15 5)) (flag w 0))
  | 0x21 => some (.cne (SSpec.ofCode (bits w 20 5)) (SSpec.ofCode (bits w 15 5)) (flag w 0))
  | 0x22 => some (.clt (SSpec.ofCode (bits w 20 5)) (SSpec.ofCode (bits w 15 5)) (flag w 0))
  | 0x23 => some (.cltu (SSpec.ofCode (bits w 20 5)) (SSpec.ofCode (bits w 15 5)) (flag w 0))
  | 0x24 => some (.cle (SSpec.ofCode (bits w 20 5)) (SSpec.ofCode (bits w 15 5)) (flag w 0))
  | 0x25 => some (.cleu (SSpec.ofCode (bits w 20 5)) (SSpec.ofCode (bits w 15 5)) (flag w 0))
  | 0x26 => some (.sel (SSpec.ofCode (bits w 20 5)) (SSpec.ofCode (bits w 15 5)) (SSpec.ofCode (bits w 10 5)))
  | 0x28 => some (.li (BitVec.ofNat 20 (bits w 0 20)))
  | 0x29 => some (.lih (SSpec.ofCode (bits w 20 5)) (BitVec.ofNat 20 (bits w 0 20)))
  | 0x2a => some (.addi (SSpec.ofCode (bits w 20 5)) (BitVec.ofNat 20 (bits w 0 20)))
  | 0x2b => some (.andi (SSpec.ofCode (bits w 20 5)) (BitVec.ofNat 20 (bits w 0 20)))
  | 0x2c => some (.ori (SSpec.ofCode (bits w 20 5)) (BitVec.ofNat 20 (bits w 0 20)))
  | 0x2d => some (.shli (SSpec.ofCode (bits w 20 5)) (BitVec.ofNat 6 (bits w 0 6)))
  | 0x30 => some (.fadd (SSpec.ofCode (bits w 20 5)) (SSpec.ofCode (bits w 15 5)) (Rnd.ofCode (bits w 2 2)) (flag w 0))
  | 0x31 => some (.fsub (SSpec.ofCode (bits w 20 5)) (SSpec.ofCode (bits w 15 5)) (Rnd.ofCode (bits w 2 2)) (flag w 0))
  | 0x32 => some (.fmul (SSpec.ofCode (bits w 20 5)) (SSpec.ofCode (bits w 15 5)) (Rnd.ofCode (bits w 2 2)) (flag w 0))
  | 0x33 => some (.ffma (SSpec.ofCode (bits w 20 5)) (SSpec.ofCode (bits w 15 5)) (SSpec.ofCode (bits w 10 5)) (Rnd.ofCode (bits w 2 2)) (flag w 0))
  | 0x34 => some (.fmin (SSpec.ofCode (bits w 20 5)) (SSpec.ofCode (bits w 15 5)) (flag w 0))
  | 0x35 => some (.fmax (SSpec.ofCode (bits w 20 5)) (SSpec.ofCode (bits w 15 5)) (flag w 0))
  | 0x36 => some (.fceq (SSpec.ofCode (bits w 20 5)) (SSpec.ofCode (bits w 15 5)) (Rnd.ofCode (bits w 2 2)) (flag w 0))
  | 0x37 => some (.fclt (SSpec.ofCode (bits w 20 5)) (SSpec.ofCode (bits w 15 5)) (Rnd.ofCode (bits w 2 2)) (flag w 0))
  | 0x38 => some (.fcle (SSpec.ofCode (bits w 20 5)) (SSpec.ofCode (bits w 15 5)) (Rnd.ofCode (bits w 2 2)) (flag w 0))
  | 0x39 => some (.fcvt (SSpec.ofCode (bits w 20 5)) (SType.ofCode (bits w 7 3)) (SType.ofCode (bits w 4 3)) (Rnd.ofCode (bits w 2 2)))
  | 0x40 => some (.br (SSpec.ofCode (bits w 20 5)) (BitVec.ofNat 20 (bits w 0 20)))
  | 0x41 => some (.brz (SSpec.ofCode (bits w 20 5)) (BitVec.ofNat 20 (bits w 0 20)))
  | 0x42 => some (.jmp (BitVec.ofNat 20 (bits w 0 20)))
  | 0x43 => some (.call (BitVec.ofNat 20 (bits w 0 20)))
  | 0x44 => some (.ret (SSpec.ofCode (bits w 20 5)))
  | 0x45 => some (.loop (Fin.ofNat 16 (bits w 20 5)) (BitVec.ofNat 20 (bits w 0 20)))
  | 0x46 => some (.halt)
  | 0x48 => some (.epush (SSpec.ofCode (bits w 20 5)) (Eng.ofCode (bits w 8 2)))
  | 0x49 => some (.tkwait (Side.ofCode (bits w 8 1)) (BitVec.ofNat 4 (bits w 0 4)))
  | 0x4a => some (.tksig (Side.ofCode (bits w 8 1)) (BitVec.ofNat 4 (bits w 0 4)))
  | 0x4b => some (.estat (Eng.ofCode (bits w 8 2)))
  | 0x4c => some (.getid (BitVec.ofNat 4 (bits w 0 4)))
  | 0x4d => some (.join (SSpec.ofCode (bits w 20 5)) (flag w 1) (flag w 0))
  | 0x4e => some (.leave (SSpec.ofCode (bits w 20 5)))
  | 0x4f => some (.vclk)
  | 0x50 => some (if flag w 0 then .launchW (SSpec.ofCode (bits w 20 5)) (SSpec.ofCode (bits w 15 5)) else .launch (SSpec.ofCode (bits w 20 5)) (SSpec.ofCode (bits w 15 5)))
  | 0x51 => some (.shapepub (SSpec.ofCode (bits w 20 5)) (SSpec.ofCode (bits w 15 5)))
  | 0x52 => some (.shapeq (SSpec.ofCode (bits w 20 5)))
  | 0x53 => some (.shapew (SSpec.ofCode (bits w 20 5)))
  | 0x58 => some (.rdsys (BitVec.ofNat 10 (bits w 0 10)))
  | 0x59 => some (.wrsys (SSpec.ofCode (bits w 20 5)) (BitVec.ofNat 10 (bits w 0 10)))
  | 0x5a => some (.trap (BitVec.ofNat 8 (bits w 0 8)))
  | 0x5b => some (.rft)
  | 0x5c => some (.yield)
  | _ => none

/-- The operation that the opcode of R69, V-slot opcode map names, its fields read where R54 to R60 place them. -/
def readV (w : Nat) : Option Instr :=
  match bits w 25 7 with
  | 0x0 => some (.vNop (BitVec.ofNat 25 (bits w 0 25)))
  | 0x1 => some (.vadd (VSpec.ofCode (bits w 20 5)) (VSpec.ofCode (bits w 15 5)) (Fin.ofNat 8 (bits w 7 3)) (VType.ofCode (bits w 4 3)) (Rnd.ofCode (bits w 2 2)))
  | 0x2 => some (.vsub (VSpec.ofCode (bits w 20 5)) (VSpec.ofCode (bits w 15 5)) (Fin.ofNat 8 (bits w 7 3)) (VType.ofCode (bits w 4 3)) (Rnd.ofCode (bits w 2 2)))
  | 0x3 => some (.vmul (VSpec.ofCode (bits w 20 5)) (VSpec.ofCode (bits w 15 5)) (Fin.ofNat 8 (bits w 7 3)) (VType.ofCode (bits w 4 3)) (Rnd.ofCode (bits w 2 2)))
  | 0x4 => some (.vfma (VSpec.ofCode (bits w 20 5)) (VSpec.ofCode (bits w 15 5)) (VSpec.ofCode (bits w 10 5)) (Fin.ofNat 8 (bits w 7 3)) (VType.ofCode (bits w 4 3)) (Rnd.ofCode (bits w 2 2)))
  | 0x5 => some (.vfms (VSpec.ofCode (bits w 20 5)) (VSpec.ofCode (bits w 15 5)) (VSpec.ofCode (bits w 10 5)) (Fin.ofNat 8 (bits w 7 3)) (VType.ofCode (bits w 4 3)) (Rnd.ofCode (bits w 2 2)))
  | 0x6 => some (.vfnma (VSpec.ofCode (bits w 20 5)) (VSpec.ofCode (bits w 15 5)) (VSpec.ofCode (bits w 10 5)) (Fin.ofNat 8 (bits w 7 3)) (VType.ofCode (bits w 4 3)) (Rnd.ofCode (bits w 2 2)))
  | 0x7 => some (.vmin (VSpec.ofCode (bits w 20 5)) (VSpec.ofCode (bits w 15 5)) (Fin.ofNat 8 (bits w 7 3)) (VType.ofCode (bits w 4 3)))
  | 0x8 => some (.vmax (VSpec.ofCode (bits w 20 5)) (VSpec.ofCode (bits w 15 5)) (Fin.ofNat 8 (bits w 7 3)) (VType.ofCode (bits w 4 3)))
  | 0x9 => some (.vabs (VSpec.ofCode (bits w 20 5)) (Fin.ofNat 8 (bits w 7 3)) (VType.ofCode (bits w 4 3)))
  | 0xa => some (.vneg (VSpec.ofCode (bits w 20 5)) (Fin.ofNat 8 (bits w 7 3)) (VType.ofCode (bits w 4 3)))
  | 0x10 => some (.viadd (VSpec.ofCode (bits w 20 5)) (VSpec.ofCode (bits w 15 5)) (Fin.ofNat 8 (bits w 7 3)) (VType.ofCode (bits w 4 3)))
  | 0x11 => some (.visub (VSpec.ofCode (bits w 20 5)) (VSpec.ofCode (bits w 15 5)) (Fin.ofNat 8 (bits w 7 3)) (VType.ofCode (bits w 4 3)))
  | 0x12 => some (.vimul (VSpec.ofCode (bits w 20 5)) (VSpec.ofCode (bits w 15 5)) (Fin.ofNat 8 (bits w 7 3)) (VType.ofCode (bits w 4 3)))
  | 0x13 => some (.vimulh (VSpec.ofCode (bits w 20 5)) (VSpec.ofCode (bits w 15 5)) (Fin.ofNat 8 (bits w 7 3)) (VType.ofCode (bits w 4 3)) (flag w 0))
  | 0x14 => some (.viand (VSpec.ofCode (bits w 20 5)) (VSpec.ofCode (bits w 15 5)) (Fin.ofNat 8 (bits w 7 3)) (VType.ofCode (bits w 4 3)))
  | 0x15 => some (.vior (VSpec.ofCode (bits w 20 5)) (VSpec.ofCode (bits w 15 5)) (Fin.ofNat 8 (bits w 7 3)) (VType.ofCode (bits w 4 3)))
  | 0x16 => some (.vixor (VSpec.ofCode (bits w 20 5)) (VSpec.ofCode (bits w 15 5)) (Fin.ofNat 8 (bits w 7 3)) (VType.ofCode (bits w 4 3)))
  | 0x17 => some (.vishl (VSpec.ofCode (bits w 20 5)) (VSpec.ofCode (bits w 15 5)) (Fin.ofNat 8 (bits w 7 3)) (VType.ofCode (bits w 4 3)))
  | 0x18 => some (.vishr (VSpec.ofCode (bits w 20 5)) (VSpec.ofCode (bits w 15 5)) (Fin.ofNat 8 (bits w 7 3)) (VType.ofCode (bits w 4 3)))
  | 0x19 => some (.visar (VSpec.ofCode (bits w 20 5)) (VSpec.ofCode (bits w 15 5)) (Fin.ofNat 8 (bits w 7 3)) (VType.ofCode (bits w 4 3)))
  | 0x1a => some (.vimin (VSpec.ofCode (bits w 20 5)) (VSpec.ofCode (bits w 15 5)) (Fin.ofNat 8 (bits w 7 3)) (VType.ofCode (bits w 4 3)) (flag w 0))
  | 0x1b => some (.vimax (VSpec.ofCode (bits w 20 5)) (VSpec.ofCode (bits w 15 5)) (Fin.ofNat 8 (bits w 7 3)) (VType.ofCode (bits w 4 3)) (flag w 0))
  | 0x20 => some (.vcmp (VSpec.ofCode (bits w 20 5)) (VSpec.ofCode (bits w 15 5)) (flag w 13) (VCond.ofCode (bits w 10 3)) (Fin.ofNat 8 (bits w 7 3)) (VType.ofCode (bits w 4 3)))
  | 0x21 => some (.vsel (VSpec.ofCode (bits w 20 5)) (VSpec.ofCode (bits w 15 5)) (Fin.ofNat 8 (bits w 7 3)) (VType.ofCode (bits w 4 3)))
  | 0x22 => some (.mand (Fin.ofNat 8 (bits w 20 5)) (Fin.ofNat 8 (bits w 15 5)) (Fin.ofNat 8 (bits w 7 3)))
  | 0x23 => some (.mor (Fin.ofNat 8 (bits w 20 5)) (Fin.ofNat 8 (bits w 15 5)) (Fin.ofNat 8 (bits w 7 3)))
  | 0x24 => some (.mxor (Fin.ofNat 8 (bits w 20 5)) (Fin.ofNat 8 (bits w 15 5)) (Fin.ofNat 8 (bits w 7 3)))
  | 0x25 => some (.mnot (Fin.ofNat 8 (bits w 20 5)) (Fin.ofNat 8 (bits w 7 3)))
  | 0x26 => some (.mpop (Fin.ofNat 8 (bits w 20 5)) (Fin.ofNat 8 (bits w 7 3)))
  | 0x27 => some (.mfirst (Fin.ofNat 8 (bits w 20 5)) (Fin.ofNat 8 (bits w 7 3)))
  | 0x28 => some (.vcvt (VSpec.ofCode (bits w 20 5)) (VType.ofCode (bits w 10 3)) (Fin.ofNat 8 (bits w 7 3)) (VType.ofCode (bits w 4 3)) (Rnd.ofCode (bits w 2 2)) (BitVec.ofNat 2 (bits w 0 2)))
  | 0x29 => some (.vcvts (VSpec.ofCode (bits w 20 5)) (VType.ofCode (bits w 10 3)) (Fin.ofNat 8 (bits w 7 3)) (VType.ofCode (bits w 4 3)) (BitVec.ofNat 2 (bits w 0 2)))
  | 0x2a => some (.vqnt4 (VSpec.ofCode (bits w 20 5)) (VSpec.ofCode (bits w 15 5)) (BitVec.ofNat 3 (bits w 10 3)) (Fin.ofNat 8 (bits w 7 3)) (flag w 0))
  | 0x2b => some (.vdq4 (VSpec.ofCode (bits w 20 5)) (VSpec.ofCode (bits w 15 5)) (Fin.ofNat 8 (bits w 7 3)) (Rnd.ofCode (bits w 2 2)))
  | 0x30 => some (.vrcp (VSpec.ofCode (bits w 20 5)) (Fin.ofNat 8 (bits w 7 3)) (VType.ofCode (bits w 4 3)) (Rnd.ofCode (bits w 2 2)))
  | 0x31 => some (.vrsq (VSpec.ofCode (bits w 20 5)) (Fin.ofNat 8 (bits w 7 3)) (VType.ofCode (bits w 4 3)) (Rnd.ofCode (bits w 2 2)))
  | 0x32 => some (.vsqrt (VSpec.ofCode (bits w 20 5)) (Fin.ofNat 8 (bits w 7 3)) (VType.ofCode (bits w 4 3)) (Rnd.ofCode (bits w 2 2)))
  | 0x33 => some (.vexp2 (VSpec.ofCode (bits w 20 5)) (Fin.ofNat 8 (bits w 7 3)) (VType.ofCode (bits w 4 3)) (Rnd.ofCode (bits w 2 2)))
  | 0x34 => some (.vlog2 (VSpec.ofCode (bits w 20 5)) (Fin.ofNat 8 (bits w 7 3)) (VType.ofCode (bits w 4 3)) (Rnd.ofCode (bits w 2 2)))
  | 0x38 => some (.vperm (VSpec.ofCode (bits w 20 5)) (VSpec.ofCode (bits w 15 5)) (Fin.ofNat 8 (bits w 7 3)) (VType.ofCode (bits w 4 3)))
  | 0x39 => some (.vrot (VSpec.ofCode (bits w 20 5)) (VSpec.ofCode (bits w 15 5)) (Fin.ofNat 8 (bits w 7 3)) (VType.ofCode (bits w 4 3)))
  | 0x3a => some (.vbcast (VSpec.ofCode (bits w 20 5)) (Fin.ofNat 8 (bits w 7 3)) (VType.ofCode (bits w 4 3)))
  | 0x3b => some (.vext (VSpec.ofCode (bits w 20 5)) (Fin.ofNat 8 (bits w 7 3)) (VType.ofCode (bits w 4 3)))
  | 0x3c => some (.vins (VSpec.ofCode (bits w 20 5)) (VSpec.ofCode (bits w 15 5)) (Fin.ofNat 8 (bits w 7 3)) (VType.ofCode (bits w 4 3)))
  | 0x3d => some (.viota (VSpec.ofCode (bits w 20 5)) (Fin.ofNat 8 (bits w 7 3)))
  | 0x40 => some (.vredadd (VSpec.ofCode (bits w 20 5)) (Fin.ofNat 8 (bits w 7 3)) (VType.ofCode (bits w 4 3)) (Rnd.ofCode (bits w 2 2)))
  | 0x41 => some (.vredmax (VSpec.ofCode (bits w 20 5)) (Fin.ofNat 8 (bits w 7 3)) (VType.ofCode (bits w 4 3)) (flag w 0))
  | 0x42 => some (.vredmin (VSpec.ofCode (bits w 20 5)) (Fin.ofNat 8 (bits w 7 3)) (VType.ofCode (bits w 4 3)) (flag w 0))
  | 0x43 => some (.vscan (VSpec.ofCode (bits w 20 5)) (Fin.ofNat 8 (bits w 7 3)) (VType.ofCode (bits w 4 3)) (Rnd.ofCode (bits w 2 2)))
  | 0x48 => some (.vkeep (Fin.ofNat 8 (bits w 20 5)) (VSpec.ofCode (bits w 15 5)) (Fin.ofNat 8 (bits w 7 3)))
  | 0x49 => some (.mkeep (Fin.ofNat 8 (bits w 20 5)) (VSpec.ofCode (bits w 15 5)) (Fin.ofNat 8 (bits w 7 3)))
  | _ => none

/-- The operation that the opcode of R69, A-slot opcode map names, its fields read where R54 to R60 place them. -/
def readA (w : Nat) : Option Instr :=
  match bits w 25 7 with
  | 0x0 => some (.aNop (BitVec.ofNat 25 (bits w 0 25)))
  | 0x1 => some (.ld (SSpec.ofCode (bits w 20 5)) (LoadSize.ofCode (bits w 16 3)) (BitVec.ofNat 16 (bits w 0 16)))
  | 0x2 => some (.st (SSpec.ofCode (bits w 20 5)) (StoreSize.ofCode (bits w 16 2)) (SSpec.ofCode (bits w 11 5)) (BitVec.ofNat 11 (bits w 0 11)))
  | 0x3 => some (.vld (SSpec.ofCode (bits w 20 5)) (BitVec.ofNat 16 (bits w 0 16)))
  | 0x4 => some (.vst (SSpec.ofCode (bits w 20 5)) (VSpec.ofCode (bits w 11 5)) (BitVec.ofNat 11 (bits w 0 11)))
  | 0x5 => some (.vlds (SSpec.ofCode (bits w 20 5)) (SSpec.ofCode (bits w 15 5)))
  | 0x6 => some (.vsts (SSpec.ofCode (bits w 20 5)) (SSpec.ofCode (bits w 15 5)) (VSpec.ofCode (bits w 10 5)))
  | 0x7 => some (.vgath (SSpec.ofCode (bits w 20 5)) (VSpec.ofCode (bits w 15 5)))
  | 0x8 => some (.vscat (SSpec.ofCode (bits w 20 5)) (VSpec.ofCode (bits w 15 5)) (VSpec.ofCode (bits w 10 5)))
  | 0x9 => some (.ldwf (SSpec.ofCode (bits w 20 5)) (BitVec.ofNat 16 (bits w 0 16)))
  | 0xa => some (.ldwfe (SSpec.ofCode (bits w 20 5)) (BitVec.ofNat 16 (bits w 0 16)))
  | 0xb => some (.stwe (SSpec.ofCode (bits w 20 5)) (SSpec.ofCode (bits w 11 5)) (BitVec.ofNat 11 (bits w 0 11)))
  | 0xc => some (.stf (SSpec.ofCode (bits w 20 5)) (SSpec.ofCode (bits w 11 5)) (BitVec.ofNat 11 (bits w 0 11)))
  | 0xd => some (.feset (SSpec.ofCode (bits w 20 5)) (BitVec.ofNat 16 (bits w 0 16)))
  | 0xe => some (.feclr (SSpec.ofCode (bits w 20 5)) (BitVec.ofNat 16 (bits w 0 16)))
  | 0xf => some (.fetest (SSpec.ofCode (bits w 20 5)) (BitVec.ofNat 16 (bits w 0 16)))
  | 0x10 => some (.gld (SSpec.ofCode (bits w 20 5)) (Fin.ofNat 16 (bits w 16 4)) (LoadSize.ofCode (bits w 13 3)) (BitVec.ofNat 13 (bits w 0 13)))
  | 0x11 => some (.gst (SSpec.ofCode (bits w 20 5)) (Fin.ofNat 16 (bits w 16 4)) (SSpec.ofCode (bits w 11 5)) (StoreSize.ofCode (bits w 9 2)) (BitVec.ofNat 9 (bits w 0 9)))
  | 0x12 => some (.gvld (SSpec.ofCode (bits w 20 5)) (Fin.ofNat 16 (bits w 16 4)) (BitVec.ofNat 16 (bits w 0 16)))
  | 0x13 => some (.gvst (SSpec.ofCode (bits w 20 5)) (Fin.ofNat 16 (bits w 16 4)) (VSpec.ofCode (bits w 11 5)) (BitVec.ofNat 11 (bits w 0 11)))
  | 0x14 => some (.gwait)
  | 0x18 => some (.xlat (SSpec.ofCode (bits w 20 5)) (Fin.ofNat 16 (bits w 6 4)) (BitVec.ofNat 3 (bits w 0 3)))
  | 0x19 => some (.hdrop (Fin.ofNat 16 (bits w 6 4)))
  | 0x1a => some (.hchk (SSpec.ofCode (bits w 20 5)) (Fin.ofNat 16 (bits w 6 4)))
  | 0x1b => some (.hinfo (Fin.ofNat 16 (bits w 6 4)))
  | 0x20 => some (.amo (SSpec.ofCode (bits w 20 5)) (SSpec.ofCode (bits w 15 5)) (Fin.ofNat 16 (bits w 6 4)) (AmoOp.ofCode (bits w 2 4)) (AmoWidth.ofCode (bits w 0 2)))
  | 0x21 => some (.cas (SSpec.ofCode (bits w 20 5)) (SSpec.ofCode (bits w 15 5)) (SSpec.ofCode (bits w 10 5)) (Fin.ofNat 16 (bits w 6 4)) (AmoWidth.ofCode (bits w 0 2)))
  | 0x22 => some (.cas2 (SSpec.ofCode (bits w 20 5)) (SSpec.ofCode (bits w 15 5)) (Fin.ofNat 16 (bits w 6 4)))
  | 0x23 => some (.chain (SSpec.ofCode (bits w 20 5)))
  | 0x24 => some (.chainq (SSpec.ofCode (bits w 20 5)))
  | 0x28 => some (.barinit (SSpec.ofCode (bits w 20 5)) (SSpec.ofCode (bits w 15 5)) (if flag w 9 then some (Fin.ofNat 16 (bits w 5 4)) else none))
  | 0x29 => some (.bararr (SSpec.ofCode (bits w 20 5)) (SSpec.ofCode (bits w 15 5)) (if flag w 9 then some (Fin.ofNat 16 (bits w 5 4)) else none))
  | 0x2a => some (.bardrop (SSpec.ofCode (bits w 20 5)) (SSpec.ofCode (bits w 15 5)) (if flag w 9 then some (Fin.ofNat 16 (bits w 5 4)) else none))
  | 0x2b => some (.barjoin (SSpec.ofCode (bits w 20 5)) (SSpec.ofCode (bits w 15 5)) (if flag w 9 then some (Fin.ofNat 16 (bits w 5 4)) else none))
  | 0x2c => some (.barwait (SSpec.ofCode (bits w 20 5)) (SSpec.ofCode (bits w 15 5)) (if flag w 9 then some (Fin.ofNat 16 (bits w 5 4)) else none))
  | 0x2d => some (.barbytes (SSpec.ofCode (bits w 20 5)) (SSpec.ofCode (bits w 15 5)) (if flag w 9 then some (Fin.ofNat 16 (bits w 5 4)) else none))
  | 0x2e => some (.barq (SSpec.ofCode (bits w 20 5)) (SSpec.ofCode (bits w 15 5)) (if flag w 9 then some (Fin.ofNat 16 (bits w 5 4)) else none))
  | 0x30 => some (.csend (VSpec.ofCode (bits w 15 5)) (BitVec.ofNat 7 (bits w 0 7)))
  | 0x31 => some (.cstat (BitVec.ofNat 7 (bits w 0 7)))
  | 0x32 => some (.fenceQ (BitVec.ofNat 4 (bits w 0 4)))
  | 0x33 => some (.fenceSys)
  | 0x34 => some (.fenceHost)
  | 0x38 => some (.harv (SSpec.ofCode (bits w 20 5)))
  | 0x39 => some (.xinval (SSpec.ofCode (bits w 20 5)) (PageSize.ofCode (bits w 0 2)))
  | _ => none

/-- The engine word that R62 to R64 name: literal or operation, by engine and op. -/
def readE (w : Nat) : Option Instr :=
  if flag w 13 then
    (if bits w 14 2 = 3 then some (.litx (Eng.ofCode (bits w 11 2)) (BitVec.ofNat 11 (bits w 0 11))) else some (.lit (Eng.ofCode (bits w 14 2)) (BitVec.ofNat 13 (bits w 0 13))))
  else if bits w 14 2 = 3 then
    match bits w 8 5 with
    | 0 => some .commonNop
    | 1 => some (.dup (Eng.ofCode (bits w 0 2)))
    | 2 => some (.drop (Eng.ofCode (bits w 0 2)))
    | 3 => some (.swap (Eng.ofCode (bits w 0 2)))
    | _ => none
  else if bits w 8 5 = 0 then
    (if bits w 4 4 = 0 then some .engineNop else some (.tokenOnly (Eng.ofCode (bits w 14 2)) (Tok.ofCode (bits w 4 4))))
  else if bits w 14 2 = 0 then
    match bits w 8 5 with
    | 1 => some (.lda (Tok.ofCode (bits w 4 4)) (MType.ofCode (bits w 0 3)))
    | 2 => some (.ldac (Tok.ofCode (bits w 4 4)) (flag w 3) (MType.ofCode (bits w 0 3)))
    | 3 => some (.mma (Tok.ofCode (bits w 4 4)) (MType.ofCode (bits w 0 3)))
    | 4 => some (.mmaz (Tok.ofCode (bits w 4 4)) (MType.ofCode (bits w 0 3)))
    | 5 => some (.drain (Tok.ofCode (bits w 4 4)) (flag w 3) (DrainFmt.ofCode (bits w 0 3)))
    | 6 => some (.drainq (Tok.ofCode (bits w 4 4)) (flag w 3) (BitVec.ofNat 3 (bits w 0 3)))
    | 7 => some (.nest (Tok.ofCode (bits w 4 4)))
    | 8 => some (.zacc (Tok.ofCode (bits w 4 4)))
    | 9 => some (.msync (Tok.ofCode (bits w 4 4)) (flag w 0))
    | 10 => some (.mstat (Tok.ofCode (bits w 4 4)) (flag w 0))
    | _ => none
  else
    match bits w 8 5 with
    | 1 => some (.g2s (Chan.ofCode (bits w 14 2)) (Tok.ofCode (bits w 4 4)) (PathSel.ofCode (bits w 1 3)) (flag w 0))
    | 2 => some (.s2g (Chan.ofCode (bits w 14 2)) (Tok.ofCode (bits w 4 4)) (PathSel.ofCode (bits w 1 3)) (flag w 0))
    | 3 => some (.s2s (Chan.ofCode (bits w 14 2)) (Tok.ofCode (bits w 4 4)) (PathSel.ofCode (bits w 1 3)) (flag w 0))
    | 4 => some (.s2w (Chan.ofCode (bits w 14 2)) (Tok.ofCode (bits w 4 4)))
    | 5 => some (.g2w (Chan.ofCode (bits w 14 2)) (Tok.ofCode (bits w 4 4)) (PathSel.ofCode (bits w 1 3)))
    | 6 => some (.g2g (Chan.ofCode (bits w 14 2)) (Tok.ofCode (bits w 4 4)) (PathSel.ofCode (bits w 1 3)) (flag w 0))
    | 7 => some (.circ (Chan.ofCode (bits w 14 2)) (Tok.ofCode (bits w 4 4)) (flag w 0))
    | 8 => some (.cflag (Chan.ofCode (bits w 14 2)) (Tok.ofCode (bits w 4 4)) (flag w 0))
    | 9 => some (.cnest (Chan.ofCode (bits w 14 2)) (Tok.ofCode (bits w 4 4)) (PathSel.ofCode (bits w 1 3)) (flag w 0))
    | 10 => some (.cbar (Chan.ofCode (bits w 14 2)) (Tok.ofCode (bits w 4 4)) (flag w 0))
    | 11 => some (.channelCstat (Chan.ofCode (bits w 14 2)) (Tok.ofCode (bits w 4 4)))
    | _ => none

/-- What a slot's word reads as, before it is checked. -/
def readWord : WordSlot → Nat → Option Instr
  | .s, w => readS w
  | .v, w => readV w
  | .a, w => readA w
  | .e, w => readE w

/-- R63: the operation words of C0 and C1 with op 0 and no token or modifier bit, which are the engine NOP too. -/
def channelNop (slot : WordSlot) (w : Nat) : Bool := decide (slot = .e) && (decide (w = 0x4000) || decide (w = 0x8000))
/-- R51: decode one word of a slot. -/
def decode (slot : WordSlot) (w : Nat) : Except DecodeError Instr :=
  match readWord slot w with
  | none => .error (.unassigned slot)
  | some i =>
    if channelNop slot w then .ok i
    else if encode i = some ⟨slot, w⟩ then (if i.wellFormed then .ok i else .error (.illegalValue slot))
    else .error (.reservedField slot)

/-- A bundle (R49): the three syllables and the two engine words, the upper first. -/
structure Bundle where
  s : Instr
  v : Instr
  a : Instr
  upper : Instr
  lower : Instr
  deriving DecidableEq, Repr

/-- The empty bundle, every part its NOP (R51). -/
def Bundle.nop : Bundle := ⟨.sNop 0, .vNop 0, .aNop 0, .engineNop, .engineNop⟩

def Instr.isNop : Instr → Bool
  | .sNop _ => true
  | .vNop _ => true
  | .aNop _ => true
  | .engineNop => true
  | .commonNop => true
  | _ => false

/-- R372: a bundle that holds `trap` or `rft` holds NOP in V and A and 0x0000 in both engine words. -/
def Bundle.aloneOk (b : Bundle) (engineWords : Nat) : Bool :=
  match b.s with
  | .trap _ => b.v.isNop && b.a.isNop && decide (engineWords = 0)
  | .rft => b.v.isNop && b.a.isNop && decide (engineWords = 0)
  | _ => true

/-- Decode the 128 bits of a bundle (R49). -/
def decodeBundle (w : Nat) : Except DecodeError Bundle :=
  match decode .s (bits w 0 32) with
  | .error e => .error e
  | .ok s => match decode .v (bits w 32 32) with
    | .error e => .error e
    | .ok v => match decode .a (bits w 64 32) with
      | .error e => .error e
      | .ok a => match decode .e (bits w 112 16) with
        | .error e => .error e
        | .ok u => match decode .e (bits w 96 16) with
          | .error e => .error e
          | .ok l => if Bundle.aloneOk ⟨s, v, a, u, l⟩ (bits w 96 32) then .ok ⟨s, v, a, u, l⟩ else .error .notAlone

/-- Little-endian value of bytes (R3). -/
def leNat : List Byte → Nat
  | [] => 0
  | b :: bs => b.toNat + 256 * leNat bs

/-- The n low bytes of a value, little-endian (R3). -/
def leBytes : Nat → Nat → List Byte
  | 0, _ => []
  | n + 1, v => BitVec.ofNat 8 v :: leBytes n (v / 256)

/-- The bundle that holds one word in its slot and NOPs elsewhere; an engine word stands in the upper half. -/
def bundleOfWord (x : Word) : Nat :=
  match x.slot with
  | .s => x.bits
  | .v => x.bits * 2 ^ 32
  | .a => x.bits * 2 ^ 64
  | .e => x.bits * 2 ^ 112

/-- The slot of an encoding: 16-bit words are engine words; a 32-bit word is an S syllable if that slot's decoder
takes it, else a V, else an A syllable (the word does not say its slot, R49). -/
def tableSlot (nbits w : Nat) : Option WordSlot :=
  if nbits ≤ 16 then (match decode .e w with | .ok _ => some .e | .error _ => none)
  else match decode .s w with
    | .ok _ => some .s
    | .error _ => match decode .v w with
      | .ok _ => some .v
      | .error _ => match decode .a w with
        | .ok _ => some .a
        | .error _ => none

/-- The instruction the decoder reads from a word numbered as spec/opcode_table.json numbers it. -/
def decodeTableWord (nbits w : Nat) : Option Instr :=
  match tableSlot nbits w with
  | none => none
  | some slot => match decode slot w with
    | .ok i => some i
    | .error _ => none

end Sys2Proof
end

