-- ==== Sys2Proof/Machine/Cells.lean ====
section
/-! DEFINITION. Sparse data by key: a list of (key, value) pairs with strictly rising keys. Memory is such a list of
bytes in which no entry equals what an unlisted address reads as. -/

namespace Sys2Proof.Machine

/-- The value at a key, if listed. -/
def look {α : Type} : List (Nat × α) → Nat → Option α
  | [], _ => none
  | (k, v) :: xs, a => if a = k then some v else if a < k then none else look xs a

/-- Sets the value at a key. -/
def put {α : Type} : List (Nat × α) → Nat → α → List (Nat × α)
  | [], a, b => [(a, b)]
  | (k, v) :: xs, a, b => if a < k then (a, b) :: (k, v) :: xs else if a = k then (a, b) :: xs else (k, v) :: put xs a b

/-- Removes a key. -/
def erase {α : Type} : List (Nat × α) → Nat → List (Nat × α)
  | [], _ => []
  | (k, v) :: xs, a => if a = k then xs else if a < k then (k, v) :: xs else (k, v) :: erase xs a

/-- The keys rise strictly. -/
def keysRise {α : Type} : List (Nat × α) → Bool
  | [] => true
  | [_] => true
  | (k, _) :: (l, w) :: xs => decide (k < l) && keysRise ((l, w) :: xs)

/-- A set of numbers as a strictly rising list. -/
def memSet : List Nat → Nat → Bool
  | [], _ => false
  | k :: xs, a => if a = k then true else if a < k then false else memSet xs a
def addSet : List Nat → Nat → List Nat
  | [], a => [a]
  | k :: xs, a => if a < k then a :: k :: xs else if a = k then k :: xs else k :: addSet xs a
def delSet : List Nat → Nat → List Nat
  | [], _ => []
  | k :: xs, a => if a = k then xs else if a < k then k :: xs else k :: delSet xs a
def setRises : List Nat → Bool
  | [] => true
  | [_] => true
  | k :: l :: xs => decide (k < l) && setRises (l :: xs)

/-- R400 step 5: a byte of memory never written since cold start. -/
def unlisted : Byte := 0

/-- Memory in canonical form. -/
abbrev Memory := List Host.Cell

def Memory.read (m : Memory) (a : Nat) : Byte := (look m a).getD unlisted
def Memory.write (m : Memory) (a : Nat) (b : Byte) : Memory := if b = unlisted then erase m a else put m a b
/-- The canonical form: rising addresses, no entry equal to what an unlisted address reads as. -/
def Memory.wf (m : Memory) : Bool := keysRise m && m.all fun c => decide (c.2 ≠ unlisted)

/-- n bytes from a upward. -/
def Memory.bytes (m : Memory) (a : Nat) : Nat → List Byte
  | 0 => []
  | n + 1 => m.read a :: Memory.bytes m (a + 1) n
/-- Bytes stored from a upward. -/
def Memory.store (m : Memory) (a : Nat) : List Byte → Memory
  | [] => m
  | b :: bs => Memory.store (m.write a b) (a + 1) bs
/-- Bytes stored from a upward where they are given (a masked store leaves the others). -/
def Memory.storeMasked (m : Memory) (a : Nat) : List (Option Byte) → Memory
  | [] => m
  | some b :: bs => Memory.storeMasked (m.write a b) (a + 1) bs
  | none :: bs => Memory.storeMasked m (a + 1) bs
/-- n bytes from a upward set to what an unlisted address reads as. -/
def Memory.clear (m : Memory) (a n : Nat) : Memory := m.filter fun c => !(decide (a ≤ c.1) && decide (c.1 < a + n))

end Sys2Proof.Machine
end

