-- ==== Sys2Proof/Machine/Num.lean ====
section
/-! DEFINITION. Numbers and their bits (spec/02): formats, exact values, Round1, conversions, the elementary
functions of R240, SB4 blocks, dot-product summation. Arithmetic is exact over integers and fractions; a result is
rounded once, by `round1`. -/

namespace Sys2Proof.Machine

/-- R31: the five floating-point flags. -/
structure FpFlags where
  nv : Bool := false
  dz : Bool := false
  of : Bool := false
  uf : Bool := false
  nx : Bool := false
  deriving DecidableEq, Repr

def FpFlags.none : FpFlags := {}
/-- Flags are ORed together (R31, R244). -/
def FpFlags.or (f g : FpFlags) : FpFlags :=
  ⟨f.nv || g.nv, f.dz || g.dz, f.of || g.of, f.uf || g.uf, f.nx || g.nx⟩
def FpFlags.invalid : FpFlags := { nv := true }

/-- R24: the floating-point formats. -/
inductive Fmt where
  | f64 | f32 | f16 | bf16 | e4m3 | e5m2
  deriving DecidableEq, Repr

/-- R29: the precision P. -/
def Fmt.p : Fmt → Nat | .f64 => 53 | .f32 => 24 | .f16 => 11 | .bf16 => 8 | .e4m3 => 4 | .e5m2 => 3
/-- R29: Emin. -/
def Fmt.emin : Fmt → Int | .f64 => -1022 | .f32 => -126 | .f16 => -14 | .bf16 => -126 | .e4m3 => -6 | .e5m2 => -14
def Fmt.expBits : Fmt → Nat | .f64 => 11 | .f32 => 8 | .f16 => 5 | .bf16 => 8 | .e4m3 => 4 | .e5m2 => 5
def Fmt.fracBits (f : Fmt) : Nat := f.p - 1
def Fmt.width (f : Fmt) : Nat := 1 + f.expBits + f.fracBits
def Fmt.bias (f : Fmt) : Int := 1 - f.emin
/-- R24: the encoding of the largest finite value. -/
def Fmt.maxBits : Fmt → Nat
  | .f64 => 0x7FEFFFFFFFFFFFFF | .f32 => 0x7F7FFFFF | .f16 => 0x7BFF | .bf16 => 0x7F7F | .e4m3 => 0x7E | .e5m2 => 0x7B
/-- The largest finite value as mantissa and exponent (E4M3: 448, not 480, R29). -/
def Fmt.maxMant : Fmt → Nat
  | .f64 => 2 ^ 53 - 1 | .f32 => 2 ^ 24 - 1 | .f16 => 2 ^ 11 - 1 | .bf16 => 2 ^ 8 - 1 | .e4m3 => 14 | .e5m2 => 7
def Fmt.maxExp : Fmt → Int | .f64 => 971 | .f32 => 104 | .f16 => 5 | .bf16 => 120 | .e4m3 => 5 | .e5m2 => 13
/-- R24: E4M3 has no infinities. -/
def Fmt.hasInf : Fmt → Bool | .e4m3 => false | .f64 => true | .f32 => true | .f16 => true | .bf16 => true | .e5m2 => true
def Fmt.isFp8 : Fmt → Bool | .e4m3 => true | .e5m2 => true | .f64 => false | .f32 => false | .f16 => false | .bf16 => false
/-- R24: the encoding of +infinity; E4M3 has none. -/
def Fmt.infBits (f : Fmt) : Nat := (2 ^ f.expBits - 1) * 2 ^ f.fracBits
/-- R26: canonical NaNs. -/
def Fmt.nanBits : Fmt → Nat
  | .f64 => 0x7FF8000000000000 | .f32 => 0x7FC00000 | .f16 => 0x7E00 | .bf16 => 0x7FC0 | .e4m3 => 0x7F | .e5m2 => 0x7E
def Fmt.signBit (f : Fmt) : Nat := 2 ^ (f.width - 1)

/-- An exact value: a NaN (signalling or quiet), a signed infinity, or (-1)^neg * num/den * 2^exp with signed
zero (R24, R25). `den` is never zero in a value the operations below form. -/
inductive FVal where
  | nan (signalling : Bool)
  | inf (neg : Bool)
  | fin (neg : Bool) (num den : Nat) (exp : Int)
  deriving DecidableEq, Repr

def FVal.zero (neg : Bool) : FVal := .fin neg 0 1 0
def FVal.ofInt (x : Int) : FVal := .fin (decide (x < 0)) x.natAbs 1 0
def FVal.isNan : FVal → Bool | .nan _ => true | .inf _ => false | .fin .. => false
def FVal.isSnan : FVal → Bool | .nan b => b | .inf _ => false | .fin .. => false
def FVal.isInf : FVal → Bool | .inf _ => true | .nan _ => false | .fin .. => false
def FVal.isZero : FVal → Bool | .fin _ n _ _ => decide (n = 0) | .nan _ => false | .inf _ => false
def FVal.sign : FVal → Bool | .nan _ => false | .inf s => s | .fin s _ _ _ => s
def FVal.neg : FVal → FVal | .nan b => .nan b | .inf s => .inf (!s) | .fin s n d e => .fin (!s) n d e

/-- R24, R26: the value of an encoding. -/
def Fmt.decode (f : Fmt) (b : Nat) : FVal :=
  let s := flag b (f.width - 1)
  let e := bits b f.fracBits f.expBits
  let fr := bits b 0 f.fracBits
  if e = 2 ^ f.expBits - 1 ∧ (f.hasInf ∨ fr = 2 ^ f.fracBits - 1) then
    if f.hasInf ∧ fr = 0 then .inf s
    else .nan (!f.isFp8 && decide (fr < 2 ^ (f.fracBits - 1)))
  else if e = 0 then .fin s fr 1 (1 - f.bias - f.fracBits)
  else .fin s (2 ^ f.fracBits + fr) 1 ((e : Int) - f.bias - f.fracBits)

/-- R28, R29: rounding modes; SR carries the LFSR state of R36. -/
inductive RMode where
  | rne | rtz | rdn | rup
  | sr (u : Nat)
  deriving DecidableEq, Repr

/-- Shift left for a positive, right (dropping nothing: the divisor grows) for a negative exponent. -/
def scaleNum (n : Nat) (e : Int) : Nat := n * 2 ^ e.toNat
def scaleDen (d : Nat) (e : Int) : Nat := d * 2 ^ (-e).toNat

/-- Floor(log2 (num/den * 2^exp)) for num and den not zero. -/
def floorLog2 (num den : Nat) (exp : Int) : Int :=
  let l : Int := (Nat.log2 num : Int) - Nat.log2 den
  (if scaleDen num l < scaleNum den l then l - 1 else l) + exp

def withSign (f : Fmt) (neg : Bool) (b : Nat) : Nat := if neg then f.signBit + b else b

/-- R30: Overflow. -/
def overflow (f : Fmt) (neg : Bool) (rm : RMode) (ovf8 : Bool) : Nat × FpFlags :=
  let fl : FpFlags := { of := true, nx := true }
  if f.isFp8 && !ovf8 then (withSign f neg f.maxBits, fl)
  else if rm = .rtz ∨ (rm = .rdn ∧ !neg) ∨ (rm = .rup ∧ neg) then (withSign f neg f.maxBits, fl)
  else if f.hasInf then (withSign f neg f.infBits, fl)
  else (f.nanBits, fl)

/-- The encoding of k * 2^(e) where k < 2^P, or k = 2^P after a carry. -/
def encodeFinite (f : Fmt) (neg : Bool) (k : Nat) (qexp : Int) : Nat :=
  let (k, qexp) := if k = 2 ^ f.p then (k / 2, qexp + 1) else (k, qexp)
  if k < 2 ^ f.fracBits then withSign f neg k
  else withSign f neg ((qexp + f.fracBits + f.bias).toNat * 2 ^ f.fracBits + (k - 2 ^ f.fracBits))

/-- R29: whether the magnitude is rounded up, from the quotient k, the remainder and the divisor. -/
def roundsUp (rm : RMode) (neg : Bool) (k rem d : Nat) : Bool :=
  match rm with
  | .rne => decide (2 * rem > d) || (decide (2 * rem = d) && decide (k % 2 = 1))
  | .rtz => false
  | .rdn => neg
  | .rup => !neg
  | .sr u => decide (rem * 2 ^ 32 / d + u ≥ 2 ^ 32)

/-- R29: Round1, the one rounding of an exact value into a format; the result's encoding and the flags raised. -/
def round1 (x : FVal) (f : Fmt) (rm : RMode) (ovf8 : Bool) : Nat × FpFlags :=
  match x with
  | .nan sig => (f.nanBits, { nv := sig })
  | .inf s =>
    if f.hasInf then (withSign f s f.infBits, .none)
    else if ovf8 then (f.nanBits, .invalid)
    else (withSign f s f.maxBits, { nx := true })
  | .fin s num den exp =>
    if num = 0 then (withSign f s 0, .none)
    else
      let fl := floorLog2 num den exp
      let e := max fl f.emin
      let qexp := e - f.p + 1
      let n := scaleNum num (exp - qexp)
      let d := scaleDen den (exp - qexp)
      let k := n / d
      let rem := n % d
      let k' := if rem ≠ 0 ∧ roundsUp rm s k rem d then k + 1 else k
      let inexact : FpFlags := if rem ≠ 0 then { nx := true, uf := decide (fl < f.emin) } else .none
      if scaleNum k' (qexp - f.maxExp) > scaleDen f.maxMant (qexp - f.maxExp) then
        let (b, g) := overflow f s rm ovf8
        (b, inexact.or g)
      else (encodeFinite f s k' qexp, inexact)

/-- The signed numerator of a finite value over a common denominator `den * 2^(-exp)`. -/
def signedNum (neg : Bool) (n : Nat) : Int := if neg then -(n : Int) else n

/-- A NaN result of an operation with the flag a signalling operand raises (R26). -/
def nanResult (xs : List FVal) (f : FpFlags) : FVal × FpFlags := (.nan false, f.or { nv := xs.any FVal.isSnan })

/-- R220: exact a + b; `rdn` says whether a zero of cancelling operands is -0. -/
def addExact (rdn : Bool) (a b : FVal) : FVal × FpFlags :=
  match a, b with
  | .nan _, _ => nanResult [a, b] .none
  | _, .nan _ => nanResult [a, b] .none
  | .inf s, .inf t => if s = t then (.inf s, .none) else (.nan false, .invalid)
  | .inf s, .fin .. => (.inf s, .none)
  | .fin .., .inf t => (.inf t, .none)
  | .fin s n d e, .fin t m c g =>
    let lo := min e g
    let z : Int := signedNum s (n * 2 ^ (e - lo).toNat * c) + signedNum t (m * 2 ^ (g - lo).toNat * d)
    if z = 0 then (.zero (if n = 0 ∧ m = 0 ∧ s = t then s else rdn), .none)
    else (.fin (decide (z < 0)) z.natAbs (d * c) lo, .none)

/-- R220: exact a * b. -/
def mulExact (a b : FVal) : FVal × FpFlags :=
  match a, b with
  | .nan _, _ => nanResult [a, b] .none
  | _, .nan _ => nanResult [a, b] .none
  | .inf s, .inf t => (.inf (s != t), .none)
  | .inf s, .fin t m _ _ => if m = 0 then (.nan false, .invalid) else (.inf (s != t), .none)
  | .fin s n _ _, .inf t => if n = 0 then (.nan false, .invalid) else (.inf (s != t), .none)
  | .fin s n d e, .fin t m c g => (.fin (s != t) (n * m) (d * c) (e + g), .none)

/-- R219, R220: exact a * b + c; an invalid product raises NV even when c is a quiet NaN. -/
def fmaExact (rdn : Bool) (a b c : FVal) : FVal × FpFlags :=
  let (p, f) := mulExact a b
  let (r, g) := addExact rdn p c
  (r, f.or g)

/-- R28: the direction that decides the sign of a cancelled zero. -/
def RMode.isRdn (rm : RMode) : Bool := decide (rm = .rdn)

/-- One operation and its one rounding (R219, R232). -/
def roundPair (r : FVal × FpFlags) (f : Fmt) (rm : RMode) (ovf8 : Bool) : Nat × FpFlags :=
  let (b, g) := round1 r.1 f rm ovf8
  (b, r.2.or g)

def fpAdd (f : Fmt) (rm : RMode) (a b : Nat) : Nat × FpFlags :=
  roundPair (addExact rm.isRdn (f.decode a) (f.decode b)) f rm false
def fpSub (f : Fmt) (rm : RMode) (a b : Nat) : Nat × FpFlags :=
  roundPair (addExact rm.isRdn (f.decode a) (f.decode b).neg) f rm false
def fpMul (f : Fmt) (rm : RMode) (a b : Nat) : Nat × FpFlags := roundPair (mulExact (f.decode a) (f.decode b)) f rm false
def fpFma (f : Fmt) (rm : RMode) (a b c : Nat) : Nat × FpFlags :=
  roundPair (fmaExact rm.isRdn (f.decode a) (f.decode b) (f.decode c)) f rm false
/-- R232: a * b - c. -/
def fpFms (f : Fmt) (rm : RMode) (a b c : Nat) : Nat × FpFlags :=
  roundPair (fmaExact rm.isRdn (f.decode a) (f.decode b) (f.decode c).neg) f rm false
/-- R232: c - a * b. -/
def fpFnma (f : Fmt) (rm : RMode) (a b c : Nat) : Nat × FpFlags :=
  roundPair (fmaExact rm.isRdn (f.decode a).neg (f.decode b) (f.decode c)) f rm false

/-- Order of two values that are not NaN; -0 equals +0. -/
def FVal.cmp : FVal → FVal → Ordering
  | .nan _, _ => .eq
  | _, .nan _ => .eq
  | .inf s, .inf t => if s = t then .eq else if s then .lt else .gt
  | .inf s, .fin .. => if s then .lt else .gt
  | .fin .., .inf t => if t then .gt else .lt
  | .fin s n d e, .fin t m c g =>
    let lo := min e g
    compare (signedNum s (n * 2 ^ (e - lo).toNat * c)) (signedNum t (m * 2 ^ (g - lo).toNat * d))

/-- R220: MinNum (`big` false) and MaxNum on encodings; -0 counts as less than +0. -/
def minMaxNum (f : Fmt) (big : Bool) (a b : Nat) : Nat × FpFlags :=
  let x := f.decode a
  let y := f.decode b
  let fl : FpFlags := { nv := x.isSnan || y.isSnan }
  if x.isNan then (if y.isNan then (f.nanBits, fl) else (b, fl))
  else if y.isNan then (a, fl)
  else match x.cmp y with
    | .lt => (if big then b else a, fl)
    | .gt => (if big then a else b, fl)
    | .eq => if x.isZero then (if x.sign = big then b else a, fl) else (a, fl)

/-- R220: compares; `quiet` ones raise NV only for a signalling NaN. -/
def fpEq (f : Fmt) (a b : Nat) : Bool × FpFlags :=
  let x := f.decode a
  let y := f.decode b
  (!x.isNan && !y.isNan && x.cmp y == .eq, { nv := x.isSnan || y.isSnan })
def fpLt (f : Fmt) (a b : Nat) : Bool × FpFlags :=
  let x := f.decode a
  let y := f.decode b
  (!x.isNan && !y.isNan && x.cmp y == .lt, { nv := x.isNan || y.isNan })
def fpLe (f : Fmt) (a b : Nat) : Bool × FpFlags :=
  let x := f.decode a
  let y := f.decode b
  (!x.isNan && !y.isNan && x.cmp y != .gt, { nv := x.isNan || y.isNan })
/-- R234: neither operand is a NaN. -/
def fpOrdered (f : Fmt) (a b : Nat) : Bool × FpFlags :=
  let x := f.decode a
  let y := f.decode b
  (!x.isNan && !y.isNan, { nv := x.isSnan || y.isSnan })

/-- R37: x rounded to an integer in the mode, for x finite. -/
def roundInt (neg : Bool) (num den : Nat) (exp : Int) (rm : RMode) : Int × Bool :=
  let n := scaleNum num exp
  let d := scaleDen den exp
  let k := n / d
  let rem := n % d
  (signedNum neg (if rem ≠ 0 ∧ roundsUp rm neg k rem d then k + 1 else k), decide (rem ≠ 0))

/-- R37: conversion to an integer with the bounds given. -/
def toIntBounded (x : FVal) (lo hi : Int) (rm : RMode) : Int × FpFlags :=
  match x with
  | .nan _ => (0, .invalid)
  | .inf s => (if s then lo else hi, .invalid)
  | .fin s n d e =>
    let big := decide (floorLog2 n d e > 70)
    if n ≠ 0 ∧ big then (if s then lo else hi, .invalid)
    else
      let (k, inexact) := roundInt s n d e rm
      if k < lo then (lo, .invalid) else if k > hi then (hi, .invalid) else (k, { nx := inexact })

/-- R37, signed targets of N bits. -/
def toIntS (x : FVal) (n : Nat) (rm : RMode) : Int × FpFlags := toIntBounded x (-(2 ^ (n - 1) : Int)) (2 ^ (n - 1) - 1) rm
/-- R37, unsigned targets of N bits. -/
def toIntU (x : FVal) (n : Nat) (rm : RMode) : Int × FpFlags := toIntBounded x 0 (2 ^ n - 1) rm

/-- The low n bits of an integer. -/
def wrapInt (n : Nat) (x : Int) : Nat := (x % (2 ^ n : Int)).toNat
/-- The low n bits taken as two's complement (R27). -/
def signedOf (n v : Nat) : Int := if v % 2 ^ n < 2 ^ (n - 1) then (v % 2 ^ n : Nat) else (v % 2 ^ n : Nat) - (2 ^ n : Int)
/-- Clamp an integer to a range. -/
def clampInt (x lo hi : Int) : Int := if x < lo then lo else if x > hi then hi else x

/-! Elementary functions (R240). -/

/-- Newton's iteration from above; stops when it no longer falls. -/
def isqrtLoop (n : Nat) : Nat → Nat → Nat
  | 0, x => x
  | fuel + 1, x => let y := (x + n / x) / 2; if y < x then isqrtLoop n fuel y else x
/-- Floor of the square root. -/
def isqrt (n : Nat) : Nat := if n = 0 then 0 else isqrtLoop n (Nat.log2 n + 2) (2 ^ (Nat.log2 n / 2 + 1))

/-- A value just above `m * 2^e` by less than one unit unless `exact`: the last bit of an odd mantissa stands for
the discarded rest, so that one later rounding gives the rounding of the true value. -/
def stickyVal (neg : Bool) (m : Nat) (exact : Bool) (e : Int) : FVal := .fin neg (2 * m + bit (!exact)) 1 (e - 1)

/-- The square root of num/den * 2^exp with 320 bits. -/
def sqrtFrac (num den : Nat) (exp : Int) : FVal :=
  let odd := exp % 2
  let num := num * 2 ^ odd.toNat
  let e := (exp - odd) / 2
  let a := num * 2 ^ 640
  let r := isqrt (a / den)
  stickyVal false r (decide (r * r * den = a)) (e - 320)

/-- The product of the roots named by the bits of a fraction, most significant first. -/
def exp2Loop (f k : Nat) : Nat → Nat → Nat → Nat
  | 0, _, acc => acc
  | fuel + 1, root, acc =>
    let root := isqrt (root * 2 ^ 320)
    let i := k - (fuel + 1)
    exp2Loop f k fuel root (if flag f (k - 1 - i) then acc * root / 2 ^ 320 else acc)

/-- 2^x for x finite; results beyond every format's range stand as 2^2000 and 2^-2000. -/
def exp2Val (neg : Bool) (num den : Nat) (exp : Int) : FVal :=
  if num = 0 then .fin false 1 1 0
  else if floorLog2 num den exp ≥ 11 then .fin false 1 1 (if neg then -2000 else 2000)
  else if exp ≥ 0 then .fin false 1 1 (signedNum neg (num * 2 ^ exp.toNat))
  else
    let k := (-exp).toNat
    let z : Int := signedNum neg num
    let whole := z / (2 ^ k : Int)
    let f := (z % (2 ^ k : Int)).toNat
    if f = 0 then .fin false 1 1 whole
    else stickyVal false (exp2Loop f k k (2 ^ 321) (2 ^ 320)) false (whole - 320)

/-- Bits of the binary logarithm of y in [1, 2) with 512 fraction bits, by repeated squaring. -/
def log2Loop : Nat → Nat → Nat → Nat
  | 0, _, acc => acc
  | fuel + 1, y, acc =>
    let y2 := y * y / 2 ^ 512
    if y2 ≥ 2 ^ 513 then log2Loop fuel (y2 / 2) (2 * acc + 1) else log2Loop fuel y2 (2 * acc)

/-- log2 of num * 2^exp, num not zero. -/
def log2Val (num : Nat) (exp : Int) : FVal :=
  let l := Nat.log2 num
  let k : Int := l + exp
  if num = 2 ^ l then .ofInt k
  else
    let y := num * 2 ^ 512 / 2 ^ l
    let z : Int := 2 * (k * 2 ^ 200 + log2Loop 200 y 0) + 1
    .fin (decide (z < 0)) z.natAbs 1 (-201)

/-- R240: the elementary functions. -/
inductive Elem where
  | rcp | rsq | sqrt | exp2 | log2
  deriving DecidableEq, Repr

def divZero : FpFlags := { dz := true }

/-- R240: the exact value of an elementary function, with its special cases. -/
def elemExact (g : Elem) (x : FVal) : FVal × FpFlags :=
  match x with
  | .nan sig => (.nan false, { nv := sig })
  | .inf s => match g with
    | .rcp => (.zero s, .none)
    | .rsq => if s then (.nan false, .invalid) else (.zero false, .none)
    | .sqrt => if s then (.nan false, .invalid) else (.inf false, .none)
    | .exp2 => if s then (.zero false, .none) else (.inf false, .none)
    | .log2 => if s then (.nan false, .invalid) else (.inf false, .none)
  | .fin s n d e =>
    if n = 0 then match g with
      | .rcp => (.inf s, divZero)
      | .rsq => (.inf s, divZero)
      | .sqrt => (.zero s, .none)
      | .exp2 => (.fin false 1 1 0, .none)
      | .log2 => (.inf true, divZero)
    else match g with
      | .rcp => (.fin s d n (-e), .none)
      | .exp2 => (exp2Val s n d e, .none)
      | .rsq => if s then (.nan false, .invalid) else (sqrtFrac d n (-e), .none)
      | .sqrt => if s then (.nan false, .invalid) else (sqrtFrac n d e, .none)
      | .log2 => if s then (.nan false, .invalid) else (log2Val n e, .none)

/-- R240: one rounding of the exact result. -/
def fpElem (g : Elem) (f : Fmt) (rm : RMode) (a : Nat) : Nat × FpFlags := roundPair (elemExact g (f.decode a)) f rm false

/-! SB4 scaled blocks (R38 to R43, R46, R47). -/

/-- R40: twice the magnitude of index 0 to 7 of codebooks 1 to 3. -/
def magnitude2 (t i : Nat) : Nat :=
  match t with
  | 1 => [0, 1, 2, 3, 4, 6, 8, 12].getD i 0
  | 2 => [0, 2, 4, 8, 16, 32, 64, 128].getD i 0
  | _ => [0, 2, 4, 6, 8, 12, 16, 24].getD i 0

/-- R41: Decode4, as a sign and twice the magnitude. -/
def decode4 (t c : Nat) : Bool × Nat :=
  if t = 0 then (if c < 8 then (false, 2 * c) else (true, 2 * (16 - c)))
  else (decide (c ≥ 8), magnitude2 t (c % 8))

def byteAt (b : List Byte) (i : Nat) : Nat := (b.getD i 0).toNat

/-- R39: the format codes. -/
def fcValid (fc : Nat) : Bool := fc == 0x00 || fc == 0x4A || fc == 0x4B

/-- R38: element i's code. -/
def codeOf (b : List Byte) (i : Nat) : Nat :=
  let x := byteAt b (16 + i / 2)
  if i % 2 = 0 then x % 16 else x / 16

/-- R41: DecodeBlock; none when FC is not a block's. -/
def decodeBlock (b : List Byte) : Option (List FVal) :=
  let fc := byteAt b 0
  if fc = 0 then some ((List.range 96).map fun _ => .zero false)
  else if !fcValid fc then none
  else if byteAt b 1 = 0xFF then some ((List.range 96).map fun _ => .nan false)
  else some ((List.range 96).map fun i =>
    let g := byteAt b (2 + i / 16)
    let t := g / 64
    let d := g % 64
    let j := i / 2
    let mu := if fc = 0x4B then bits (byteAt b (8 + j / 8)) (j % 8) 1 else 0
    let (s, m) := decode4 t (codeOf b i)
    if d = 63 then .zero false else .fin s m 1 ((byteAt b 1 : Int) - 127 - d - mu - 1))

/-- R43: the zero block. -/
def zeroBlock : List Byte := List.replicate 64 0
/-- R43: the NaN block. -/
def nanBlock : List Byte := [0x4B, 0xFF] ++ List.replicate 62 0

/-- R40: Top of a codebook; Bottom is -8 for INT and -Top otherwise (R46). -/
def sb4Top : Nat → Nat | 0 => 7 | 1 => 6 | 2 => 64 | _ => 12
def sb4Bottom : Nat → Nat | 0 => 8 | 1 => 6 | 2 => 64 | _ => 12

/-- The least e with num/den <= 2^e, num and den not zero. -/
def ceilLog2 (num den : Nat) : Int :=
  let l := floorLog2 num den 0
  if scaleNum den l = scaleDen num l then l else l + 1

/-- 2^f scaled by 2^512, for the fixed-point numerators of Quantise4. -/
def pow512 (f : Int) : Nat := 2 ^ (512 + f).toNat

/-- The outcome of TryGroup (R46). Numerators stand over D = ms * 2^512. -/
structure GroupTry where
  t : Nat
  d : Nat
  mu : List Nat
  codes : List Nat
  err : Nat
  inexact : Bool
  saturated : Bool
  deriving DecidableEq, Repr

/-- R47: of the codes in `cs` (ascending), the nearest to q: ties go to codes with bit 0 clear, then the lowest. -/
def nearestCode (q : Int) (val : Nat → Int) (cs : List Nat) : Nat :=
  let dist := fun c => (q - val c).natAbs
  let best := cs.foldl (fun m c => min m (dist c)) (dist 0)
  let near := cs.filter fun c => decide (dist c = best)
  (near.filter fun c => decide (c % 2 = 0)).headD (near.headD 0)

/-- R46: TryGroup on the 16 numerators qs of a group (over ms * 2^512). -/
def tryGroup (qs : List Int) (ms t : Nat) (eb : Int) (fc : Nat) : GroupTry :=
  let gm := qs.foldl (fun m q => max m q.natAbs) 0
  let eg := ceilLog2 gm (sb4Top t * ms * 2 ^ 512)
  let d := (clampInt (eb - eg) 0 62).toNat
  let e := eb - d
  let h := sb4Top t * ms * pow512 (e - 1)
  let q := fun i => qs.getD i 0
  let mu := (List.range 8).map fun j =>
    if fc = 0x4B ∧ (q (2 * j) ≠ 0 ∨ q (2 * j + 1) ≠ 0) ∧ (q (2 * j)).natAbs ≤ h ∧ (q (2 * j + 1)).natAbs ≤ h then 1 else 0
  let val := fun i c => (signedNum (decode4 t c).1 ((decode4 t c).2 * ms * pow512 (e - (mu.getD (i / 2) 0 : Nat) - 1)) : Int)
  let codes := (List.range 16).map fun i => nearestCode (q i) (val i) (List.range 16)
  let err := (List.range 16).foldl (fun acc i => acc + (q i - val i (codes.getD i 0)).natAbs ^ 2) 0
  let inexact := (List.range 16).any fun i => decide (q i ≠ val i (codes.getD i 0))
  let unitAt := fun i => ms * pow512 (e - (mu.getD (i / 2) 0 : Nat))
  let saturated := (List.range 16).any fun i =>
    decide (q i > (sb4Top t * unitAt i : Nat)) || decide (q i < -((sb4Bottom t * unitAt i : Nat) : Int))
  ⟨t, d, mu, codes, err, inexact, saturated⟩

/-- The best of several tries: the least error, the lowest type on a tie (R47). -/
def bestTry : List GroupTry → Option GroupTry
  | [] => none
  | r :: rs => match bestTry rs with
    | none => some r
    | some b => if b.err < r.err then some b else some r

/-- One group's descriptor, micro-exponent bits, codes and flags. -/
def quantGroup (qs : List Int) (ms sel : Nat) (eb : Int) (fc : Nat) : Nat × List Nat × List Nat × FpFlags :=
  if qs.all fun q => decide (q = 0) then
    (64 * (if sel = 4 then 0 else sel) + 63, List.replicate 8 0, List.replicate 16 0, .none)
  else
    let types := if sel = 4 then [0, 1, 2, 3] else [sel]
    match bestTry (types.map fun t => tryGroup qs ms t eb fc) with
    | none => (63, List.replicate 8 0, List.replicate 16 0, .none)
    | some r => (64 * r.t + r.d, r.mu, r.codes, { nx := r.inexact, of := r.saturated })

/-- Eight bits, the first the least significant. -/
def packBits : List Nat → Nat
  | [] => 0
  | b :: bs => b + 2 * packBits bs

/-- R46: Quantise4 of 96 FP32 encodings against the FP32 scale s. -/
def quantise4 (xs : List Nat) (s sel fc : Nat) : List Byte × FpFlags :=
  let vs := (List.range 96).map fun i => Fmt.f32.decode (xs.getD i 0)
  match Fmt.f32.decode s with
  | .nan _ => (nanBlock, .invalid)
  | .inf _ => (nanBlock, .invalid)
  | .fin sneg ms _ es =>
    if ms = 0 ∨ vs.any (fun v => v.isNan || v.isInf) then (nanBlock, .invalid)
    else
      let q : FVal → Int := fun v => match v with
        | .fin n m _ e => signedNum (n != sneg) (m * pow512 (e - es))
        | .nan _ => 0
        | .inf _ => 0
      let qs := vs.map q
      let top := qs.foldl (fun m z => max m z.natAbs) 0
      if top = 0 then (zeroBlock, .none)
      else
        let eb := clampInt (ceilLog2 top (ms * 2 ^ 512)) (-127) 127
        let groups := (List.range 6).map fun g => quantGroup ((qs.drop (16 * g)).take 16) ms sel eb fc
        let mus := groups.flatMap fun g => g.2.1
        let codes := groups.flatMap fun g => g.2.2.1
        let flags := groups.foldl (fun f g => f.or g.2.2.2) .none
        let byte := fun n => BitVec.ofNat 8 n
        ([byte fc, byte (eb + 127).toNat] ++ groups.map (fun g => byte g.1)
          ++ (List.range 6).map (fun k => byte (packBits ((mus.drop (8 * k)).take 8))) ++ [0, 0]
          ++ (List.range 48).map (fun k => byte (codes.getD (2 * k) 0 + 16 * codes.getD (2 * k + 1) 0)), flags)

/-! Dot-product summation (R44, R45). -/

def zipMul : List FVal → List FVal → List (FVal × FpFlags)
  | a :: as, b :: bs => mulExact a b :: zipMul as bs
  | _, _ => []

/-- Floor(p / 2^w) for a finite product with denominator 1. -/
def floorUnits (w : Int) : FVal → Int
  | .fin s n _ e => signedNum s (scaleNum n (e - w)) / (scaleDen 1 (e - w) : Int)
  | .nan _ => 0
  | .inf _ => 0

/-- The step sum s of R44, with its NV. -/
def dotSum (a b : List FVal) : FVal × FpFlags :=
  let ps := zipMul a b
  let fl := ps.foldl (fun f p => f.or p.2) .none
  let vs := ps.map Prod.fst
  let pos := vs.any fun v => decide (v = .inf false)
  let neg := vs.any fun v => decide (v = .inf true)
  if vs.any FVal.isNan then (.nan false, fl)
  else if pos && neg then (.nan false, fl.or .invalid)
  else if pos then (.inf false, fl)
  else if neg then (.inf true, fl)
  else
    let tops := vs.filterMap fun v => match v with
      | .fin _ n d e => if n = 0 then none else some (floorLog2 n d e)
      | .nan _ => none
      | .inf _ => none
    match tops with
    | [] => (.zero false, fl)
    | t :: ts =>
      let w := ts.foldl max t - 50
      let z := vs.foldl (fun acc v => acc + floorUnits w v) (0 : Int)
      (.fin (decide (z < 0)) z.natAbs 1 w, fl)

/-- R44: an accumulator meets a step sum: the last lines of DotStep. -/
def dotFinish (acc : Nat) (s : FVal) (fl : FpFlags) : Nat × FpFlags :=
  let x := Fmt.f32.decode acc
  let fl := fl.or { nv := x.isSnan }
  if x.isNan || s.isNan then (Fmt.f32.nanBits, fl)
  else match x, s with
    | .inf p, .inf q =>
      if p = q then (withSign .f32 p Fmt.f32.infBits, fl) else (Fmt.f32.nanBits, fl.or .invalid)
    | _, _ => roundPair ((addExact false x s).1, fl) .f32 .rne false

/-- R44: DotStep. -/
def dotStep (acc : Nat) (a b : List FVal) : Nat × FpFlags :=
  let sn : FpFlags := { nv := a.any FVal.isSnan || b.any FVal.isSnan }
  let (s, fl) := dotSum a b
  dotFinish acc s (fl.or sn)

/-- R260: DotStepZero. -/
def dotStepZero (acc : Nat) : Nat × FpFlags := dotFinish acc (.zero false) .none

/-- The integer an INT8 element holds. -/
def FVal.toIntVal : FVal → Int
  | .fin s n _ e => signedNum s (scaleNum n e)
  | .nan _ => 0
  | .inf _ => 0

/-- R45: both operands INT8. -/
def dotStepInt (acc : Nat) (a b : List FVal) : Nat :=
  wrapInt 32 ((acc : Int) + (List.zipWith (fun x y => x.toIntVal * y.toIntVal) a b).foldl (· + ·) 0)

/-! Stochastic rounding (R34 to R36). -/

/-- R34: LfsrNext. -/
def lfsrNext (l : W32) : W32 := if l.getLsbD 0 then (l >>> 1) ^^^ 0x80200003 else l >>> 1

/-- R35: the state of lane l after SRSEED is written. -/
def lfsrSeed (v : W32) (l : Nat) : W32 :=
  let x := v ^^^ BitVec.ofNat 32 (0x9E3779B9 * (l + 1))
  if x = 0 then 1 else x

end Sys2Proof.Machine
end

