-- ==== Sys2Proof/Machine/State.lean ====
section
/-! DEFINITION. The state of the machine as plain data: every thread slot, core, tile and hub part of one package,
its fabric interface with what it knows of its peers, the memories of the domain's devices and of the host. Fields
of the model's own (agenda, turn, fresh numbers, counters of free values) are marked as such. -/

namespace Sys2Proof.Machine

/-- R23: the 96 lanes of a vector. -/
abbrev Vec := List W32
/-- R212: the 96 bits of a mask. -/
abbrev Mask := BitVec 96

/-- R62, R175: what raised a trap, if it is an engine's deferred fault or a chain entry. -/
inductive Source where
  | none
  | engine (e : Eng)
  | chain (k : Nat)
  deriving DecidableEq, Repr

/-- R366, R368, R369: a trap with the values it writes to the trap registers. -/
structure Trap where
  code : Nat
  place : Nat := 0
  cause : Nat := 0
  level : Nat := 0
  deferred : Bool := false
  spec : Bool := false
  gen : Nat := 0
  hnd : Nat := 0
  arg0 : W64 := 0
  arg1 : W64 := 0
  source : Source := .none
  deriving DecidableEq, Repr

/-- R376: a queue entry holds a value or is poisoned with the trap its consumer raises. -/
inductive Entry (α : Type) where
  | val (v : α)
  | poison (t : Trap)
  deriving DecidableEq, Repr

/-- R92: the state of a handle register. -/
inductive HState where
  | empty | valid | revoked | faulted
  deriving DecidableEq, Repr

/-- R92: a handle register; permissions are coded [2] A, [1] W, [0] R. -/
structure Handle where
  state : HState := .empty
  origin : W64 := 0
  req : Nat := 0
  base : Nat := 0
  size : PageSize := .k64
  frame : Nat := 0
  host : Bool := false
  grant : Nat := 0
  asid : Nat := 0
  cause : Nat := 0
  level : Nat := 0
  deriving DecidableEq, Repr

/-- R71, R376: what a result in flight pushes. -/
inductive Result where
  | scalar (e : Entry W64)
  | scalars (first second : Entry W64)
  | vector (e : Entry Vec)
  deriving DecidableEq, Repr

/-- What a push does besides entering a queue: `xlat` writes its handle, or pushes the word of a handle as it then
stands (R94); the `join` and the `leave` of a cohort count for the lockstep rule from their push (R329, R330). -/
inductive Post where
  | none
  | handle (h : Fin 16) (v : Handle)
  | word (h : Fin 16)
  | joined (cohort : Nat)
  | left (cohort : Nat)
  deriving DecidableEq, Repr

/-- How the bytes of an answer become a result. -/
inductive Form where
  | load (size : LoadSize)
  | vector (mask : Mask)
  | old (bytes : Nat) (fadd : Bool)
  | barq (ticket : Nat)
  | walk (h : Fin 16) (va : W64) (req : Nat)
  | status
  deriving DecidableEq, Repr

/-- R71, R73: a result in flight: pushed at the end of vc `due`; `value` is absent while a late item has not
arrived; `parts` collects the lines of its answer. -/
structure Item where
  due : Nat
  issued : Nat
  rank : Nat
  tag : Nat := 0
  value : Option Result := none
  flags : FpFlags := .none
  post : Post := .none
  late : Bool := false
  notBefore : Nat := 0
  form : Form := .status
  need : Nat := 0
  parts : List (Nat × List Byte) := []
  bad : Option Trap := none
  mute : Bool := false
  deriving DecidableEq, Repr

/-- R170, R172: what a G operand captured at issue: its handle and offset, the translation, and the rights asked. -/
structure GCap where
  hnd : Nat
  off : W64
  va : Nat
  pa : Nat
  host : Bool
  asid : Nat
  base : Nat
  size : Nat
  perm : Nat
  cleared : Bool := false
  deriving DecidableEq, Repr

/-- R250, R257, R172: an engine word in its queue with its parameters and what it captured at issue; `took` says
that it has popped its tokens, `revoked` that a captured translation was cleared (R175). -/
structure QWord where
  instr : Instr
  params : List W64
  scrwin : W64
  wgtwin : W64
  accwin : W64
  caps : List GCap := []
  seq : Nat := 0
  took : Bool := false
  revoked : Bool := false
  deriving DecidableEq, Repr

/-- R176: the route of a copy word. -/
inductive Route where
  | net (p : PathSel)
  | circuit (ctx h gen : Nat)
  | auto (src dst : Nat)
  deriving DecidableEq, Repr

/-- A line of a copy word in progress: being read (under an access, or by the own engine port when the number is 0),
read, being written under an access. -/
inductive Line where
  | reading (id : Nat)
  | have (bytes : List Byte)
  | writing (id : Nat)
  deriving DecidableEq, Repr

/-- R111, R167: a chunk that has begun: the cc in which it did, and the number of the free value by which another device's tables
allow its reads; that of its writes follows. -/
structure ChunkStart where
  since : Nat := 0
  asked : Nat := 0
  deriving DecidableEq, Repr

/-- R169, R268: a word in progress. `live` says that its checks have passed since it started or resumed. Of a copy word:
`eff` is the segment of a nest that runs and `desc` the nest's descriptor; `lines` are in progress, `next` is the next
line to start of `total`, `prefixLen` the delivered prefix, all within segment `seg` of `segs`; `sent` says that a
revoked translation has been reported, `chunks` are the chunks under way by their number, and `waiting` says that a nest's
descriptor is still to be read. Of `msync`: `waiting` in the word's list, `sent` when it has acted, `limit` the limit of its wait as
read at its start. -/
structure Run where
  word : QWord
  eff : Option QWord := none
  desc : List Byte := []
  route : Route := .net .basic
  lines : List (Nat × Line) := []
  next : Nat := 0
  total : Nat := 0
  prefixLen : Nat := 0
  seg : Nat := 0
  segs : Nat := 1
  live : Bool := false
  waiting : Bool := false
  sent : Bool := false
  chunks : List (Nat × ChunkStart) := []
  limit : Option Nat := none
  deriving DecidableEq, Repr

/-- R227, R272: a deferred fault of an engine and whether it has been observed. -/
structure EFault where
  trap : Trap
  observed : Bool
  deriving DecidableEq, Repr

/-- What M and the copy channels have in common: queue, parameter stack (top first), word in progress, deferred
fault, words finished, last fault (R65, R66, R169, R228, R250, R266). While a fault halts a channel, `lost` lines of its word are
known to be dropped, bound for `lostDev` or for the host (R312, R315). -/
structure Engine where
  queue : List QWord := []
  stack : List W64 := []
  run : Option Run := none
  fault : Option EFault := none
  words : Nat := 0
  lastCode : Nat := 0
  lastCause : Nat := 0
  wptr : Nat := 0
  lastSeq : Nat := 0
  doneSeq : Nat := 0
  lost : Nat := 0
  lostDev : Nat := 0
  lostHost : Bool := false
  deriving DecidableEq, Repr

/-- R246: a row of an A plane; `zero` marks an SB4 block with FC 0x00 (R260). -/
structure Row where
  zero : Bool
  elems : List FVal
  deriving DecidableEq, Repr
structure Plane where
  type : MType
  rows : List Row
  deriving DecidableEq, Repr

/-- R246, R267 to R269: M's own state beside its queue. -/
structure MState where
  active : Plane
  shadow : Plane
  fresh : Bool := false
  flags : FpFlags := .none
  act : Bool := false
  desc : Nat := 0
  index : List Nat := [0, 0, 0, 0, 0, 0]
  prevA : Option Int := none
  popped : Bool := false
  deriving DecidableEq, Repr

/-- R282: the state of a chain entry; `marked` waits to be issued again after a restore (R288). -/
inductive CState where
  | pending | faulted | marked
  deriving DecidableEq, Repr

/-- R280, R282, R284: a chain entry in use: its descriptor's address and fields, the window's generation, the order of
its `chain` among the thread's, the privilege and the space of its `chain`, and the status word that it stopped with. Its
packet is an access of its own. -/
structure Chain where
  state : CState
  addr : Nat
  dest : Nat
  stat : Nat
  flen : Nat
  gen : Nat
  order : Nat
  sys : Bool := false
  asid : Nat := 0
  word : W64 := 0
  deriving DecidableEq, Repr

/-- What a paused bundle waits for. -/
inductive WaitKind where
  | fe | bar | shape | fence
  deriving DecidableEq, Repr
/-- A pause that carries a deadline, an answer, or both (R199, R201, R202, R297, R314, R363); `obj` is the object in the own
scratchpad and the ticket that a `barwait` watches. -/
structure Wait where
  kind : WaitKind
  deadline : Option Nat
  since : Nat
  obj : Option (Nat × W64) := none
  answered : Bool := false
  value : W64 := 0
  bad : Option Trap := none
  expired : Bool := false
  deriving DecidableEq, Repr

/-- R74: a gather or scatter whose further passes serve the lanes left (lane, address, data); `last` is the cc of its
latest pass. -/
structure Gather where
  tag : Nat
  store : Bool
  left : List (Nat × Nat × W32)
  got : List (Nat × W32)
  last : Nat := 0
  deriving DecidableEq, Repr

/-- R373: what trap entry saves. -/
structure Saved where
  t : Nat
  q : List (Entry W64)
  y : List (Entry Vec)
  pending : List Item
  deriving DecidableEq, Repr

/-- R336: a node by id and generation. -/
structure NodeRef where
  id : Nat
  gen : Nat
  deriving DecidableEq, Repr

/-- R328: membership of a cohort; `counts` says that the member counts toward L (R329), `founder` that it created the cohort
and keeps its clock (R330). -/
structure Membership where
  id : Nat
  rank : Nat
  counts : Bool
  founder : Bool := false
  deriving DecidableEq, Repr

/-- R225, R254: the eight token counts of a slot. -/
structure Tokens where
  coreC0 : Nat := 0
  c0Core : Nat := 0
  coreC1 : Nat := 0
  c1Core : Nat := 0
  c0M : Nat := 0
  mC0 : Nat := 0
  mC1 : Nat := 0
  c1M : Nat := 0
  deriving DecidableEq, Repr

/-- The system registers of a thread that hold what was written (R371); the others are read from the state they
name. -/
structure Sys where
  fpc : W64 := 0
  srseed : W64 := 0
  asidreg : W64 := 0
  trapvec : W64 := 0
  trapinfo : W64 := 0
  traparg0 : W64 := 0
  traparg1 : W64 := 0
  trappc : W64 := 0
  wdlimit : W64 := 0
  scrwin : W64 := 0
  wgtwin : W64 := 0
  felimit : W64 := 0x01000000
  accwin : W64 := 0
  lnchlim : W64 := 0x00100000
  lost : Nat := 0
  watch : Bool := false
  alert : Bool := false
  classen : Nat := 0x3FFE
  landwin : W64 := 0
  landed : Nat := 0
  circmin : W64 := 0x4000
  fencestat : W64 := 0
  deriving DecidableEq, Repr

/-- R209, R212: queues and named registers. -/
structure Regs where
  q : List (Entry W64)
  y : List (Entry Vec)
  n : List W64
  v : List Vec
  m : List Mask
  deriving DecidableEq, Repr

/-- R223, R322, R377: what a thread does: runs, has been killed and drains, or has issued its `halt` and waits for the
engine words and scratchpad passes of that bundle. -/
inductive Life where
  | running | killed | halted
  deriving DecidableEq, Repr

/-- R321: a thread in its slot. `stopping` says that it is being pre-empted (R379). `leaving` holds memberships that a
`leave` has ended and whose push has not come (R329); `pushed` counts the tokens pushed in cc `pushedAt`, which no pop
takes yet (R255); `wait` is the pause of the A slot's operation, `sWait` that of the S slot's; `names` gives for the node
handle words that a thread moved from another device holds those of the nodes here (R384). -/
structure Thread where
  node : NodeRef
  bx : Nat
  bY : Nat
  line : Nat
  pc : W64
  system : Bool := false
  vc : Nat := 0
  hvc : Nat := 0
  regs : Regs
  flight : List Item := []
  handles : List Handle
  sys : Sys
  lfsr : List W32
  tokens : Tokens := {}
  pushed : Tokens := {}
  pushedAt : Nat := 0
  me : Engine := {}
  c0 : Engine := {}
  c1 : Engine := {}
  mx : MState
  chains : List (Nat × Chain) := []
  windowGen : Nat := 0
  faultQueue : List RecordWords := []
  watch : Nat := 0
  clock : Nat := 0
  cohort : Option Membership := none
  leaving : List Membership := []
  names : List (W64 × W64) := []
  wait : Option Wait := none
  sWait : Option Wait := none
  trapping : Option Trap := none
  saved : Option Saved := none
  boundary : List Trap := []
  dropped : Nat := 0
  dropDev : Option Nat := none
  droppedHost : Nat := 0
  spec : Bool := false
  deferredTrap : Option Trap := none
  life : Life := .running
  hold : Bool := false
  fetchFault : Option (Nat × Nat) := none
  readySince : Nat := 0
  issued : Nat := 0
  dispatched : Nat := 0
  gather : Option Gather := none
  noIssueBefore : Nat := 0
  stopping : Bool := false
  deriving DecidableEq, Repr

/-- R322, R190, R252: the issue unit of a core, its shared array, and the engine ports of its banks: `bankLast` holds for
a bank 32 × (cc + 1) plus the requester of its last grant, `served` the lines already granted to a requester whose access
takes several. -/
structure Core where
  current : Nat := 0
  since : Nat := 0
  switchEnd : Nat := 0
  lastIssue : Option Nat := none
  expired : Bool := false
  arrayLast : Nat := 0
  bankLast : List (Nat × Nat) := []
  served : List (Nat × Nat) := []
  scrAsid : List (Nat × Nat) := []
  wgtAsid : List (Nat × Nat) := []
  deriving DecidableEq, Repr

/-- R90: a TLB entry: a leaf tagged with ASID and page size. -/
structure Tlb where
  asid : Nat
  base : Nat
  size : PageSize
  leaf : W64
  level : Nat
  deriving DecidableEq, Repr

/-- What an access does at its target (R204, R200, R273, R293, R361), or the packet of a chain (R283). -/
inductive AccOp where
  | read (n : Nat)
  | write (data : List (Option Byte))
  | amo (o : AmoOp) (w : AmoWidth) (v : W64)
  | cas (w : AmoWidth) (e n : W64)
  | cas2 (e n : Nat)
  | fe (k : FeKind) (data : W64)
  | bar (k : BarKind) (v : W64) (sub : Nat)
  | shapepub (node : W64) (extent : Nat)
  | chain (p : ChainPacket)
  deriving DecidableEq, Repr

/-- Who waits for the answer of an access. -/
inductive Owner where
  | thread (slot : Nat)
  | engine (slot : Nat) (e : Eng) (line : Nat)
  | chain (slot k : Nat)
  | host
  | peer (src frame : Nat)
  | gone
  deriving DecidableEq, Repr

/-- R116, R120, R136: where an access stands: in the net of its package on the way to its target, waiting at its
target for its condition, performed and on the way back, or in the fabric; `waiting` in a store buffer to be
injected (R120, R205); `out` at the interface of a part to be injected as a request or a response (R119); `absorbed`
into another request by a router (R125). `link` says that it is on the wire into the input. A response without an answer
is a bounce (R121). Port 0 is a router's local input; ports 4 and 5 are the inputs of its links from the hub and
from its optical engine, ports 6 and 7 the inputs of the hub and of the engine (R115). -/
inductive Place where
  | waiting
  | out (x y port : Nat) (resp : Bool)
  | request (x y port : Nat) (link : Bool)
  | target
  | response (x y port : Nat) (link : Bool)
  | back
  | fabric
  | absorbed
  deriving DecidableEq, Repr

/-- The answer an access brings back (R112, R120, R143, R283, R295, R376). -/
inductive Answer where
  | data (b : List Byte) (flags : FpFlags)
  | ack
  | denied (table : W64)
  | unreachable
  | uncorrectable
  | stale (cause : Nat)
  | timedOut
  | launchFault (cause extent : Nat)
  | chained (status : W64) (b : List Byte)
  deriving DecidableEq, Repr

/-- One access under way: a line access, an atomic, a remote full/empty form, a global barrier operation or a
`shapepub` (R103, R120, R205). `tag` and `part` say which result in flight awaits it; `merged` holds the requests it
absorbed in routers (R125, R126), with the operand each was merged under; `ownBytes` the bytes of the block's own
buffered stores that a load of a speculative block returns (R316); `denied` the refusal by the tables as they stood when
it was sent (R113); `forward` the home slice whose forward entry it uses (R121). For an access of a peer, `buffered`
says that an ORD frame brought it. `void` says that the circuit that carried it failed, so that it performs nothing
(R161); `watching` that its `barwait` has found its object unchanged and is evaluated at each change (R297). For a chain's
packet `tag` 1 says that its address has been translated. `order` is its place in the queue where it stands (R116), and
`keeps` the owner that no longer waits for its response, with the node of its block: the response still takes that owner's
slot (R120), and the node is not over before the access is (R347). -/
structure Access where
  owner : Owner
  master : Nat
  pa : Nat
  host : Bool := false
  op : AccOp
  place : Place
  tag : Nat := 0
  part : Nat := 0
  buffered : Bool := false
  asid : Nat := 0
  va : W64 := 0
  device : Nat
  src : Nat × Nat
  dst : Nat × Nat
  performed : Bool := false
  answer : Option Answer := none
  merged : List (Nat × W64 × Nat × Nat) := []
  frame : Nat := 0
  clock : Nat := 0
  path : PathSel := .basic
  entered : Nat := 0
  forward : Option Nat := none
  denied : Option Nat := none
  ownBytes : List (Option Byte) := []
  void : Bool := false
  watching : Bool := false
  order : Nat := 0
  backSeq : Nat := 0
  keeps : Option (Owner × NodeRef) := none
  deriving DecidableEq, Repr

/-- R201: a waiter of a full/empty word: a local thread, a remote access, or an M word. -/
inductive Waiter where
  | thread (slot : Nat) (k : FeKind) (data : W64) (deadline : Option Nat)
  | remote (id : Nat) (deadline : Option Nat)
  | msync (slot : Nat) (take : Bool) (deadline : Option Nat)
  deriving DecidableEq, Repr

/-- R89, R94: a hardware walk under way: for a fetch or for an `xlat` result. -/
structure Walk where
  slot : Nat
  tag : Nat
  asid : Nat
  va : W64
  fetch : Bool
  tile : Nat
  deriving DecidableEq, Repr

/-- R122: a flit on a link: its sequence number, of which the link carries the low 8 bits, and the access whose packet it
belongs to; `last` closes it. -/
structure Flit where
  seq : Nat
  id : Nat
  resp : Bool
  head : Bool
  last : Bool
  deriving DecidableEq, Repr

/-- R118, R119, R122, R123: one direction of one link, both ends. `lastReq` and `lastResp` are one more than the number
of the last header that entered a slot; a credit-sync flit on its way holds FREE and that number. `sentResp` says that
the packet sent last was a response. -/
structure Link where
  nextSeq : Nat := 0
  expect : Nat := 0
  wire : List Flit := []
  unacked : List Flit := []
  fails : Nat := 0
  held : Bool := false
  replay : Bool := false
  credReq : Nat := 8
  credResp : Nat := 8
  owedReq : Nat := 0
  owedResp : Nat := 0
  lastReq : Nat := 0
  lastResp : Nat := 0
  syncReq : Option (Nat × Nat) := none
  syncResp : Option (Nat × Nat) := none
  syncReqAt : Nat := 0
  syncRespAt : Nat := 0
  sentResp : Bool := false
  deriving DecidableEq, Repr

/-- R136 to R140: a frame this device has sent and not yet seen acknowledged; `hop` is the device its path goes to first,
`held` in the peer's reorder buffer or as a waiting flag; `inFlight` says that a copy of it is under way. `pair` is the
evicted device whose sequence numbers it goes on with (R383), `who` the dispatch number of the thread it serves (R146),
`sel` the path that its copy names (R135). -/
structure Frame where
  peer : Nat
  cls : FrameClass
  seq : Nat
  flagSeq : Nat
  firstPath : Nat
  path : Nat
  hop : Nat
  carried : List Nat
  access : Nat
  laneNo : Nat := 0
  entered : Nat := 0
  sentAt : Nat := 0
  atRelay : Bool := false
  inFlight : Bool := true
  held : Bool := false
  applied : Bool := false
  pair : Option Nat := none
  who : Option Nat := none
  sel : PathSel := .basic
  deriving DecidableEq, Repr

/-- R137, R183: a frame from a peer held in its reorder buffer or as a waiting flag. -/
structure HeldFrame where
  src : Nat
  id : Nat
  body : FrameBody
  deriving DecidableEq, Repr

/-- R138: a frame of one device for another that this device relays, held in the buffer of the lane it came by until it
goes on; `id` is its number at its source, `deadline` the cc at which its age ends it (R140). -/
structure Relayed where
  src : Nat
  dst : Nat
  id : Nat
  lane : Nat
  deadline : Nat
  deriving DecidableEq, Repr

/-- R137 to R143, R183: what this device keeps about one peer; `there` fields are the peer's counts of our frames, and a
pair's first FLAG frame has number 1. `ordBack` is the number that the peer's next ORD frame to this device bears, as far
as its frames show (R137). `lost` says that it was declared lost, `absent` that RLYTAB has been filled without it since
(R383, R385). -/
structure Peer where
  member : Bool := false
  tagOk : Bool := true
  reachable : Bool := false
  lastHeard : Nat := 0
  silent : Bool := false
  evicting : Bool := false
  ordSend : Nat := 0
  ordThere : Nat := 0
  ordHere : Nat := 0
  ordBack : Nat := 0
  ordCredits : Nat := 32
  bulkCredits : Nat := 32
  sent : List Nat := [0, 0, 0, 0]
  appliedThere : List Nat := [0, 0, 0, 0]
  appliedHere : List Nat := [0, 0, 0, 0]
  flagSend : Nat := 1
  flagThere : Nat := 1
  flagHere : Nat := 1
  idsHere : List Nat := []
  keepaliveAt : Nat := 0
  lostAt : Option Nat := none
  lost : Bool := false
  absent : Bool := false
  deriving DecidableEq, Repr

/-- R131 to R133, R140: a LANE register and what stands behind it. -/
structure Lane where
  pin : Bool := false
  pcode : Nat := 1
  dis : Bool := false
  tx : Nat := 0
  rx : Nat := 0
  code : Nat := 3
  txCode : Nat := 3
  uncorr : Nat := 0
  w : W32 := 0
  good : Nat := 0
  pending : Option Nat := none
  requestedAt : Nat := 0
  decided : Option Nat := none
  marker : Option Nat := none
  frameNo : Nat := 0
  replay : List (Nat × Nat) := []
  deriving DecidableEq, Repr

/-- R152: the state of a circuit handle. -/
inductive CircState where
  | idle | settling | live | down | repairing
  deriving DecidableEq, Repr

/-- R150, R152, R155, R168: a circuit handle; `tearFrom` is the step a tear is pending from, `draining` says it has
performed; `placed` says that it holds the ports its fields name; `repairable` that its failure found the policy basic
(R159). -/
structure CHandle where
  state : CircState := .idle
  gen : Nat := 0
  expert : Bool := false
  src : Nat := 0
  sink : Nat := 0
  cause : Nat := 0
  retained : Bool := false
  sent : Nat := 0
  landed : Nat := 0
  since : Nat := 0
  tearFrom : Option Nat := none
  draining : Bool := false
  placed : Bool := false
  repairable : Bool := false
  deriving DecidableEq, Repr

/-- R67: circuit words. -/
inductive CWord where
  | est (h src sink : Nat)
  | hold (h : Nat)
  | tear (h : Nat)
  | step (t : Nat)
  | rpol (h : Nat) (expert : Bool)
  | rpt (n i : Nat)
  | jmpc (t : Nat)
  | loopc (n t : Nat)
  | waitc (h cond : Nat)
  | endc
  deriving DecidableEq, Repr

/-- R153, R154: what the sequencer does next for a context. -/
inductive CMode where
  | atStep | repeating (k n i : Nat) | waiting | group | ended
  deriving DecidableEq, Repr

/-- R151, R153: a context of the fabric sequencer. Its next word performs in no cc before `notBefore`; `ceased` says that
its cohort is no more, so that the id may name another (R328). -/
structure Ctx where
  cohort : Nat
  node : NodeRef
  prog : List CWord
  idx : Nat := 0
  base : Nat := 0
  cur : Nat := 0
  mode : CMode := .group
  counters : List (Nat × Nat) := []
  handles : List (Nat × CHandle) := []
  pendingEst : List Nat := []
  notBefore : Nat := 0
  ceased : Bool := false
  deriving DecidableEq, Repr

/-- R113, R164, R167: a vector on its way over a circuit, with the cc in which it was accepted and the access tables as they stood
then. -/
structure Flying where
  slot : Nat
  who : Nat
  ctx : Nat
  h : Nat
  gen : Nat
  data : Vec
  tables : List (Nat × BitVec 128) := []
  since : Nat := 0
  node : NodeRef := ⟨8192, 0⟩
  deriving DecidableEq, Repr

/-- R164: the transmit side of a port: its buffer, oldest first, and when it last accepted a vector. -/
structure Port where
  buf : List Flying := []
  accepted : Option Nat := none
  deriving DecidableEq, Repr

/-- R162, R163: an automatic circuit between two tiles. -/
structure Auto where
  src : Nat
  dst : Nat
  srcTile : Nat
  dstTile : Nat
  since : Nat
  used : Nat
  deriving DecidableEq, Repr

/-- R335: a node descriptor. -/
structure Desc where
  entry : W64
  gx : Nat
  gy : Nat
  prio : Nat
  lock : Bool
  shape : Bool
  policy : Nat
  circ : Bool
  strict : Bool
  slots : Nat
  pred : Nat
  scratch : Nat
  acccols : Nat
  wdata : Nat
  whdr : Nat
  sig : Nat
  floor : Nat
  ceil : Nat
  pin : Nat
  perblk : Nat
  pool : W64
  cprog : W64
  cplen : Nat
  args : List W64
  succ : List (Nat × Nat × Bool)
  oper : List (W64 × Int)
  comp : W64
  deriving DecidableEq, Repr

/-- R333, R341, R347, R350: a pending node. `resolvedAt` is the cc of its resolution (R355), `fault` is the CAUSE of its first fault, `faultAt` its cc; `stop` says that no
more blocks of it run (R349, R394); `redo` holds the squashed blocks to dispatch again. -/
structure Node where
  gen : Nat
  asid : Nat
  desc : Desc
  args : List W64
  count : Nat
  launcher : Option (Nat × Nat) := none
  command : Option Nat := none
  ready : Bool := false
  readyAt : Nat := 0
  next : Nat := 0
  done : Nat := 0
  placedOnce : Bool := false
  predicted : Nat := 0
  final : Option Nat := none
  resolvedAt : Nat := 0
  fault : Option Nat := none
  faultAt : Nat := 0
  stop : Bool := false
  poolBase : Nat := 0
  poolExt : Nat := 0
  tail : Option (Nat × Nat × Nat) := none
  redo : List Nat := []
  deriving DecidableEq, Repr

/-- R344: a reservation. -/
structure Reservation where
  node : Nat
  places : List Placement
  deriving DecidableEq, Repr

/-- R328: a cohort. -/
structure Cohort where
  lock : Bool
  asid : Nat
  members : List (Nat × Nat)
  deriving DecidableEq, Repr

/-- R351: an entry of cicada, the most recent extent first. -/
structure Cicada where
  asid : Nat
  sig : Nat
  last : List Nat
  used : Nat
  deriving DecidableEq, Repr

/-- R354, R304: a speculative line: which bytes a block has written to one 64-byte line, and its clock then. -/
structure SpecLine where
  slot : Nat
  node : NodeRef
  line : Nat
  pa : Nat
  va : Nat
  asid : Nat
  bytes : List (Option Byte)
  clock : Nat := 0
  deriving DecidableEq, Repr

/-- R318, R355: a speculative block that has halted and freed its slot keeps its lines until it commits, and its window stays
closed. -/
structure Parked where
  node : NodeRef
  line : Nat
  slot : Nat
  scrwin : W64
  deriving DecidableEq, Repr

/-- R329, R339, R363: a request of a thread to the hub that awaits its answer; a launch keeps LNCHLIM (R340). -/
inductive HubAsk where
  | launch (desc args : W64) (wait : Bool) (limit : Nat)
  | join (a : W64) (new lock : Bool)
  | leave (a : W64)
  | query (word : W64)
  deriving DecidableEq, Repr
/-- R329, R339: `kept` is what a `launch.w` that waits for an entry has read, its descriptor and arguments, and `deadline` when
its wait ends; `asked` is the cc in which the request was made. -/
structure HubReq where
  slot : Nat
  tag : Nat
  who : Nat
  ask : HubAsk
  asid : Nat
  clock : Nat
  sys : Bool := false
  kept : Option (Desc × List W64) := none
  deadline : Option Nat := none
  asked : Nat := 0
  deriving DecidableEq, Repr

/-- R380: a saved context: its threads with the contents of their windows, and their program. -/
structure SavedThread where
  slot : Nat
  thread : Thread
  scratch : List Byte
  fullBits : List Nat
  weights : List Byte
  acc : List (Nat × Nat)
  reissue : List (Nat × Access)
  walks : List Walk
  asks : List HubReq
  deriving DecidableEq, Repr
structure Context where
  threads : List SavedThread
  program : Option Ctx
  shootdown : Nat
  device : Nat
  deriving DecidableEq, Repr

/-- R383, R384: what the hub of an evicted device sends to the device that takes its work: its saved contexts, pending nodes
and cohorts, its ready lists, how far its own numbers have gone, and the number of the next ORD frame of each source. -/
structure MovedWork where
  contexts : List Context := []
  nodes : List (Nat × Node) := []
  lists : List (List Nat) := []
  cohorts : List (Nat × Cohort) := []
  fresh : Nat := 0
  ordHere : List (Nat × Nat) := []
  deriving DecidableEq, Repr, Inhabited

/-- R391 to R394: a command consumed and not completed. `nodes` are those it created or names, `left` counts the ones not
completed, `covered` the accesses a shootdown waits for. -/
structure Command where
  slot : Nat
  bytes : List Byte
  started : Bool := false
  finished : Bool := false
  status : Nat := 0
  cause : Nat := 0
  nodes : List NodeRef := []
  firstFault : Option (Nat × Nat × Nat) := none
  left : Nat := 0
  covered : List Nat := []
  deriving DecidableEq, Repr

/-- R98, R102, R107: an invalidation or harvest whose bundle is held until it completes. -/
structure Inval where
  slot : Nat
  asid : Nat
  base : Nat
  size : Nat
  covered : List Nat
  harvest : Bool
  deriving DecidableEq, Repr

/-- R106: a migration in progress. -/
structure Migration where
  asid : Nat
  va : Nat
  leafPa : Nat
  src : Nat
  dst : Nat
  moved : Nat
  deriving DecidableEq, Repr

/-- R383, R386: a redirect of ranges of a device to another. That of an eviction carries the pair's sequence numbers: the
next one for frames of this device, the one the destination waits for, and, on the destination, those of each source. -/
structure Redirect where
  dev : Nat
  dest : Nat
  ranges : List MoveRange
  carry : Bool := false
  ordSend : Nat := 0
  ordThere : Nat := 0
  ordHere : List (Nat × Nat) := []
  deriving DecidableEq, Repr

/-- R382, R383: a CTRL notice of an eviction to a device: the evicted device, its neighbour, and, once the move is done, the
ranges. -/
structure EvictNotice where
  target : Nat
  dev : Nat
  dest : Nat
  done : Bool
  ranges : List MoveRange
  deriving DecidableEq, Repr

/-- R378, R382, R400: the service the package gives. -/
inductive Service where
  | running | starting (warm keep : Bool) | outOfService | unpowered
  deriving DecidableEq, Repr

/-- R398: the management status of a start that failed. -/
inductive StartFault where
  | none | badFw | badCfg
  deriving DecidableEq, Repr

/-- R398: the configuration store, whether its signature verifies, the firmware version it asks for, and the firmware
image beside it in flash. -/
structure CfgStore where
  device : Nat
  members : List Nat
  tag : Nat
  tvec : W64
  signed : Bool := true
  minVersion : Nat := 0
  fwSigned : Bool := true
  fwVersion : Nat := 0
  repairMaps : List Byte := []
  laneTraining : List Byte := []
  hbmTraining : List Byte := []
  deriving DecidableEq, Repr

/-- R104: the counter word of a granule. -/
structure Granule where
  loc : Nat := 0
  pkg : Nat := 0
  peer : Nat := 0
  g : Bool := false
  lastTile : Nat := 0
  lastDev : Nat := 0
  deriving DecidableEq, Repr

/-- R104, R207, R208, R304: the directory entry of a line. -/
structure Dir where
  wtime : Nat := 0
  lease : Nat := 0
  owner : Option Nat := none
  deriving DecidableEq, Repr

/-- R112, R145, R348, R377: entries of the firmware log. -/
inductive LogEntry where
  | record (w : RecordWords)
  | kill (slot : Nat) (info arg0 arg1 : W64)
  | completionUnwritten (node : Nat)
  | corrected
  deriving DecidableEq, Repr

/-- What the schedule says happens next (log entry 1): an event, the issue of a core, the end of a cc. -/
inductive Happening where
  | event (i : Instr)
  | issue (core : Nat)
  | tick
  | hostWrite (addr : Nat) (data : List Byte)
  deriving DecidableEq, Repr

/-- The whole machine. `departed` holds, for the cc that runs, the members that ceased to count in it: a cohort and the vc of the
bundle that each would have issued when the cc began (R331). -/
structure State where
  cc : Nat := 0
  threads : List (Nat × Thread) := []
  cores : List (Nat × Core) := []
  mem : Memory := []
  hostMem : Memory := []
  full : List Nat := []
  acc : List (Nat × Nat) := []
  accAsid : List (Nat × List Nat) := []
  waiters : List (Nat × List Waiter) := []
  woken : List (Nat × Nat) := []
  tlb1 : List (Nat × List Tlb) := []
  tlb2 : List (Nat × List Tlb) := []
  walks : List Walk := []
  l1 : List (Nat × List (Nat × Nat)) := []
  dir : List (Nat × Dir) := []
  granules : List (Nat × Granule) := []
  tables : List (Nat × BitVec 128) := []
  accesses : List (Nat × Access) := []
  links : List (Nat × Link) := []
  turns : List Nat := []
  eccBad : List Nat := []
  accBad : List (Nat × Nat) := []
  eccSoft : List Nat := []
  corrected : Nat := 0
  migrations : List Migration := []
  invals : List Inval := []
  shootdown : Nat := 0
  asidtab : W64 := 0
  migpool : List (Nat × W64) := []
  -- the fabric
  frames : List (Nat × Frame) := []
  held : List HeldFrame := []
  relayed : List (Nat × Relayed) := []
  peers : List (Nat × Peer) := []
  lanes : List (Nat × Lane) := []
  combsFailed : List Nat := []
  rlytab : List (Nat × W64) := []
  secondDown : List Nat := []
  notices : List (Nat × RecordWords) := []
  heldNotices : List (Nat × RecordWords) := []
  dommap : List Nat := []
  domtag : Nat := 0
  seq : Nat := 0
  log : List LogEntry := []
  -- circuits
  ctxs : List (Nat × Ctx) := []
  autos : List Auto := []
  ports : List (Nat × Port) := []
  claims : List (Nat × Nat) := []
  -- the hub
  nodes : List (Nat × Node) := []
  gens : List (Nat × Nat) := []
  readyLists : List (List Nat) := [[], [], [], []]
  reservation : Option Reservation := none
  cohorts : List (Nat × Cohort) := []
  departed : List (Nat × Nat) := []
  cicada : List Cicada := []
  specLines : List SpecLine := []
  parked : List Parked := []
  contexts : List (Nat × Context) := []
  hubReqs : List HubReq := []
  -- the host link
  cmdring : W64 := 0x400
  ringIndex : Nat := 0
  ringPass : Nat := 0
  consumed : Nat := 0
  cmdBuffer : List Byte := []
  mirror : Memory := []
  commands : List (Nat × Command) := []
  msix : List Nat := []
  linkUp : Bool := true
  linkLostAt : Option Nat := none
  tvecdef : W64 := Config.storedTvec
  -- the package
  service : Service := .running
  evstate : Nat := 0
  evictTo : Nat := 0
  evictRanges : List MoveRange := []
  redirects : List Redirect := []
  peerEvicts : List (Nat × Nat) := []
  evictSent : List EvictNotice := []
  throttled : Bool := false
  startFault : StartFault := .none
  mismatchAt : Option Nat := none
  boots : Nat := 1
  unlatch : Nat := 0
  lastDev : Nat := Config.deviceId
  cfg : CfgStore := { device := Config.deviceId, members := Config.storedMembers, tag := Config.storedTag, tvec := Config.storedTvec }
  -- the model's own
  hostAnswers : List (List Byte) := []
  busAnswer : List Byte := []
  agenda : List Happening := []
  acted : Nat := 0
  turn : Nat := 0
  fresh : Nat := 1
  freeCount : Nat := 0
  deriving DecidableEq, Repr

/-- Why the machine stops with a fault. -/
inductive Fault where
  /-- Raised by `exec` of an operation of a bundle when no thread holds the slot whose turn it is: a bundle can then
  not be presented. Safe: the hardware issues nothing there, and `step` never asks for it. -/
  | noThread
  deriving DecidableEq, Repr

/-- Why the model gives an instruction no meaning. -/
inductive Refusal where
  /-- Raised by an arm of `exec` that has no meaning yet. Safe: nothing is claimed of it. -/
  | notModelled (mnemonic : String)
  deriving DecidableEq, Repr

/-- R400, R401: the machine right after a cold start: no thread is resident, every memory is zero, every table holds
its cold-start entry, every register its reset value; the values no rule states are named in the assumption log. -/
def State.reset : State :=
  { dommap := Config.storedMembers, domtag := Config.storedTag, lanes := [(32 * (Config.deviceId / 32), { tx := 3, rx := 3 })] }

end Sys2Proof.Machine
end

