-- ==== Sys2Proof/Machine/Flags.lean ====
section
/-! DEFINITION. FPC: its fields, the mode in force, and the flags a push ORs into it (R28, R31 to R33). -/

namespace Sys2Proof.Machine

/-- R28: the mode a two-bit code names. -/
def modeOfBits (m : Nat) : RMode := if m = 0 then .rne else if m = 1 then .rtz else if m = 2 then .rdn else .rup
/-- R32: FPC.RM. -/
def fpcMode (fpc : W64) : RMode := modeOfBits (bits fpc.toNat 0 2)
/-- R32: FPC.OVF8. -/
def fpcOvf8 (fpc : W64) : Bool := flag fpc.toNat 2
/-- R28: the mode in force for an instruction with a rounding override. -/
def modeInForce (fpc : W64) (r : Rnd) : RMode :=
  match r with
  | .fpc => fpcMode fpc
  | .rne => .rne
  | .rtz => .rtz
  | .reserved => .rne
/-- R32: the flags as bits of FPC. -/
def flagBits (f : FpFlags) : Nat := 4096 * bit f.nv + 2048 * bit f.dz + 1024 * bit f.of + 512 * bit f.uf + 256 * bit f.nx
/-- R33: flags are ORed into FPC. -/
def orFlags (fpc : W64) (f : FpFlags) : W64 := fpc ||| BitVec.ofNat 64 (flagBits f)
/-- R32: the writable bits of FPC. -/
def fpcWritable (v : W64) : W64 := v &&& 0x1F07


end Sys2Proof.Machine
end

