-- ==== Sys2Proof/Machine/Ops.lean ====
section
/-! DEFINITION. The named operations over the state that every meaning shares: threads and their queues, results in
flight, addresses and access tables, memory, traps and the return from them, the end of a thread, and the issue of a
bundle. -/

namespace Sys2Proof.Machine

/-! Threads. -/

def getThread (s : State) (k : Nat) : Option Thread := look s.threads k
def setThread (s : State) (k : Nat) (t : Thread) : State := { s with threads := put s.threads k t }
def modThread (k : Nat) (f : Thread → Thread) (s : State) : State :=
  match look s.threads k with
  | some t => { s with threads := put s.threads k (f t) }
  | none => s
def getCore (s : State) (c : Nat) : Core := (look s.cores c).getD {}
def modCore (c : Nat) (f : Core → Core) (s : State) : State := { s with cores := put s.cores c (f (getCore s c)) }

/-- R13: the core of a slot, the tile of a core. -/
def coreOf (slot : Nat) : Nat := slot / 4
def tileOf (slot : Nat) : Nat := slot / 48

/-- R327, R373: the clock that counts the latencies of a thread: its virtual clock, or the handler's own. -/
def clockOf (t : Thread) : Nat := if t.system then t.hvc else t.vc

/-- R304: a thread's clock advances with an access to a scratchpad and with a wait that ends (log entry 90). -/
def tickClock (k : Nat) (s : State) : State := modThread k (fun t => { t with clock := t.clock + 1 }) s

def getEngine (t : Thread) : Eng → Engine
  | .m => t.me
  | .c0 => t.c0
  | .c1 => t.c1
def setEngine (t : Thread) (e : Eng) (x : Engine) : Thread :=
  match e with
  | .m => { t with me := x }
  | .c0 => { t with c0 := x }
  | .c1 => { t with c1 := x }
def modEngine (k : Nat) (e : Eng) (f : Engine → Engine) (s : State) : State :=
  modThread k (fun t => setEngine t e (f (getEngine t e))) s


/-! Queues and results in flight (R71, R209 to R211). -/

/-- R209: a push makes the value entry 0 and loses entry 15. -/
def pushQueue {α : Type} (q : List α) (e : α) : List α := (e :: q).take 16
def pushResult (r : Regs) : Result → Regs
  | .scalar e => { r with q := pushQueue r.q e }
  | .scalars a b => { r with q := pushQueue (pushQueue r.q a) b }
  | .vector e => { r with y := pushQueue r.y e }

/-- R71: a result with latency `lat` issued by t now. -/
def itemOf (t : Thread) (rank lat : Nat) (r : Result) (f : FpFlags) : Item :=
  { due := clockOf t + lat - 1, issued := clockOf t, rank := rank, value := some r, flags := f }
def addItem (k : Nat) (it : Item) (s : State) : State := modThread k (fun t => { t with flight := t.flight ++ [it] }) s

/-- R211: the order in which results due in one vc enter: A, then S, then V slot; within a slot the earlier issue. -/
def itemBefore (a b : Item) : Bool :=
  decide (a.due < b.due) || (decide (a.due = b.due) && (decide (a.rank < b.rank) || (decide (a.rank = b.rank) && decide (a.issued ≤ b.issued))))
def insertItem (x : Item) : List Item → List Item
  | [] => [x]
  | y :: ys => if itemBefore x y then x :: y :: ys else y :: insertItem x ys
def sortItems : List Item → List Item
  | [] => []
  | x :: xs => insertItem x (sortItems xs)

/-- R71: results whose push lies before the clock. -/
def dueItems (t : Thread) : List Item := t.flight.filter fun i => i.mute || decide (i.due < clockOf t)
def restItems (t : Thread) : List Item := t.flight.filter fun i => !i.mute && decide (clockOf t ≤ i.due)
def arrived (is : List Item) : Bool := is.all fun i => i.value.isSome

/-- R95: the handle word. -/
def handleWord (h : Handle) : W64 :=
  let st : Nat := match h.state with | .empty => 0 | .valid => 1 | .revoked => 2 | .faulted => 3
  BitVec.ofNat 64 (st * 2 ^ 62 + (match h.state with
    | .empty => 3 * 2 ^ 60
    | .faulted => 3 * 2 ^ 60 + h.level % 4 * 2 ^ 20 + h.cause % 16 * 2 ^ 16
    | .valid => h.size.code * 2 ^ 60 + bit h.host * 2 ^ 59 + h.grant % 8 * 2 ^ 56 + bits h.frame 16 40 * 2 ^ 16 + h.asid % 2 ^ 16
    | .revoked => h.size.code * 2 ^ 60 + bit h.host * 2 ^ 59 + h.grant % 8 * 2 ^ 56 + bits h.frame 16 40 * 2 ^ 16 + h.asid % 2 ^ 16))

/-- R329: the push of a `join` makes its membership count, also when a `leave` has ended it meanwhile. -/
def startCounting (cid : Nat) (t : Thread) : Thread :=
  let waits := fun (m : Membership) => decide (m.id = cid) && !m.counts
  if t.leaving.any waits then { t with leaving := t.leaving.map fun m => if waits m then { m with counts := true } else m }
  else { t with cohort := t.cohort.map fun m => if waits m then { m with counts := true } else m }
/-- R329: the push of a `leave` ends what its action left. -/
def stopCounting (cid : Nat) (t : Thread) : Thread := { t with leaving := t.leaving.eraseP fun m => decide (m.id = cid) }
/-- R94: what a result pushes: of a handle in place its word as it stands. -/
def pushedValue (t : Thread) (i : Item) : Option Result :=
  match i.post with
  | .word h => i.value.map fun _ => .scalar (.val (handleWord (t.handles.getD h.val {})))
  | .none => i.value | .handle _ _ => i.value | .joined _ => i.value | .left _ => i.value
/-- R33, R244: a push ORs the flags of its result into FPC. -/
def pushValue (t : Thread) (i : Item) : Thread :=
  match (if i.mute then none else pushedValue t i) with
  | some r => { t with regs := pushResult t.regs r, sys := { t.sys with fpc := orFlags t.sys.fpc i.flags } }
  | none => t
/-- R94: the handle that an `xlat` writes with its push. -/
def writeHandle (t : Thread) (i : Item) : Thread :=
  match i.post with
  | .handle h v => { t with handles := t.handles.set h.val v }
  | .none => t | .word _ => t | .joined _ => t | .left _ => t
/-- R33, R94, R330: one push with its flags and what it does besides. -/
def pushItem (t : Thread) (i : Item) : Thread :=
  let t := writeHandle (pushValue t i) i
  match i.post with
  | .joined c => startCounting c t
  | .left c => stopCounting c t
  | .none => t | .word _ => t | .handle _ _ => t

/-- R71, R211: every due result is pushed, in order. -/
def pushDue (t : Thread) : Thread := (sortItems (dueItems t)).foldl pushItem { t with flight := restItems t }

/-! Addresses (R83 to R85) and access tables (R109 to R111). -/

/-- R83: what a local offset of a tile's map holds. -/
inductive Region where
  | hbm | l2ctl
  | scratch (core addr : Nat)
  | weight (core slice off : Nat)
  | tileReg (off : Nat)
  | hub (off : Nat)
  | unassigned
  deriving DecidableEq, Repr

def paDevice (pa : Nat) : Nat := bits pa 46 10
def paTile (pa : Nat) : Nat := bits pa 42 4
def paOffset (pa : Nat) : Nat := bits pa 0 42
def paOf (dev tile off : Nat) : Nat := dev * 2 ^ 46 + tile * 2 ^ 42 + off
/-- R83: the local map. -/
def regionOf (pa : Nat) : Region :=
  let o := paOffset pa
  if o < 0x00C00000000 then .hbm
  else if 0x10000000000 ≤ o ∧ o < 0x10000600000 then .l2ctl
  else if 0x20000000000 ≤ o ∧ o < 0x20000C00000 then .scratch ((o - 0x20000000000) / 0x100000) ((o - 0x20000000000) % 0x100000)
  else if 0x21000000000 ≤ o ∧ o < 0x21006000000 ∧ (o - 0x21000000000) % 0x800000 < 97 * 0x10000 then
    .weight ((o - 0x21000000000) / 0x800000) ((o - 0x21000000000) % 0x800000 / 0x10000) ((o - 0x21000000000) % 0x10000)
  else if 0x30000000000 ≤ o ∧ o < 0x30001000000 then .tileReg (o - 0x30000000000)
  else if 0x38000000000 ≤ o ∧ o < 0x38001000000 then .hub (o - 0x38000000000)
  else .unassigned

/-- R83, R189: the physical address of a scratchpad address of a package core. -/
def scratchPa (s : State) (core a : Nat) : Nat := paOf s.cfg.device (core / 12) (0x20000000000 + 0x100000 * (core % 12) + a)
/-- R83, R195: the physical address of an offset of a weight slice of a package core. -/
def weightPa (s : State) (core slice off : Nat) : Nat :=
  paOf s.cfg.device (core / 12) (0x21000000000 + 0x800000 * (core % 12) + 0x10000 * slice + off)
/-- R85: the home slice of a line. -/
def homeSlice (pa : Nat) : Nat := bits pa 6 2
def isHbm (pa : Nat) : Bool := decide (regionOf pa = .hbm)

/-- R109: master ids. -/
def masterId (s : State) (l : Nat) : Nat := s.cfg.device * 4096 + l
def threadMaster (s : State) (slot : Nat) : Nat := masterId s slot
def engineNo : Eng → Nat | .m => 0 | .c0 => 1 | .c1 => 2
def engineMaster (s : State) (slot : Nat) (e : Eng) : Nat := masterId s (768 + 3 * slot + engineNo e)
def firmwareMaster (s : State) : Nat := masterId s 3072
/-- R109: the firmware masters of this device. -/
def isFirmware (s : State) (m : Nat) : Bool := decide (m / 4096 = s.cfg.device) && decide (3072 ≤ m % 4096) && decide (m % 4096 ≤ 3079)
/-- R111: the engines of a core are the masters 768 + 12c to 768 + 12c + 11 of its device. -/
def ownEngine (s : State) (core m : Nat) : Bool :=
  decide (m / 4096 = s.cfg.device) && decide (768 + 12 * core ≤ m % 4096) && decide (m % 4096 < 780 + 12 * core)

/-- The rights of a master at a target as the bits of PERM: 4 R, 2 W, 1 A (R110, R421). -/
abbrev Right := Nat
def rightR : Right := 4
def rightW : Right := 2
def rightA : Right := 1

/-- R110: an access table by its tile (16 for the hub's) and its offset in the region. -/
structure TableId where
  tile : Nat
  off : Nat
  deriving DecidableEq, Repr
def tableKey (t : TableId) (i : Nat) : Nat := t.tile * 0x100000 + t.off + 16 * i
/-- R366: the device physical address of a table's first entry. -/
def tablePa (s : State) (t : TableId) : Nat :=
  if t.tile = 16 then paOf s.cfg.device 0 (0x38000000000 + t.off) else paOf s.cfg.device t.tile (0x30000000000 + t.off)
/-- R111: entry 0 of every table after a cold start: the firmware masters, R, W and A over the whole map. -/
def coldEntry (s : State) (i : Nat) : BitVec 128 :=
  if i = 0 then BitVec.ofNat 128 (2 ^ 127 + 7 * 2 ^ 124 + masterId s 3079 * 2 ^ 86 + masterId s 3072 * 2 ^ 64 + (2 ^ 30 - 1) * 2 ^ 32)
  else 0
def tableEntry (s : State) (t : TableId) (i : Nat) : BitVec 128 := (look s.tables (tableKey t i)).getD (coldEntry s i)
/-- R110, R111: whether an entry allows master m the right at local offset x. -/
def entryAllows (e : BitVec 128) (m x : Nat) (r : Right) : Bool :=
  let w := e.toNat
  flag w 127 && decide (bits w 108 16 = 0) && decide (bits w 62 2 = 0) && decide (bits w 30 2 = 0)
    && decide (bits w 64 22 ≤ m) && decide (m ≤ bits w 86 22)
    && decide (bits w 0 30 ≤ x / 4096) && decide (x / 4096 ≤ bits w 32 30) && decide (bits w 124 3 &&& r = r)
/-- R421: an access that needs two rights is allowed when each of them is, by one entry or by two. -/
def tableAllows (s : State) (t : TableId) (m x : Nat) (r : Right) : Bool :=
  [rightR, rightW, rightA].all fun b => decide (r &&& b = 0) || (List.range 64).any fun i => entryAllows (tableEntry s t i) m x b

/-- R110: the table in front of an address: of its home slice, scratchpad, weight store, or register region. -/
def scratchTable (pa c : Nat) : TableId := ⟨paTile pa, 0x1000 + 0x400 * c⟩
def portTable (pa c : Nat) : TableId := ⟨paTile pa, 0x7000 + 0x400 * c⟩

/-- R110: the table in front of a weight store. -/
def weightTable (pa c : Nat) : TableId := ⟨paTile pa, 0x4000 + 0x400 * c⟩

/-- R84, R111, R195, R277, R366: the refusal of one byte's access on this package: none, or the address that
TRAPARG1 names (0 when no table refused). -/
def refuseAt (s : State) (m pa : Nat) (r : Right) : Option Nat :=
  let x := paOffset pa
  let by1 : TableId → Option Nat := fun t => if tableAllows s t m x r then none else some (tablePa s t)
  match regionOf pa with
  | .hbm => by1 ⟨paTile pa, 0x400 * homeSlice pa⟩
  | .l2ctl => if r = rightA then some 0 else by1 ⟨paTile pa, 0x400 * homeSlice pa⟩
  | .scratch c _ =>
    match by1 (scratchTable pa c) with
    | some t => some t
    | none => if ownEngine s (12 * paTile pa + c) m then none else by1 (portTable pa c)
  | .weight c _ _ =>
    if isFirmware s m then by1 (weightTable pa c) else some 0
  | .tileReg o =>
    if r = rightA then some 0
    else if r = rightW && !isFirmware s m && decide (o < 0xA400) then some 0
    else by1 ⟨paTile pa, 0xA000⟩
  | .hub o =>
    if r = rightA then some 0
    else if r = rightW && !isFirmware s m && (decide (o < 0x400) || decide (o / 8 * 8 = 0x200020)) then some 0
    else by1 ⟨16, 0⟩
  | .unassigned => some 0

/-- The 64-byte lines that n bytes from a touch, by their first address in the extent. -/
def lineStarts (a n : Nat) : List Nat := (List.range ((a + n - 1) / 64 - a / 64 + 1)).map fun i => if i = 0 then a else (a / 64 + i) * 64
/-- R111: an access is allowed only when every byte is. -/
def refuse (s : State) (m pa n : Nat) (r : Right) : Option Nat := (lineStarts pa n).findSome? fun a => refuseAt s m a r

/-! Memory. -/

def readPa (s : State) (pa n : Nat) : List Byte := s.mem.bytes pa n
def writePa (pa : Nat) (b : List Byte) (s : State) : State := { s with mem := s.mem.store pa b }
def readHost (s : State) (pa n : Nat) : List Byte := s.hostMem.bytes pa n
def writeHost (pa : Nat) (b : List Byte) (s : State) : State := { s with hostMem := s.hostMem.store pa b }
/-- R376: a line with an uncorrectable error. -/
def lineBad (s : State) (pa n : Nat) : Bool := (lineStarts pa n).any fun a => memSet s.eccBad (a / 64)
/-- R376: the correctable errors of the lines read are corrected, and counted in the firmware log. -/
def fixSoft (pa n : Nat) (s : State) : State :=
  let hit := (lineStarts pa n).filter fun a => memSet s.eccSoft (a / 64)
  if hit = [] then s
  else { s with eccSoft := s.eccSoft.filter fun l => !hit.contains (64 * l), corrected := s.corrected + hit.length, log := s.log ++ hit.map fun _ => .corrected }
/-- R189: the full bit of the word at a physical address. -/
def isFull (s : State) (pa : Nat) : Bool := memSet s.full (pa / 8)
def setFull (pa : Nat) (f : Bool) (s : State) : State :=
  { s with full := if f then addSet s.full (pa / 8) else delSet s.full (pa / 8), woken := if isFull s pa = f then s.woken else put s.woken (pa / 8) s.cc }
/-- The full bits of the 8-byte words that n bytes from pa cover. -/
def setFulls (f : Bool) (pa : Nat) : Nat → State → State
  | 0, s => s
  | n + 1, s => setFulls f (pa + 8) n (setFull pa f s)

def nat64 (b : List Byte) : W64 := BitVec.ofNat 64 (leNat b)
def bytes64 (w : W64) : List Byte := leBytes 8 w.toNat
def bytes32 (w : W32) : List Byte := leBytes 4 w.toNat
/-- R23: 384 bytes as 96 lanes. -/
def lanesOf (b : List Byte) : Vec := (List.range 96).map fun i => BitVec.ofNat 32 (leNat ((b.drop (4 * i)).take 4))
def vecBytes (v : Vec) : List Byte := (List.range 96).flatMap fun i => bytes32 (v.getD i 0)
def zeroVec : Vec := List.replicate 96 0

/-- R246: the accumulator element (row, column) of a slot. -/
def accKey (slot row col : Nat) : Nat := slot * 49152 + col * 96 + row
def accRead (s : State) (slot row col : Nat) : Nat := (look s.acc (accKey slot row col)).getD 0
def accWrite (slot row col v : Nat) (s : State) : State :=
  { s with acc := if v % 2 ^ 32 = 0 then erase s.acc (accKey slot row col) else put s.acc (accKey slot row col) (v % 2 ^ 32) }

/-! Windows (R192, R194, R247). -/

def scrBase (w : W64) : Nat := 4096 * bits w.toNat 12 8
def scrEnd (w : W64) : Nat := 4096 * (bits w.toNat 12 8 + bits w.toNat 32 9)
/-- [a, a + n) lies in the scratchpad window. -/
def inScr (w : W64) (a n : Nat) : Bool := decide (scrBase w ≤ a) && decide (a + n ≤ scrEnd w)
def wgtDataIn (w : W64) (a n : Nat) : Bool :=
  decide (64 * bits w.toNat 0 10 ≤ a) && decide (a + n ≤ 64 * (bits w.toNat 0 10 + bits w.toNat 10 11))
def wgtHdrIn (w : W64) (a n : Nat) : Bool :=
  decide (64 * bits w.toNat 22 10 ≤ a) && decide (a + n ≤ 64 * (bits w.toNat 22 10 + bits w.toNat 32 11))
def accIn (w : W64) (c n : Nat) : Bool := decide (c + n ≤ bits w.toNat 0 10)

/-! Trap codes (R366). -/

def tIllegal := 0x01
def tPrivilege := 0x02
def tSchedule := 0x03
def tEngineStack := 0x04
def tAlign := 0x05
def tScratchBound := 0x06
def tHandleEmpty := 0x07
def tHandleRevoked := 0x08
def tHandleBound := 0x09
def tHandlePerm := 0x0A
def tPageFault := 0x0B
def tAccessDenied := 0x0C
def tFormat := 0x0D
def tFeTimeout := 0x0E
def tCircuitNone := 0x0F
def tCircuitDown := 0x10
def tPeerUnreachable := 0x11
def tChainFault := 0x12
def tBarrierStale := 0x13
def tLaunchFault := 0x14
def tMemUncorrectable := 0x15
def tEngineFault := 0x16
def tFabricEvent := 0x17
def tWatchdog := 0x18
def tSoftware := 0x19

def trapOf (code place : Nat) (a0 : W64 := 0) (a1 : W64 := 0) (cause : Nat := 0) : Trap :=
  { code := code, place := place, cause := cause, arg0 := a0, arg1 := a1 }

/-- R368: TRAPINFO of a trap. -/
def trapInfo (t : Trap) : W64 :=
  BitVec.ofNat 64 (t.code % 256 * 2 ^ 56 + t.place % 16 * 2 ^ 52 + t.cause % 256 * 2 ^ 44 + t.level % 4 * 2 ^ 42
    + bit t.deferred * 2 ^ 41 + bit t.spec * 2 ^ 40 + t.gen % 256 * 2 ^ 32 + t.hnd % 128 * 2 ^ 16)

/-! Tokens (R225, R254). -/

/-- The count an engine pops from its upstream neighbour (pu) and from its downstream neighbour (pd). -/
def upCount (t : Tokens) : Eng → Nat | .m => t.c0M | .c0 => t.coreC0 | .c1 => t.mC1
def downCount (t : Tokens) : Eng → Nat | .m => t.c1M | .c0 => t.mC0 | .c1 => t.coreC1
def setUp (t : Tokens) (n : Nat) : Eng → Tokens
  | .m => { t with c0M := n }
  | .c0 => { t with coreC0 := n }
  | .c1 => { t with mC1 := n }
def setDown (t : Tokens) (n : Nat) : Eng → Tokens
  | .m => { t with c1M := n }
  | .c0 => { t with mC0 := n }
  | .c1 => { t with coreC1 := n }
/-- The count an engine raises toward its upstream (su) and its downstream (sd) neighbour. -/
def sendUp (t : Tokens) : Eng → Nat | .m => t.mC0 | .c0 => t.c0Core | .c1 => t.c1M
def sendDown (t : Tokens) : Eng → Nat | .m => t.mC1 | .c0 => t.c0M | .c1 => t.c1Core
def putSendUp (t : Tokens) (n : Nat) : Eng → Tokens
  | .m => { t with mC0 := n }
  | .c0 => { t with c0Core := n }
  | .c1 => { t with c1M := n }
def putSendDown (t : Tokens) (n : Nat) : Eng → Tokens
  | .m => { t with mC1 := n }
  | .c0 => { t with c0M := n }
  | .c1 => { t with c1Core := n }
/-- R225: the counts of `tkwait` and `tksig`. -/
def waitCount (t : Tokens) : Side → Nat | .c0 => t.c0Core | .c1 => t.c1Core
def setWaitCount (t : Tokens) (n : Nat) : Side → Tokens
  | .c0 => { t with c0Core := n }
  | .c1 => { t with c1Core := n }
def sigCount (t : Tokens) : Side → Nat | .c0 => t.coreC0 | .c1 => t.coreC1
def setSigCount (t : Tokens) (n : Nat) : Side → Tokens
  | .c0 => { t with coreC0 := n }
  | .c1 => { t with coreC1 := n }

/-- R255: tokens pushed in this cc are noted, since no pop takes them in it. -/
def notePushed (cc : Nat) (f : Tokens → Tokens) (t : Thread) : Thread :=
  { t with pushed := f (if t.pushedAt = cc then t.pushed else {}), pushedAt := cc }
/-- R255: the counts a pop sees in this cc. -/
def upReady (cc : Nat) (t : Thread) (e : Eng) : Nat := upCount t.tokens e - (if t.pushedAt = cc then upCount t.pushed e else 0)
def downReady (cc : Nat) (t : Thread) (e : Eng) : Nat := downCount t.tokens e - (if t.pushedAt = cc then downCount t.pushed e else 0)
def waitReady (cc : Nat) (t : Thread) (d : Side) : Nat := waitCount t.tokens d - (if t.pushedAt = cc then waitCount t.pushed d else 0)

/-! The end of a thread. -/

/-- R120, R347: an access whose owner no longer waits for it: its response still takes a slot of that owner. -/
def Access.lose (n : NodeRef) (a : Access) : Access :=
  match a.owner with
  | .gone => a
  | .thread k => { a with owner := .gone, keeps := some (.thread k, n) }
  | .engine k e i => { a with owner := .gone, keeps := some (.engine k e i, n) }
  | .chain k i => { a with owner := .gone, keeps := some (.chain k i, n) }
  | .host => { a with owner := .gone, keeps := some (.host, n) }
  | .peer d f => { a with owner := .gone, keeps := some (.peer d f, n) }
/-- The node of the thread in a slot. -/
def nodeIn (s : State) (k : Nat) : NodeRef := match getThread s k with | some t => t.node | none => ⟨8192, 0⟩

/-- The waiters of a slot; `all` takes its `msync` word too. -/
def Waiter.ofSlot (k : Nat) (all : Bool) : Waiter → Bool
  | .thread j _ _ _ => decide (j = k)
  | .msync j _ _ => all && decide (j = k)
  | .remote _ _ => false
/-- R203, R356, R377: a slot leaves every waiter list. Its `msync` word waits on when the thread only takes a trap
(R265). A request that has not acted performs nothing, and only its response still comes (R120). -/
def removeWaiters (k : Nat) (all : Bool) (s : State) : State :=
  let waits := fun (a : Access) => decide (a.owner = .thread k) && (match a.op with | .fe _ _ => true | .bar .wait _ _ => true | _ => false)
  let gone : List Nat := (s.accesses.filter fun a => waits a.2).map Prod.fst
  { s with
    waiters := s.waiters.map (fun w => (w.1, w.2.filter fun x => !(x.ofSlot k all) && (match x with
      | .remote id _ => !gone.contains id
      | .thread _ _ _ _ => true
      | .msync _ _ _ => true))),
    accesses := s.accesses.map fun a =>
      (a.1, if waits a.2 then { a.2.lose (nodeIn s k) with void := !a.2.performed } else a.2) }

/-- R166: a claim of a landing side is released. -/
def releaseClaim (k : Nat) (s : State) : State := { s with claims := s.claims.filter fun c => decide (c.2 ≠ k) }

/-- R120, R347: whoever owns the accesses of a slot's thread waits for them no longer. -/
def loseThread (k : Nat) (n : NodeRef) (s : State) : State :=
  { s with
    accesses := s.accesses.map fun a => (a.1, if a.2.owner = .thread k then a.2.lose n else a.2)
    walks := s.walks.filter fun w => decide (w.slot ≠ k) }
/-- R331: the cohorts a thread counts in: its own, and one it leaves until the push (R329). -/
def countedIn (t : Thread) : List Nat := ((t.cohort.toList ++ t.leaving).filter Membership.counts).map Membership.id
/-- R331: the vc of the bundle that a thread would have issued when this cc began. -/
def vcBefore (s : State) (t : Thread) : Nat := if t.issued = s.cc + 1 then t.vc - 1 else t.vc
/-- R331, R332: a thread ceases to count; that it did is news in the next cc. -/
def depart (k : Nat) (s : State) : State :=
  match getThread s k with
  | some t => { s with departed := s.departed ++ (countedIn t).map fun c => (c, vcBefore s t) }
  | none => s
/-- R328: the least rank no member holds. -/
def leastRank (ms : List (Nat × Nat)) : Nat := ((List.range 769).find? fun r => !(ms.any fun m => decide (m.2 = r))).getD 0

/-- R154, R160: every handle of a context that is not IDLE gets a tear pending, and no `est` waits any longer; `all` takes
the retained ones too. -/
def tearHandles (all : Bool) (c : Ctx) : Ctx :=
  { c with mode := .ended, pendingEst := [], handles := c.handles.map fun h =>
      (h.1, if h.2.state = .idle ∨ (h.2.retained ∧ ¬all) then h.2 else { h.2 with tearFrom := some (h.2.tearFrom.getD c.cur), retained := false }) }

/-- R154, R160: a context is freed when its program has ended and every handle of it is IDLE. -/
def dropEnded (s : State) : State :=
  { s with ctxs := s.ctxs.filter fun x => !(decide (x.2.mode = .ended) && x.2.handles.all fun h => decide (h.2.state = .idle)) }
/-- R328, R160: a member leaves its cohort; the last one ends it, and its id is free. -/
def leaveCohort (k cid : Nat) (s : State) : State :=
  match look s.cohorts cid with
  | none => s
  | some c =>
    let ms := c.members.filter fun m => decide (m.1 ≠ k)
    if ms.isEmpty then
      dropEnded { s with
        cohorts := erase s.cohorts cid
        ctxs := s.ctxs.map fun x => (x.1, if x.2.cohort = cid ∧ ¬ x.2.ceased then { tearHandles true x.2 with ceased := true } else x.2)
        threads := s.threads.map fun x => (x.1, { x.2 with leaving := x.2.leaving.filter fun m => decide (m.id ≠ cid) }) }
    else { s with cohorts := put s.cohorts cid { c with members := ms } }

/-- R328, R332: the thread of a slot leaves its cohort and counts in none. -/
def quitCohort (k : Nat) (s : State) : State :=
  let cohort := (getThread s k).bind fun t => t.cohort
  let s := modThread k (fun t => { t with cohort := none, leaving := [] }) (depart k s)
  match cohort with
  | some c => leaveCohort k c.id s
  | none => s
/-- R223, R377: the slot of a thread is freed. -/
def freeSlot (k : Nat) (s : State) : State :=
  let s := quitCohort k (removeWaiters k true (releaseClaim k s))
  { s with threads := erase s.threads k }

/-- R347: the blocks of a node whose extent is final. -/
def nodeBlocks (x : Node) : Option Nat := x.final.map fun f => f * x.desc.gy
/-- R347, R154: a block of a node finishes; with the last one its circuit program ends as at `endc`. -/
def finishBlock (n : NodeRef) (s : State) : State :=
  match look s.nodes n.id with
  | some x =>
    if x.gen ≠ n.gen then s
    else
      let s := { s with nodes := put s.nodes n.id { x with done := x.done + 1 } }
      if nodeBlocks x = some (x.done + 1) then
        dropEnded { s with ctxs := s.ctxs.map fun c => (c.1, if c.2.node = n ∧ c.2.mode ≠ .ended then tearHandles false c.2 else c.2) }
      else s
  | none => s

/-- R205: the store-buffer entries a slot uses: its buffered accesses that are not acknowledged. -/
def bufferUsed (s : State) (k : Nat) : Nat := (s.accesses.filter fun a => a.2.buffered && decide (a.2.owner = .thread k)).length
/-- R120: the response-receive slots a thread slot or channel uses. -/
def slotsUsed (s : State) (o : Owner) : Nat :=
  (s.accesses.filter fun a => decide (a.2.place ≠ .waiting) && (match o, ((a.2.keeps.map Prod.fst).getD a.2.owner), a.2.keeps.isSome with
    | .thread k, .thread j, _ => decide (k = j)
    | .thread k, .chain j _, true => decide (k = j)
    | .engine k e _, .engine j f _, _ => decide (k = j) && decide (e = f)
    | _, _, _ => false)).length
  + (match o with
    | .thread k => match getThread s k with
      | some t => (t.chains.filter fun c => decide (c.2.state = .pending)).length
      | none => 0
    | _ => 0)

/-- R349, R377, R393: a node's first fault stands, with its cc; `stop` ends its dispatch. -/
def markFault (cause cc : Nat) (stop : Bool) (x : Node) : Node :=
  { x with fault := some (x.fault.getD cause), faultAt := if x.fault.isSome then x.faultAt else cc, stop := x.stop || stop }
/-- R377: what a kill records on the node: CAUSE 0xF. -/
def nodeKilled (n : NodeRef) (s : State) : State :=
  match look s.nodes n.id with
  | some x => if x.gen = n.gen then { s with nodes := put s.nodes n.id (markFault 0xF s.cc false x) } else s
  | none => s

/-- R377: a thread is killed. Its queues, chains and waiters are discarded; its slot is freed once its store buffer
has drained (at once when it is empty). -/
def killThread (k : Nat) (tr : Trap) (s : State) : State :=
  match getThread s k with
  | none => s
  | some t =>
    let s := { s with log := s.log ++ [.kill k (trapInfo tr) tr.arg0 tr.arg1] }
    let s := nodeKilled t.node (if t.life = .halted ∧ ¬t.spec then s else finishBlock t.node s)
    let dead : Thread := { t with life := .killed, flight := [], me := {}, c0 := {}, c1 := {}, chains := [], windowGen := t.windowGen + 1, wait := none, sWait := none, gather := none, trapping := none, boundary := [], deferredTrap := none, spec := false }
    let s := removeWaiters k true (releaseClaim k (setThread s k dead))
    let s := { s with
      accesses := s.accesses.map fun a => (a.1, match a.2.owner with
        | .engine j _ _ => if j = k then a.2.lose t.node else a.2
        | .chain j _ => if j = k then { a.2.lose t.node with void := true } else a.2
        | .thread j => if j = k ∧ ¬a.2.buffered then a.2.lose t.node else a.2
        | _ => a.2),
      walks := s.walks.filter (fun w => decide (w.slot ≠ k)),
      invals := s.invals.filter fun v => decide (v.slot ≠ k) }
    if bufferUsed s k = 0 then freeSlot k s else s

/-! Taking a trap (R364, R373) and returning from one (R374). -/

/-- R227: observing a deferred fault; R286: consuming a chain entry. -/
def markObserved (t : Thread) : Source → Thread
  | .none => t
  | .engine e =>
    let x := getEngine t e
    setEngine t e { x with fault := x.fault.map fun f => { f with observed := true } }
  | .chain k => { t with chains := erase t.chains k }

/-- Its push on re-arming does not write the handle again (log entry 42). -/
def handleDone (i : Item) : Item :=
  match i.post with
  | .handle _ _ => { i with post := .none }
  | .none => i | .word _ => i | .joined _ => i | .left _ => i
def cohortAsk (s : State) (k tag : Nat) : Bool :=
  s.hubReqs.any fun r => decide (r.slot = k) && decide (r.tag = tag) && (match r.ask with
    | .join _ _ _ => true | .leave _ => true | .launch _ _ _ _ => false | .query _ => false)
/-- R373, R374: of a result of the handler in flight at `rft` the push is discarded; the handle that it fills and the
membership of a cohort that it starts or ends stand (log entry 42). -/
def lasting (s : State) (k : Nat) (i : Item) : Bool :=
  (match i.post with | .handle _ _ => true | .joined _ => true | .left _ => true | .none => false | .word _ => false)
  || (match i.form with | .walk _ _ _ => true | .load _ => false | .vector _ => false | .old _ _ => false | .barq _ => false | .status => false)
  || cohortAsk s k i.tag
def muteItems (s : State) (k : Nat) (is : List Item) : List Item :=
  (is.filter (lasting s k)).map fun i => { i with mute := true, notBefore := 0 }
/-- R373: the handler is entered once every result in flight has arrived. -/
def enterTrap (k : Nat) (s : State) : State :=
  match getThread s k with
  | none => s
  | some t =>
    match t.trapping with
    | none => s
    | some tr =>
      if ¬ arrived t.flight then s
      else
        let u := (sortItems t.flight).foldl (fun t i => writeHandle (pushValue t i) i) t
        setThread s k { t with
          saved := some { t := t.vc, q := t.regs.q, y := t.regs.y, pending := t.flight.map handleDone },
          handles := u.handles,
          regs := u.regs,
          flight := [],
          sys := { u.sys with
            trappc := (if tr.code = tSoftware then t.pc + 16 else t.pc) &&& ~~~0xF,
            trapinfo := trapInfo tr,
            traparg0 := tr.arg0,
            traparg1 := tr.arg1 },
          system := true,
          pc := t.sys.trapvec &&& ~~~0xF
          fetchFault := none
          hvc := 0
          wait := none
          sWait := none
          trapping := none }

/-- R364, R373, R353: a trap is raised at the bundle of slot k. A speculative block defers it; a thread in system
mode or without a handler is killed; otherwise the handler is entered, at once if nothing in flight is missing. -/
def raiseTrap (k : Nat) (tr : Trap) (s : State) : State :=
  match getThread s k with
  | none => s
  | some t =>
    if t.spec then setThread s k { t with deferredTrap := some { tr with spec := true }, wait := none, sWait := none }
    else if t.system || !flag t.sys.trapvec.toNat 0 then killThread k tr s
    else enterTrap k (removeWaiters k false (setThread s k { markObserved t tr.source with trapping := some tr, wait := none, sWait := none }))

/-- R175, R272: an engine halted by an observed fault is released. -/
def releaseEngine (x : Engine) : Engine :=
  match x.fault with
  | some f => if f.observed then { x with fault := none, run := x.run.map fun r => { r with waiting := false, live := false } } else x
  | none => x

/-- R374: the return from a handler. -/
def returnFromTrap (k : Nat) (s : State) : State :=
  modThread k (fun t =>
    let sv := t.saved.getD { t := t.vc, q := t.regs.q, y := t.regs.y, pending := [] }
    { t with
      regs := { t.regs with q := sv.q, y := sv.y }
      flight := muteItems s k t.flight ++ sv.pending
      saved := none
      system := false
      pc := t.sys.trappc
      vc := if bits t.sys.trapinfo.toNat 56 8 = tSoftware then sv.t + 1 else sv.t
      hvc := 0
      me := releaseEngine t.me
      c0 := releaseEngine t.c0
      c1 := releaseEngine t.c1 }) s

/-- R364: a boundary trap becomes pending at its thread. -/
def addBoundary (k : Nat) (tr : Trap) (s : State) : State := modThread k (fun t => { t with boundary := t.boundary ++ [tr] }) s

/-! The issue of a bundle (R50 to R52). -/

/-- What an operation does when its bundle is presented: the traps whose conditions it meets, in its order; whether
it holds the bundle, and what it then notes (`notes`: that this is still to be done); whether its wait at a word or an
object, which `onHold` starts, is still to start; what it does when the bundle issues, and whether that comes after
what every other operation of the bundle does; `entries` counts the store-buffer entries that it takes (R205). -/
structure OpRun where
  traps : List Trap := []
  hold : Bool := false
  entries : Nat := 0
  notes : Bool := false
  note : State → State := id
  starts : Bool := false
  onHold : State → State := id
  act : State → State := id
  last : Bool := false

/-- An operation: `run place slot state thread` reads the state at the start of the vc; `stack` is its effect on the
parameter stacks alone (R65), which the later words of the bundle see. -/
structure Op where
  run : Nat → Nat → State → Thread → OpRun
  stack : Thread → Thread := id

/-- R52, R365: the precedence of trap codes. -/
def trapRank (c : Nat) : Nat := if c = tIllegal then 0 else if c = tPrivilege then 1 else if c = tSchedule then 2 else if c = tEngineStack then 3 else 4
/-- R52: the first trap of the least rank. -/
def pickTrap : List Trap → Option Trap
  | [] => none
  | t :: ts =>
    match pickTrap ts with
    | none => some t
    | some u => if trapRank u.code < trapRank t.code then some u else some t

/-- The runs of a bundle's operations, each seeing the stack effects of the ones before it. -/
def runOps (k : Nat) (s : State) : List (Nat × Op) → Thread → List OpRun
  | [], _ => []
  | (p, o) :: os, t => o.run p k s t :: runOps k s os (o.stack t)

/-- R49, R327, R373: the thread moves to its next bundle. -/
def advance (t : Thread) (cc : Nat) : Thread :=
  let t := { t with pc := t.pc + 16, wait := none, sWait := none, issued := cc + 1 }
  if t.system then { t with hvc := t.hvc + 1 } else { t with vc := t.vc + 1 }

/-- R199, R201: the action of a full/empty form that the bundle waited for has been performed, so that the bundle must
issue. -/
def feDone (t : Thread) : Bool :=
  match t.wait with
  | some w => decide (w.kind = .fe) && w.answered
  | none => false
/-- R364: the thread stands at a bundle boundary. -/
def atBoundary (t : Thread) : Bool :=
  decide (t.life = .running) && t.trapping.isNone && t.deferredTrap.isNone && !t.hold && !t.stopping && (dueItems t).isEmpty
/-- R52, R149, R364: nothing but the bundle's own contents holds the bundle back; a boundary trap that is pending in user
mode comes first, but for a bundle whose action has been performed. -/
def presentable (t : Thread) : Bool := atBoundary t && (t.system || t.boundary.isEmpty || feDone t)

/-- R52: the traps of a bundle; none of one whose action has been performed, since a bundle that traps performs nothing. -/
def bundleTraps (t : Thread) (rs : List OpRun) : List Trap := if feDone t then [] else rs.flatMap OpRun.traps
/-- R73, R201: a bundle is held: its operations note their waits, and the wait of one at a word or an object starts when no
other holds the bundle. -/
def startWait (rs : List OpRun) (s : State) : State :=
  let s := rs.foldl (fun s r => r.note s) s
  match rs.filter OpRun.hold with
  | [r] => r.onHold s
  | [] => s
  | _ :: _ :: _ => s

/-- R322, R324: a held bundle has still to be presented, so that a wait of it starts. -/
def startsWait (rs : List OpRun) : Bool :=
  rs.any (fun r => r.hold && r.notes) || (match rs.filter OpRun.hold with
    | [r] => r.starts
    | [] => false
    | _ :: _ :: _ => false)
/-- R205: the operations of a bundle together take more store-buffer entries than are free. -/
def crowded (s : State) (k : Nat) (rs : List OpRun) : Bool :=
  decide (2 ≤ (rs.filter fun r => decide (r.entries ≠ 0)).length) && decide (16 < bufferUsed s k + rs.foldl (fun n r => n + r.entries) 0)
/-- R66, R73, R205: the bundle is held. -/
def anyHold (s : State) (k : Nat) (rs : List OpRun) : Bool := rs.any OpRun.hold || crowded s k rs
/-- R65, R222, R372: the order in which the operations of a bundle act: the bundle's order, and last those whose effect
is due after every other one's. -/
def actOrder (rs : List OpRun) : List OpRun := rs.filter (fun r => !r.last) ++ rs.filter OpRun.last
/-- R51, R52, R66: a bundle of these operations is presented at slot k: it traps, is held, or issues whole. -/
def issueOps (k : Nat) (os : List (Nat × Op)) (s : State) : Host.Outcome State Fault Refusal :=
  match getThread s k with
  | none => .fault .noThread
  | some t =>
    if ¬ presentable t then .next s
    else
      let rs := runOps k s os t
      match pickTrap (bundleTraps t rs) with
      | some tr => .next (raiseTrap k tr s)
      | none =>
        if anyHold s k rs then .next (startWait rs s)
        else .next ((actOrder rs).foldl (fun s r => r.act s) (setThread s k (advance t s.cc)))

/-- A bundle that holds one operation, at the slot whose turn it is. -/
def issueOp (p : Nat) (o : Op) (s : State) : Host.Outcome State Fault Refusal := issueOps s.turn [(p, o)] s

end Sys2Proof.Machine
end

