-- ==== Sys2Proof/Machine/Operands.lean ====
section
/-! DEFINITION. Operand forms: scalar, vector and mask specifiers (R53), poisoned entries (R375, R376), scratchpad
addresses (R196, R199), handle offsets and their checks (R97), and the shapes of an operation that pushes one result. -/

namespace Sys2Proof.Machine

/-- R53: a scalar specifier reads a queue entry by age or a named scalar. -/
def scalarEntry (t : Thread) : SSpec → Entry W64
  | .q i => t.regs.q.getD i.val (.val 0)
  | .n i => .val (t.regs.n.getD i.val 0)
/-- R53: a vector specifier reads a queue entry, a named vector, or a scalar entry broadcast to all lanes. -/
def vectorEntry (t : Thread) : VSpec → Entry Vec
  | .y i => t.regs.y.getD i.val (.val zeroVec)
  | .v i => .val (t.regs.v.getD i.val zeroVec)
  | .bcast i =>
    match t.regs.q.getD i.val (.val 0) with
    | .val w => .val (List.replicate 96 (w.truncate 32))
    | .poison p => .poison p
/-- R375: in the handler's view a poisoned entry reads as zero. -/
def readS (t : Thread) (a : SSpec) : W64 := match scalarEntry t a with | .val w => w | .poison _ => 0
def readVec (t : Thread) (a : VSpec) : Vec := match vectorEntry t a with | .val w => w | .poison _ => zeroVec
/-- R212: m0 reads as all ones. -/
def readMask (t : Thread) (m : Fin 8) : Mask := if m.val = 0 then BitVec.allOnes 96 else t.regs.m.getD m.val 0

/-- R376: the trap of a consumed poisoned entry; none in system mode (R375). -/
def poisonTrap {α : Type} (t : Thread) : Entry α → List Trap
  | .val _ => []
  | .poison p => if t.system then [] else [{ p with place := 0xB }]
def poisonS (t : Thread) (as : List SSpec) : List Trap := as.flatMap fun a => poisonTrap t (scalarEntry t a)
def poisonV (t : Thread) (as : List VSpec) : List Trap := as.flatMap fun a => poisonTrap t (vectorEntry t a)

/-- R71, R210: an S-slot operation that reads scalars and pushes one scalar with its latency. -/
def opScalar (lat : Nat) (as : List SSpec) (f : Thread → W64 × FpFlags) : Op :=
  { run := fun _ k _ t =>
      { traps := poisonS t as
        act := addItem k (itemOf t 1 lat (.scalar (.val (f t).1)) (f t).2) } }
/-- An S-slot operation on values that raises no flag. -/
def opScalarPure (lat : Nat) (as : List SSpec) (f : Thread → W64) : Op := opScalar lat as fun t => (f t, .none)
/-- R210: a V-slot operation that pushes one vector. -/
def opVector (lat : Nat) (as : List VSpec) (f : Thread → Vec × FpFlags) : Op :=
  { run := fun _ k _ t =>
      { traps := poisonV t as
        act := addItem k (itemOf t 2 lat (.vector (.val (f t).1)) (f t).2) } }
/-- R210: a V-slot operation that pushes one scalar (`mpop`, `mfirst`, `vext`). -/
def opVectorScalar (lat : Nat) (as : List VSpec) (f : Thread → W64) : Op :=
  { run := fun _ k _ t =>
      { traps := poisonV t as
        act := addItem k (itemOf t 2 lat (.scalar (.val (f t))) .none) } }

/-! Immediates and addresses. -/

/-- A sign-extended field as an integer. -/
def simm {n : Nat} (x : BitVec n) : Int := x.toInt
def addOffset (a : W64) (i : Int) : W64 := a + BitVec.ofInt 64 i

/-- R196: the checks of a scratchpad address. -/
def localTraps (t : Thread) (place : Nat) (x : W64) (w : Nat) : List Trap :=
  if x.toNat % min w 64 ≠ 0 then [trapOf tAlign place x]
  else if 2 ^ 20 ≤ x.toNat ∨ ¬ inScr t.sys.scrwin x.toNat w then [trapOf tScratchBound place x]
  else []

/-- R97: x for a handle, an offset. -/
def handleOf (t : Thread) (h : Fin 16) : Handle := t.handles.getD h.val {}
/-- The physical address (or host address) of virtual address x within the handle's page. -/
def handlePa (h : Handle) (x : W64) : Nat := h.frame + (x.toNat - h.base)

/-- R143: whether a device is reached: this one, or a member that is declared reachable. -/
def reachable (s : State) (dev : Nat) : Bool :=
  decide (dev = s.cfg.device) || (match look s.peers dev with
    | some p => p.member && p.tagOk && p.reachable
    | none => false)

/-- R386, R383: where an access bound for a device goes: a listed range of a redirected device is read and written
at its counterpart. -/
def redirect (s : State) (pa : Nat) : Nat :=
  ((s.redirects.filter fun r => decide (r.dev = paDevice pa)).findSome? fun r =>
    (r.ranges.find? fun m => decide (m.src ≤ pa) && decide (pa < m.src + m.len)).map fun m => m.dst + (pa - m.src)).getD pa

/-- R97, checks 1 to 6, in order, of the access [x, x + w) through a handle; `align` is the natural alignment, `perm`
the permission bits it needs. -/
def handleChecks (t : Thread) (place : Nat) (hn : Fin 16) (off : W64) (w align perm : Nat) : List Trap :=
  let h := handleOf t hn
  let x := h.origin + off
  let tr := fun (c : Nat) (a0 a1 : W64) (cause level : Nat) =>
    [{ code := c, place := place, cause := cause, level := level, hnd := hn.val, arg0 := a0, arg1 := a1 : Trap }]
  if h.state = .empty then tr tHandleEmpty off 0 0 0
  else if h.state = .revoked then tr tHandleRevoked x 0 0 0
  else if h.state = .faulted then tr tPageFault x 0 h.cause h.level
  else if x.toNat % align ≠ 0 then [trapOf tAlign place x]
  else if ¬ (h.base ≤ x.toNat ∧ x.toNat + w ≤ h.base + h.size.bytes) then tr tHandleBound x (BitVec.ofNat 64 w) 0 0
  else if h.grant &&& perm ≠ perm then tr tHandlePerm x 0 (perm &&& (7 - h.grant % 8)) 0
  else []
/-- R97, checks 1 to 7; the last one also covers a target on a device that is not reachable (R84, R143). -/
def handleTraps (s : State) (t : Thread) (master place : Nat) (hn : Fin 16) (off : W64) (w align : Nat) (right : Right)
    (perm : Right) : List Trap :=
  let h := handleOf t hn
  let x := h.origin + off
  match handleChecks t place hn off w align perm with
  | c :: cs => c :: cs
  | [] =>
    if h.host then []
    else
      let pa := redirect s (handlePa h x)
      if ¬ reachable s (paDevice pa) then [trapOf tPeerUnreachable place x (BitVec.ofNat 64 (paDevice pa))]
      else if paDevice pa ≠ s.cfg.device then []
      else match refuse s master pa w right with
        | none => []
        | some a => [trapOf tAccessDenied place x (BitVec.ofNat 64 a)]

/-- The handle-permission codes: [2] A, [1] W, [0] R (R92, R95). -/
def permR : Nat := 1
def permW : Nat := 2
def permA : Nat := 4

end Sys2Proof.Machine
end

