-- ==== Sys2Proof/Machine/Access.lean ====
section
/-! DEFINITION. Accesses that leave a core: where their packets start and end (R114 to R117), how a thread sends
them (R103, R120, R204, R205), how the result in flight that awaits them is made (R73, R206). -/

namespace Sys2Proof.Machine

/-- R114: the router of core c of a tile, in global coordinates. -/
def coreRouter (tile c : Nat) : Nat × Nat :=
  let l := [(0, 0), (1, 0), (2, 0), (3, 0), (3, 1), (3, 2), (3, 3), (2, 3), (1, 3), (0, 3), (0, 2), (0, 1)].getD c (0, 0)
  (4 * (tile % 8) + l.1, 4 * (tile / 8) + l.2)
/-- R114: the router of a home slice. -/
def sliceRouter (tile sl : Nat) : Nat × Nat :=
  let l := [(1, 1), (2, 1), (2, 2), (1, 2)].getD sl (1, 1)
  (4 * (tile % 8) + l.1, 4 * (tile / 8) + l.2)
/-- R115, R116: the router by which a packet from row y reaches the hub: the attachment nearer in Y. -/
def hubRouter (y : Nat) : Nat × Nat := (0, if y ≤ 1 then 1 else if y ≤ 3 then 2 else if y ≤ 5 then 5 else 6)
/-- R115: the router an off-package optical engine attaches to. -/
def engineRouter (e : Nat) : Nat × Nat := sliceRouter (e / 2) (if e % 2 = 0 then 0 else 2)
/-- R116: the router at which a packet bound for a physical address of this package leaves the mesh. The router of
the tile registers is a DESIGN CHOICE (log entry 30). -/
def targetRouter (pa y : Nat) : Nat × Nat :=
  match regionOf pa with
  | .hbm => sliceRouter (paTile pa) (homeSlice pa)
  | .l2ctl => sliceRouter (paTile pa) (homeSlice pa)
  | .scratch c _ => coreRouter (paTile pa) c
  | .weight c _ _ => coreRouter (paTile pa) c
  | .tileReg _ => sliceRouter (paTile pa) 0
  | .hub _ => hubRouter y
  | .unassigned => sliceRouter (paTile pa) 0
def slotRouter (slot : Nat) : Nat × Nat := coreRouter (tileOf slot) (coreOf slot % 12)
/-- R128: the engine of the direct path to a device: the one of its group. -/
def directEngine (dev : Nat) : Nat := dev / 32

/-- R115: the input that ends the way of a request: the hub's for the hub's registers and host memory, the engine's for
another device, otherwise the router's own. -/
def exitPort (s : State) (a : Access) : Nat :=
  if a.host then 6
  else if a.device ≠ s.cfg.device then 7
  else match regionOf a.pa with
    | .hub _ => 6
    | .hbm => 0 | .l2ctl => 0 | .scratch _ _ => 0 | .weight _ _ _ => 0 | .tileReg _ => 0 | .unassigned => 0
/-- R115: the part that sends the requests of an owner and takes their responses. -/
def entryPort : Owner → Nat
  | .host => 6 | .peer _ _ => 7 | .thread _ => 0 | .engine _ _ _ => 0 | .chain _ _ => 0 | .gone => 0
/-- An answer stands at its target, to be injected as a response. -/
def replyPlace (s : State) (a : Access) : Place := .out a.dst.1 a.dst.2 (exitPort s a) true

/-- The place of a packet in its queue: an input slot (router, port, channel), or the interface of a part, numbered 8 above
the part's port. -/
def slotAt (a : Access) : Option (Nat × Nat × Nat × Bool) :=
  match a.place with
  | .request x y p false => some (x, y, p, false)
  | .response x y p false => some (x, y, p, true)
  | .out x y p r => some (x, y, p + 8, r)
  | .request _ _ _ true => none | .response _ _ _ true => none
  | .waiting => none | .target => none | .back => none | .fabric => none | .absorbed => none
/-- R116: an access takes the last place of the queue where it now stands. -/
def joinQueue (s : State) (a : Access) (p : Place) : Access :=
  let b := { a with place := p, entered := s.cc }
  { b with order := ((s.accesses.filter fun c => decide (slotAt c.2 = slotAt b)).map fun c => c.2.order).foldl max 0 + 1 }

/-- A new access of an owner at a slot: its packet stands at the core's interface. A packet for another device goes to
the engine of the destination's group, by whatever path its frame then leaves (log entry 86). -/
def newAccess (s : State) (slot : Nat) (owner : Owner) (master : Nat) (op : AccOp) (pa : Nat) (host : Bool) : Access :=
  let src := slotRouter slot
  let pa := if host then pa else redirect s pa
  let dev := if host then s.cfg.device else paDevice pa
  { owner := owner, master := master, pa := pa, host := host, op := op, device := dev, src := src
    place := .out src.1 src.2 0 false
    dst := if host then hubRouter src.2 else if dev = s.cfg.device then targetRouter pa src.2 else engineRouter (directEngine dev) }
/-- R421: the rights of a full/empty action. -/
def feRight (k : FeKind) : Right :=
  match k with
  | .ldwf => rightR | .fetest => rightR | .ldwfe => rightR + rightW
  | .stwe => rightW | .stf => rightW | .feset => rightW | .feclr => rightW
/-- R421: the rights an access needs, and the bytes it touches. -/
def opRight : AccOp → Right
  | .read _ => rightR
  | .write _ => rightW
  | .amo _ _ _ => rightA
  | .cas _ _ _ => rightA
  | .cas2 _ _ => rightA
  | .fe k _ => feRight k
  | .bar _ _ _ => rightA
  | .shapepub _ _ => rightW
  | .chain _ => rightR
def opBytes : AccOp → Nat
  | .amo _ w _ => w.bytes
  | .cas w _ _ => w.bytes
  | .cas2 _ _ => 16
  | .read n => n
  | .write d => d.length
  | .fe _ _ => 8
  | .bar _ _ _ => 32
  | .shapepub _ _ => 8
  | .chain p => if p.step = p.nsteps then p.flen else 8
/-- R112, R366: another device refuses the access of a free value: the table it names. -/
def otherDenies (n : Nat) : Option Nat := if Config.peerAllows n then none else some (Config.peerTable n).toNat
/-- R112, R113: the refusal of an access of the host or of a peer, by the tables as they stand when it is sent. A thread's is
checked at its target, a chunk of an engine whole when it starts, a chain at the home of each step (R283). -/
def deniedNow (s : State) (a : Access) : Option Nat :=
  match a.owner with
  | .thread _ => none
  | .chain _ _ => none
  | .gone => none
  | .engine _ _ _ => a.denied
  | .host => refuse s a.master a.pa (opBytes a.op) (opRight a.op)
  | .peer _ _ => refuse s a.master a.pa (opBytes a.op) (opRight a.op)
/-- R146: the slot whose thread, or one of whose engines, waits for an access. -/
def ownerSlot : Owner → Option Nat
  | .thread k => some k
  | .engine k _ _ => some k
  | .chain k _ => some k
  | .host => none
  | .peer _ _ => none
  | .gone => none
/-- R146: the dispatch number of the thread that an access serves. -/
def servedBy (s : State) (a : Access) : Option Nat := (ownerSlot a.owner).bind fun k => (getThread s k).map Thread.dispatched
def isChain : AccOp → Bool
  | .chain _ => true
  | .read _ => false | .write _ => false | .amo _ _ _ => false | .cas _ _ _ => false | .cas2 _ _ => false | .fe _ _ => false | .bar _ _ _ => false
  | .shapepub _ _ => false
/-- R136: the class of the frame of an access; an engine's ordered flag has tag 1. One that its owner has given up keeps the
class it had. -/
def classOf (a : Access) : FrameClass :=
  if isChain a.op then .bulk
  else match (match a.owner, a.keeps with | .gone, some o => o.1 | o, _ => o) with
    | .engine _ _ _ => if a.tag = 1 then .flagged else .bulk
    | .thread _ => .ord | .host => .ord | .peer _ _ => .ord | .chain _ _ => .bulk | .gone => if a.buffered then .ord else .bulk
def peerAt (s : State) (d : Nat) : Peer := (look s.peers d).getD {}
def modPeer (d : Nat) (f : Peer → Peer) (s : State) : State := { s with peers := put s.peers d (f (peerAt s d)) }
def setAccess (id : Nat) (a : Access) (s : State) : State := { s with accesses := put s.accesses id a }
/-- Puts an access under way under a fresh number. -/
def sendAccess (a : Access) (s : State) : State :=
  { s with accesses := put s.accesses s.fresh { joinQueue s a a.place with denied := deniedNow s a }, fresh := s.fresh + 1 }
def sendAll (as : List Access) (s : State) : State := as.foldl (fun s a => sendAccess a s) s

/-- R73: a result that awaits the answer of `need` accesses (or of the hub) under a tag. -/
def lateItem (t : Thread) (rank lat tag need : Nat) (f : Form) : Item :=
  { due := clockOf t + lat - 1, issued := clockOf t, rank := rank, tag := tag, form := f, need := need }
/-- R376: an entry poisoned with a code. -/
def poisoned (code : Nat) (cause : Nat) (a0 a1 : W64) : Trap := { code := code, place := 0xB, cause := cause, arg0 := a0, arg1 := a1 }

/-- R59: the extension of a load. -/
def extendLoad (sz : LoadSize) (b : List Byte) : W64 :=
  if sz.signed then BitVec.ofInt 64 (signedOf (8 * sz.bytes) (leNat b)) else nat64 b
/-- R197: a loaded vector under m7. -/
def maskLoad (m : Mask) (b : List Byte) : Vec := (List.range 96).map fun i => if m.getLsbD i then (lanesOf b).getD i 0 else 0
/-- R197: the bytes a masked vector store writes. -/
def maskStore (m : Mask) (v : Vec) : List (Option Byte) :=
  (List.range 96).flatMap fun i => if m.getLsbD i then (bytes32 (v.getD i 0)).map some else [none, none, none, none]

/-- R273, R298, R59: the result that complete answer bytes make. -/
def formResult (f : Form) (b : List Byte) : Result :=
  match f with
  | .load sz => .scalar (.val (extendLoad sz b))
  | .vector m => .vector (.val (maskLoad m b))
  | .old n _ => if n = 16 then .scalars (.val (nat64 (b.take 8))) (.val (nat64 (b.drop 8))) else .scalar (.val (nat64 b))
  | .barq _ => .scalar (.val (nat64 b))
  | .walk _ _ _ => .scalar (.val (nat64 b))
  | .status => .scalar (.val (nat64 b))
/-- R376: the result of an answer that brings no data. -/
def formPoison (f : Form) (tr : Trap) : Result :=
  match f with
  | .vector _ => .vector (.poison tr)
  | .old n _ => if n = 16 then .scalars (.poison tr) (.poison tr) else .scalar (.poison tr)
  | .load _ => .scalar (.poison tr)
  | .barq _ => .scalar (.poison tr)
  | .walk _ _ _ => .scalar (.poison tr)
  | .status => .scalar (.poison tr)

/-- Insert a part in ascending order. -/
def insertPart (x : Nat × List Byte) : List (Nat × List Byte) → List (Nat × List Byte)
  | [] => [x]
  | y :: ys => if x.1 < y.1 then x :: y :: ys else y :: insertPart x ys
/-- A part of an answer reaches its item; the last part completes it. -/
def Item.receive (i : Item) (part : Nat) (b : List Byte) (f : FpFlags) (bad : Option Trap) : Item :=
  let parts := insertPart (part, b) i.parts
  let bad := match i.bad with | some x => some x | none => bad
  let i := { i with parts := parts, bad := bad, flags := i.flags.or f }
  if parts.length < i.need then i
  else match bad with
    | some tr => { i with value := some (formPoison i.form tr) }
    | none => { i with value := some (formResult i.form (parts.flatMap Prod.snd)) }
/-- Changes the results of a slot under a tag, in flight or saved for a trapped thread's return; one whose push has
already come due is late (R73). -/
def modItems (k tag : Nat) (f : Item → Item) (s : State) : State :=
  modThread k (fun t =>
    let go := fun (i : Item) => if tag ≠ 0 ∧ i.tag = tag then { f i with late := i.late || decide (i.due < clockOf t) } else i
    { t with
      flight := t.flight.map go
      saved := t.saved.map fun v => { v with pending := v.pending.map go } }) s
/-- An answer reaches the results of a slot. -/
def receiveTag (k tag part : Nat) (b : List Byte) (f : FpFlags) (bad : Option Trap) (s : State) : State :=
  modItems k tag (fun i => i.receive part b f bad) s
/-- The hub's or a walk's answer: a value, with what the push does besides. -/
def answerTag (k tag : Nat) (r : Result) (p : Post) (s : State) : State :=
  modItems k tag (fun i => { i with value := some r, post := p }) s

/-- R302, R334: a launch of the thread that has still to read its descriptor and arguments. -/
def launchReads (s : State) (k : Nat) : Bool :=
  s.hubReqs.any fun r => decide (r.slot = k) && r.kept.isNone && (match r.ask with | .launch _ _ _ _ => true | .join _ _ _ => false | .leave _ => false | .query _ => false)
/-- R299, R302: a thread's device access, or a read of its launch, that has not performed. -/
def deviceBusy (s : State) (k : Nat) : Bool :=
  (s.accesses.any fun a => decide (a.2.owner = .thread k) && !a.2.host && !a.2.performed && a.2.answer.isNone) || launchReads s k
/-- R296: a global access of a thread, or a read of its launch, that has not performed. -/
def globalBusy (s : State) (k : Nat) : Bool :=
  (s.accesses.any fun a => decide (a.2.owner = .thread k) && !a.2.performed && a.2.answer.isNone) || launchReads s k
/-- R318, R355: bytes of the scratchpad window of a speculative block, running or halted and not yet committed, that another
master may not reach. `slot` is the slot whose thread or engines make the access. -/
def closedTo (s : State) (slot : Option Nat) (pa n : Nat) : Bool :=
  match regionOf pa with
  | .scratch c o =>
    let meets := fun (core : Nat) (win : W64) => decide (core = 12 * paTile pa + c) && decide (o < scrEnd win) && decide (scrBase win < o + n)
    decide (paDevice pa = s.cfg.device)
      && ((s.threads.any fun x => x.2.spec && meets (coreOf x.1) x.2.sys.scrwin && decide (slot ≠ some x.1))
        || s.parked.any fun p => meets (coreOf p.slot) p.scrwin)
  | .hbm => false | .l2ctl => false | .weight _ _ _ => false | .tileReg _ => false | .hub _ => false | .unassigned => false
def heldBySpec (s : State) (a : Access) : Bool := !a.host && closedTo s (ownerSlot a.owner) a.pa (opBytes a.op)
/-- R205: the store buffer has room for n more entries. -/
def bufferRoom (s : State) (k n : Nat) : Bool := decide (bufferUsed s k + n ≤ 16)
/-- R120, R205: a store that awaits injection. -/
def storeWaiting (s : State) (k : Nat) : Bool := s.accesses.any fun a => decide (a.2.owner = .thread k) && decide (a.2.place = .waiting)
/-- R120: n more response-receive slots are free. -/
def respRoom (s : State) (o : Owner) (n : Nat) : Bool := decide (slotsUsed s o + n ≤ 8)

end Sys2Proof.Machine
end

