-- ==== Sys2Proof/Machine/Translate.lean ====
section
/-! DEFINITION. Translation: canonical addresses, the table walk, the TLBs, the translation of a fetch, and the
granule counters that walks and line accesses add to (R81, R86 to R91, R104). -/

namespace Sys2Proof.Machine

/-! R95: fault causes. -/

def cNotMapped := 1
def cNonCanon := 2
def cSystem := 3
def cTable := 4
def cWalkErr := 5
def cNoExec := 6

/-- R81: bits [63:57] all equal bit 56. -/
def canonical (va : W64) : Bool := decide (bits va.toNat 56 8 = 0) || decide (bits va.toNat 56 8 = 255)
def systemHalf (va : W64) : Bool := flag va.toNat 56
/-- R81: the address space that translates va for a thread. -/
def spaceOf (t : Thread) (va : W64) : Nat := if systemHalf va then 0 else bits t.sys.asidreg.toNat 0 16

/-- What a translation found: a leaf with its level, or a fault with its cause and level. -/
inductive Found where
  | leaf (w : W64) (level : Nat)
  | fault (cause level : Nat)
  deriving DecidableEq, Repr

/-- R86: index bits (low bit, count) of each level, and the alignment of a table of it. -/
def indexLow (l : Nat) : Nat := [43, 30, 21, 16].getD l 16
def indexCount (l : Nat) : Nat := [14, 13, 9, 5].getD l 5
def tableAlign (l : Nat) : Nat := [2 ^ 17, 2 ^ 16, 2 ^ 12, 2 ^ 8].getD l 256
def leafSize (l : Nat) : PageSize := if l = 1 then .g1 else if l = 2 then .m2 else .k64
/-- R86: an address in this device's HBM. -/
def ownHbm (s : State) (pa : Nat) : Bool := decide (paDevice pa = s.cfg.device) && isHbm pa && decide (pa < 2 ^ 56)
/-- R88: a malformed leaf for a page size. -/
def badLeaf (p : W64) (size : Nat) : Bool :=
  let w := p.toNat
  decide (2 ≤ bits w 62 2) || decide (bits w 56 6 ≠ 0) || decide (bits w 10 6 ≠ 0) || flag w 8 || flag w 1
    || decide (bits w 16 40 * 2 ^ 16 % size ≠ 0)
/-- R88: a malformed pointer of a level. -/
def badPointer (s : State) (p : W64) (l : Nat) : Bool :=
  let w := p.toNat
  let next := bits w 8 48 * 256
  decide (bits w 56 8 ≠ 0) || decide (bits w 1 6 ≠ 0) || decide (next % tableAlign (l + 1) ≠ 0) || !ownHbm s next

/-- R89, R421: the cause with which the read of 8 bytes of a table by a master fails: an uncorrectable error, or a
refusal by the access tables, as WALKERR (log entry 87). -/
def readFails (s : State) (m a : Nat) : Bool := lineBad s a 8 || (refuse s m a 8 rightR).isSome
/-- R89: the levels from l on, from table t, for a master: what is found, and the addresses read. -/
def walkFrom (s : State) (m va : Nat) : Nat → Nat → Nat → Found × List Nat
  | 0, _, l => (.fault cTable l, [])
  | n + 1, t, l =>
    let a := t + 8 * bits va (indexLow l) (indexCount l)
    let p := nat64 (readPa s a 8)
    if readFails s m a then (.fault cWalkErr l, [a])
    else if ¬ flag p.toNat 0 then (.fault cNotMapped l, [a])
    else if flag p.toNat 7 ∨ l = 3 then
      if l = 0 ∨ ¬ flag p.toNat 7 ∨ badLeaf p (2 ^ indexLow l) then (.fault cTable l, [a]) else (.leaf p l, [a])
    else if badPointer s p l then (.fault cTable l, [a])
    else
      let r := walkFrom s m va n (bits p.toNat 8 48 * 256) (l + 1)
      (r.1, a :: r.2)
/-- R87, R89: the walk for a master. A table outside this device's HBM fails with TABLE (R86; log entry 31), and a read
of the address-space table that fails does so with WALKERR at level 0 (log entry 87). -/
def walkTables (s : State) (m asid : Nat) (va : W64) : Found × List Nat :=
  if ¬ flag s.asidtab.toNat 63 then (.fault cNotMapped 0, [])
  else
    let a := bits s.asidtab.toNat 19 37 * 2 ^ 19 + 8 * asid
    let e := (nat64 (readPa s a 8)).toNat
    if ¬ ownHbm s a then (.fault cTable 0, [])
    else if readFails s m a then (.fault cWalkErr 0, [a])
    else if ¬ flag e 63 then (.fault cNotMapped 0, [a])
    else if bits e 56 6 ≠ 0 ∨ bits e 0 17 ≠ 0 ∨ ¬ ownHbm s (bits e 17 39 * 2 ^ 17) then (.fault cTable 0, [a])
    else
      let r := walkFrom s m va.toNat 4 (bits e 17 39 * 2 ^ 17) 0
      (r.1, a :: r.2)

/-! Granule counters (R104). -/

def sat16 (n : Nat) : Nat := min n 0xFFFF
/-- R104: a line access of a master on a tile of a device counts at the granule; masters at the hub are on no tile. -/
def countLine (pa dev : Nat) (tile : Option Nat) (s : State) : State :=
  if ¬ isHbm pa then s
  else
    let g := (look s.granules (pa / 65536)).getD {}
    let g1 : Granule :=
      if dev ≠ paDevice pa then { g with peer := sat16 (g.peer + 1), lastDev := dev }
      else if tile = some (paTile pa) then { g with loc := sat16 (g.loc + 1) }
      else { g with pkg := sat16 (g.pkg + 1), lastTile := tile.getD g.lastTile }
    { s with granules := put s.granules (pa / 65536) g1 }
/-- Each table read of a walk counts as a line access of the walking tile. -/
def countReads (dev : Nat) (tile : Nat) (as : List Nat) (s : State) : State := as.foldl (fun s a => countLine a dev (some tile) s) s
/-- R109: the tile of a master. -/
def masterTile (m : Nat) : Option Nat :=
  let l := m % 4096
  if l < 768 then some (tileOf l) else if l < 3072 then some (tileOf ((l - 768) / 3)) else none
/-- R104: the word of a granule. -/
def granuleWord (g : Granule) : W64 :=
  BitVec.ofNat 64 (g.loc * 2 ^ 48 + g.pkg * 2 ^ 32 + g.peer * 2 ^ 16 + bit g.g * 2 ^ 15 + g.lastTile * 2 ^ 10 + g.lastDev)

/-! Directory and leases (R104, R208, R304). -/

def dirOf (s : State) (pa : Nat) : Dir := (look s.dir (pa / 64)).getD {}
/-- R304: a read extends the lease past the reader's clock; answers the reader's new clock. -/
def leaseRead (pa clock : Nat) (s : State) : Nat × State :=
  if ¬ isHbm pa then (clock + 1, s)
  else
    let d := dirOf s pa
    let c := max (clock + 1) d.wtime
    (c, { s with dir := put s.dir (pa / 64) { d with lease := max d.lease (c + Config.leaseLength s.freeCount) }, freeCount := s.freeCount + 1 })
/-- R304, R104: a write takes a time beyond every lease; a grant of ownership sets G of the granule. -/
def grantWrite (pa master clock : Nat) (s : State) : Nat × State :=
  if ¬ isHbm pa then (clock + 1, s)
  else
    let d := dirOf s pa
    let c := max (max clock d.wtime) d.lease + 1
    let g := (look s.granules (pa / 65536)).getD {}
    (c, { s with
      dir := put s.dir (pa / 64) { d with wtime := c, owner := some master }
      granules := if d.owner = some master then s.granules else put s.granules (pa / 65536) { g with g := true } })
/-- R292: ownership of every line that n bytes touch. -/
def grantBytes (pa n master clock : Nat) (s : State) : Nat × State :=
  (lineStarts pa n).foldl (fun r a => grantWrite a master r.1 r.2) (clock, s)
/-- R104, R106, R107, R304: a line access by which firmware, or a thread's instruction, writes an entry of a table or a pool: it
counts at its granule by its master's tile, takes ownership of the line, and so sets G. -/
def tableWrite (master pa : Nat) (b : List Byte) (s : State) : State :=
  writePa pa b (grantWrite pa master 0 (countLine pa (master / 4096) (masterTile master) s)).2

/-! TLBs (R90). -/

def Tlb.hits (e : Tlb) (asid : Nat) (va : W64) : Bool :=
  decide (e.asid = asid) && decide (e.base ≤ va.toNat) && decide (va.toNat < e.base + e.size.bytes)
/-- R90: a translation found in the core's or the tile's TLB. -/
def tlbLookup (s : State) (slot asid : Nat) (va : W64) : Option (W64 × Nat) :=
  ((((look s.tlb1 (coreOf slot)).getD [] ++ (look s.tlb2 (tileOf slot)).getD []).find? fun e => e.hits asid va)).map
    fun e => (e.leaf, e.level)
/-- R90: a leaf that a walk returned enters both TLBs; a full TLB loses its oldest entry (log entry 32). -/
def tlbFill (slot asid : Nat) (va leaf : W64) (level : Nat) (s : State) : State :=
  let size := leafSize level
  let e : Tlb := { asid := asid, base := va.toNat / size.bytes * size.bytes, size := size, leaf := leaf, level := level }
  { s with
    tlb1 := put s.tlb1 (coreOf slot) ((e :: (look s.tlb1 (coreOf slot)).getD []).take 64),
    tlb2 := put s.tlb2 (tileOf slot) ((e :: (look s.tlb2 (tileOf slot)).getD []).take 2048) }

/-- R94: the handle that a leaf or a fault makes. -/
def handleFrom (va : W64) (req asid : Nat) (sys : Bool) : Found → Handle
  | .fault c l => { state := .faulted, origin := va, req := req, cause := c, level := l, asid := asid }
  | .leaf w l =>
    if flag w.toNat 6 && !sys then { state := .faulted, origin := va, req := req, cause := cSystem, level := l, asid := asid }
    else
      let size := leafSize l
      { state := .valid, origin := va, req := req, base := va.toNat / size.bytes * size.bytes, size := size
        frame := bits w.toNat 16 40 * 2 ^ 16, host := decide (bits w.toNat 62 2 = 1)
        grant := req &&& (4 * bit (flag w.toNat 5) + 2 * bit (flag w.toNat 3) + bit (flag w.toNat 2)), asid := asid }

/-! The fetch of a bundle (R91, R376). -/

inductive Fetched where
  | miss
  | trap (t : Trap)
  | word (w : BitVec 128)
  deriving DecidableEq, Repr
def fetchFaultTrap (pc : W64) (cause level : Nat) : Trap :=
  { code := tPageFault, place := 5, cause := cause, level := level, arg0 := pc }
/-- R376: a correctable error in the line of the bundle that PC names is corrected and counted. -/
def fetchSoft (k : Nat) (s : State) : State :=
  match getThread s k with
  | none => s
  | some t => match tlbLookup s k (spaceOf t t.pc) t.pc with
    | none => s
    | some (w, l) =>
      if bits w.toNat 62 2 = 1 then s else fixSoft (redirect s (bits w.toNat 16 40 * 2 ^ 16 + t.pc.toNat % (leafSize l).bytes)) 16 s
/-- R91: the translation of PC and the bundle it names; `fetchFault` holds what a failed walk found. A fetch from an
unassigned offset or an unreachable device fails as an access there does (R84; log entry 33). -/
def fetchBundle (s : State) (k : Nat) (t : Thread) : Fetched :=
  if ¬ canonical t.pc then .trap (fetchFaultTrap t.pc cNonCanon 0)
  else if systemHalf t.pc && !t.system then .trap (fetchFaultTrap t.pc cSystem 0)
  else match t.fetchFault with
    | some f => .trap (fetchFaultTrap t.pc f.1 f.2)
    | none =>
      match tlbLookup s k (spaceOf t t.pc) t.pc with
      | none => .miss
      | some (w, l) =>
        if flag w.toNat 6 && !t.system then .trap (fetchFaultTrap t.pc cSystem l)
        else if ¬ flag w.toNat 4 then .trap (fetchFaultTrap t.pc cNoExec l)
        else
          let off := t.pc.toNat % (leafSize l).bytes
          let pa := bits w.toNat 16 40 * 2 ^ 16 + off
          if bits w.toNat 62 2 = 1 then .word (BitVec.ofNat 128 (leNat (readHost s pa 16)))
          else
            let pa := redirect s pa
            if ¬ reachable s (paDevice pa) then .trap (trapOf tPeerUnreachable 5 t.pc (BitVec.ofNat 64 (paDevice pa)))
            else if regionOf pa = .unassigned then .trap (trapOf tAccessDenied 5 t.pc)
            else if lineBad s pa 16 then .trap { trapOf tMemUncorrectable 5 (BitVec.ofNat 64 (pa / 64 * 64)) with cause := 2 }
            else .word (BitVec.ofNat 128 (leNat (readPa s pa 16)))

end Sys2Proof.Machine
end

