-- ==== Sys2Proof/Machine/Handles.lean ====
section
/-! DEFINITION. The handle instructions of a thread (R93 to R96). -/

namespace Sys2Proof.Machine

/-- R94: a result of `xlat` whose translation is known. -/
def xlatItem (t : Thread) (h : Fin 16) (v : Handle) : Item :=
  { itemOf t 0 8 (.scalar (.val (handleWord v))) .none with post := .handle h v }
/-- R94: a result of `xlat` that awaits a walk. -/
def xlatWalk (k asid : Nat) (t : Thread) (h : Fin 16) (va : W64) (req : Nat) (s : State) : State :=
  addItem k (lateItem t 0 8 s.fresh 1 (.walk h va req))
    { s with walks := s.walks ++ [{ slot := k, tag := s.fresh, asid := asid, va := va, fetch := false, tile := tileOf k }], fresh := s.fresh + 1 }
/-- R94: the lookup at issue. -/
def xlatLookup (k : Nat) (t : Thread) (h : Fin 16) (va : W64) (req : Nat) (s : State) : State :=
  if ¬ canonical va then addItem k (xlatItem t h (handleFrom va req 0 t.system (.fault cNonCanon 0))) s
  else if systemHalf va && !t.system then addItem k (xlatItem t h (handleFrom va req 0 t.system (.fault cSystem 0))) s
  else match tlbLookup s k (spaceOf t va) va with
    | some (w, l) => addItem k (xlatItem t h (handleFrom va req (spaceOf t va) t.system (.leaf w l))) s
    | none => xlatWalk k (spaceOf t va) t h va req s
def opXlat (a : SSpec) (h : Fin 16) (p : BitVec 3) : Op :=
  { run := fun _ k _ t =>
      { traps := if p = 0 then [] else poisonS t [a]
        act := fun s =>
          if p = 0 then
            let x := handleOf t h
            if x.state = .empty then addItem k { itemOf t 0 8 (.scalar (.val 0)) .none with post := .word h } s
            else xlatLookup k t h x.origin x.req s
          else xlatLookup k t h (readS t a) p.toNat s } }
def opHdrop (h : Fin 16) : Op :=
  { run := fun _ k _ _ => { act := modThread k fun t => { t with handles := t.handles.set h.val {} } } }
/-- R96: the bytes left in the page. -/
def bytesLeft (h : Handle) (off : W64) : W64 :=
  let x := (h.origin + off).toNat
  if h.state = .valid ∧ h.base ≤ x ∧ x < h.base + h.size.bytes then BitVec.ofNat 64 (h.base + h.size.bytes - x) else 0
def opHchk (a : SSpec) (h : Fin 16) : Op :=
  { run := fun _ k _ t =>
      { traps := poisonS t [a]
        act := addItem k (itemOf t 0 1 (.scalar (.val (bytesLeft (handleOf t h) (readS t a)))) .none) } }
def opHinfo (h : Fin 16) : Op :=
  { run := fun _ k _ t => { act := addItem k (itemOf t 0 1 (.scalar (.val (handleWord (handleOf t h)))) .none) } }

end Sys2Proof.Machine
end

