-- ==== Sys2Proof/Machine/Local.lean ====
section
/-! DEFINITION. Accesses to scratchpads by address: local loads and stores, gathers and scatters (R74, R196 to R198),
and the full/empty forms (R199 to R203). -/

namespace Sys2Proof.Machine

/-- R58, R196: x := (base + imm × g) mod 2^64. -/
def effAddr {n : Nat} (t : Thread) (b : SSpec) (i : BitVec n) (g : Nat) : W64 := addOffset (readS t b) (simm i * g)
/-- R74: while the passes of a gather or scatter run, the core ports of the scratchpad are taken. -/
def portBusy (s : State) (k : Nat) : Bool :=
  s.threads.any fun x => decide (coreOf x.1 = coreOf k) && x.2.gather.isSome
/-- R74, R300, R302: an access to the own scratchpad performs as its bundle issues, so that the bundle is held while the
port is taken and while an earlier device access of the thread has not performed (log entry 89). -/
def localHeld (s : State) (k : Nat) : Bool := portBusy s k || deviceBusy s k
def ownPa (s : State) (k : Nat) (x : W64) : Nat := scratchPa s (coreOf k) x.toNat
/-- R376: the bytes of a local read, or the poison of an uncorrectable error. -/
def localRead (s : State) (k : Nat) (x : W64) (n : Nat) : Entry (List Byte) :=
  let pa := ownPa s k x
  if lineBad s pa n then .poison (poisoned tMemUncorrectable 1 (BitVec.ofNat 64 (pa / 64 * 64)) 0) else .val (readPa s pa n)
def entryMap {α β : Type} (f : α → β) : Entry α → Entry β
  | .val v => .val (f v)
  | .poison p => .poison p

def opLd (b : SSpec) (sz : LoadSize) (i : BitVec 16) : Op :=
  { run := fun place k s t =>
      let x := effAddr t b i sz.bytes
      { traps := poisonS t [b] ++ localTraps t place x sz.bytes
        hold := localHeld s k
        act := fun u => addItem k (itemOf t 0 5 (.scalar (entryMap (extendLoad sz) (localRead s k x sz.bytes))) .none) (tickClock k u) } }
def opSt (b : SSpec) (sz : StoreSize) (d : SSpec) (i : BitVec 11) : Op :=
  { run := fun place k s t =>
      let x := effAddr t b i sz.bytes
      { traps := poisonS t [b, d] ++ localTraps t place x sz.bytes
        hold := localHeld s k
        act := fun u => writePa (ownPa s k x) (leBytes sz.bytes (readS t d).toNat) (tickClock k u) } }
def opVld (b : SSpec) (i : BitVec 16) : Op :=
  { run := fun place k s t =>
      let x := effAddr t b i 64
      { traps := poisonS t [b] ++ localTraps t place x 384
        hold := localHeld s k
        act := fun u => addItem k (itemOf t 0 5 (.vector (entryMap (maskLoad (readMask t 7)) (localRead s k x 384))) .none) (tickClock k u) } }
def opVst (b : SSpec) (d : VSpec) (i : BitVec 11) : Op :=
  { run := fun place k s t =>
      let x := effAddr t b i 64
      { traps := poisonS t [b] ++ poisonV t [d] ++ localTraps t place x 384
        hold := localHeld s k
        act := fun u =>
          let u := tickClock k u
          { u with mem := u.mem.storeMasked (ownPa s k x) (maskStore (readMask t 7) (readVec t d)) } } }

/-- R197: the active lanes of an access with their addresses. -/
def laneAddrs (t : Thread) (f : Nat → W64) : List (Nat × W64) :=
  ((List.range 96).filter fun i => (readMask t 7).getLsbD i).map fun i => (i, f i)
/-- R196: each active lane is checked with w = 4; the first failing lane traps. -/
def lanesTraps (t : Thread) (place : Nat) (as : List (Nat × W64)) : List Trap := (as.flatMap fun a => localTraps t place a.2 4).take 1
/-- R74: the bank of an address, and how many active lanes fall in one. -/
def bankOf (x : W64) : Nat := bits x.toNat 6 4
def bankLoad (as : List (Nat × W64)) (b : Nat) : Nat := (as.filter fun a => decide (bankOf a.2 = b)).length
/-- R74: SCHEDULE names the first bank with more than 8 lanes. -/
def scheduleTraps (place : Nat) (as : List (Nat × W64)) : List Trap :=
  match (List.range 16).find? fun b => decide (8 < bankLoad as b) with
  | some b => [trapOf tSchedule place 0 0 b]
  | none => []
def strideAddr (t : Thread) (a b : SSpec) (i : Nat) : W64 := readS t a + BitVec.ofNat 64 i * readS t b
/-- The lanes read now, as a result: lanes not given are 0; a bad line poisons it. -/
def gatherNow (s : State) (k : Nat) (as : List (Nat × W64)) : Entry Vec :=
  match as.findSome? fun a => (match localRead s k a.2 4 with | .poison p => some p | .val _ => none) with
  | some p => .poison p
  | none => .val ((List.range 96).map fun i => match as.find? fun a => decide (a.1 = i) with
      | some a => BitVec.ofNat 32 (leNat (readPa s (ownPa s k a.2) 4))
      | none => 0)
/-- R198: lanes written in ascending order, so that the highest-numbered lane of a word stands. -/
def scatterNow (s : State) (k : Nat) (v : Vec) (as : List (Nat × W64)) (u : State) : State :=
  as.foldl (fun u a => writePa (ownPa s k a.2) (bytes32 (v.getD a.1 0)) u) u
/-- R74, R365: the traps of a strided access; a poisoned operand leaves no addresses to check. -/
def strideTraps (t : Thread) (place : Nat) (a b : SSpec) (c : List VSpec) (as : List (Nat × W64)) : List Trap :=
  let p := poisonS t [a, b] ++ poisonV t c
  if p.isEmpty then lanesTraps t place as ++ scheduleTraps place as else p
def opVlds (a b : SSpec) : Op :=
  { run := fun place k s t =>
      let as := laneAddrs t (strideAddr t a b)
      { traps := strideTraps t place a b [] as
        hold := localHeld s k
        act := fun u => addItem k (itemOf t 0 5 (.vector (gatherNow s k as)) .none) (tickClock k u) } }
def opVsts (a b : SSpec) (c : VSpec) : Op :=
  { run := fun place k s t =>
      let as := laneAddrs t (strideAddr t a b)
      { traps := strideTraps t place a b [c] as
        hold := localHeld s k
        act := fun u => scatterNow s k (readVec t c) as (tickClock k u) } }

/-- R74: the lanes the next pass serves, up to 8 per bank in ascending order, and the lanes left. -/
def splitPass : List (Nat × Nat × W32) → (Nat → Nat) → List (Nat × Nat × W32) × List (Nat × Nat × W32)
  | [], _ => ([], [])
  | x :: xs, cnt =>
    let b := bits x.2.1 6 4
    if cnt b < 8 then
      let r := splitPass xs fun c => if c = b then cnt c + 1 else cnt c
      (x :: r.1, r.2)
    else
      let r := splitPass xs cnt
      (r.1, x :: r.2)
/-- R74: the passes a gather or scatter needs. -/
def passCount (as : List (Nat × W64)) : Nat := ((List.range 16).map fun b => (bankLoad as b + 7) / 8).foldl max 1
/-- R74: one pass of the gather or scatter of slot k. -/
def gatherPass (k : Nat) (s : State) : State :=
  match getThread s k with
  | none => s
  | some t =>
    match t.gather with
    | none => s
    | some g =>
      let sp := splitPass g.left fun _ => 0
      let s1 := if g.store then sp.1.foldl (fun u x => writePa (scratchPa s (coreOf k) x.2.1) (bytes32 x.2.2) u) s else s
      let got := g.got ++ (if g.store then [] else sp.1.map fun x => (x.1, BitVec.ofNat 32 (leNat (readPa s (scratchPa s (coreOf k) x.2.1) 4))))
      let bad := if g.store then none else sp.1.findSome? fun x =>
        (match localRead s k (BitVec.ofNat 64 x.2.1) 4 with | .poison p => some p | .val _ => none)
      let v : Entry Vec := match bad with
        | some p => .poison p
        | none => .val ((List.range 96).map fun i => match got.find? fun a => decide (a.1 = i) with | some a => a.2 | none => 0)
      let s2 := if sp.2.isEmpty || bad.isSome then
          answerTag k g.tag (.vector v) .none (modThread k (fun t => { t with gather := none }) s1)
        else modThread k (fun t => { t with gather := some { g with left := sp.2, got := got, last := s.cc } }) s1
      s2
def gatherAddr (t : Thread) (a : SSpec) (b : VSpec) (i : Nat) : W64 := readS t a + ((readVec t b).getD i 0).zeroExtend 64
/-- R74, R198: the first pass in the issuing cc, the others one per cc after it, which make the result a late item. -/
def opVgath (a : SSpec) (b : VSpec) : Op :=
  { run := fun place k s t =>
      let as := laneAddrs t (gatherAddr t a b)
      { traps := poisonS t [a] ++ poisonV t [b] ++ lanesTraps t place as
        hold := localHeld s k
        act := fun u =>
          let it : Item := { lateItem t 0 13 u.fresh 1 (.vector 0) with notBefore := s.cc + 12 + (passCount as - 1), late := decide (1 < passCount as) }
          let u := addItem k it { u with fresh := u.fresh + 1 }
          let g : Gather := { tag := it.tag, store := false, left := as.map (fun x => (x.1, x.2.toNat, 0)), got := [] }
          gatherPass k (modThread k (fun t => { t with gather := some g, clock := t.clock + 1 }) u) } }
def opVscat (a : SSpec) (b c : VSpec) : Op :=
  { run := fun place k s t =>
      let as := laneAddrs t (gatherAddr t a b)
      { traps := poisonS t [a] ++ poisonV t [b, c] ++ lanesTraps t place as
        hold := localHeld s k
        act := fun u =>
          let g : Gather := { tag := 0, store := true, left := as.map (fun x => (x.1, x.2.toNat, (readVec t c).getD x.1 0)), got := [] }
          gatherPass k (modThread k (fun t => { t with gather := some g, clock := t.clock + 1 }) u) } }

/-! R199 to R203: full/empty forms. -/

/-- R200: the condition an action waits for. -/
def feCond (k : FeKind) (f : Bool) : Bool :=
  match k with
  | .ldwf => f | .ldwfe => f | .stwe => !f
  | .stf => true | .feset => true | .feclr => true | .fetest => true
/-- R200: the action on the word at a physical address: its value (or F) and the new state. -/
def feAct (k : FeKind) (data : W64) (pa : Nat) (s : State) : W64 × State :=
  let w := nat64 (readPa s pa 8)
  match k with
  | .ldwf => (w, s)
  | .ldwfe => (w, setFull pa false s)
  | .stwe => (0, setFull pa true (writePa pa (bytes64 data) s))
  | .stf => (0, setFull pa true (writePa pa (bytes64 data) s))
  | .feset => (0, setFull pa true s)
  | .feclr => (0, setFull pa false s)
  | .fetest => (BitVec.ofNat 64 (bit (isFull s pa)), s)
/-- R200: whether the form pushes a result. -/
def fePushes (k : FeKind) : Bool :=
  match k with
  | .ldwf => true | .ldwfe => true | .fetest => true
  | .stwe => false | .stf => false | .feset => false | .feclr => false
/-- R202: the deadline of a wait that begins now. -/
def feDeadline (s : State) (t : Thread) : Option Nat := if t.sys.felimit = 0 then none else some (s.cc + t.sys.felimit.toNat)
/-- R201: a waiter joins the end of a word's list. -/
def addWaiter (pa : Nat) (w : Waiter) (s : State) : State :=
  { s with waiters := put s.waiters (pa / 8) ((look s.waiters (pa / 8)).getD [] ++ [w]) }
/-- R199: a remote word: bit 28 set, bits [63:29] zero. -/
def feRemote (x : W64) : Bool := decide (x.toNat / 2 ^ 28 = 1)
def feRemotePa (s : State) (x : W64) : Nat := scratchPa s (bits x.toNat 20 8) (bits x.toNat 0 20)

/-- R284: the trap that a chain's fault status raises when it is consumed, and R286: its fields. -/
def chainTrap (idx : Nat) (c : Chain) : Trap :=
  let code := c.word.toNat / 2 ^ 60
  let t := if code = 7 then tAccessDenied else if code = 8 then tMemUncorrectable else if code = 9 then tPeerUnreachable else tChainFault
  { code := t, place := 0x9, deferred := true, cause := if t = tChainFault then code else if t = tMemUncorrectable then 4 else 0,
    arg0 := BitVec.ofNat 64 c.addr, arg1 := c.word, source := .chain idx }
/-- R286: a FAULTED entry whose STAT is the address. -/
def faultedAt (t : Thread) (x : W64) : Option (Nat × Chain) :=
  t.chains.find? fun c => decide (c.2.state = .faulted) && decide (c.2.stat = x.toNat)
def consumesChain (k : FeKind) : Bool := match k with
  | .ldwf => true | .ldwfe => true
  | .stwe => false | .stf => false | .feset => false | .feclr => false | .fetest => false

/-- R199: the traps of the address, as its request is sent, and R286: of the consumption of a chain status. -/
def feTraps (s : State) (t : Thread) (k place : Nat) (fk : FeKind) (x : W64) : List Trap :=
  if t.wait.isSome && !decide (x.toNat < 2 ^ 20) then []
  else if x.toNat < 2 ^ 20 then
    localTraps t place x 8 ++ (if consumesChain fk then (match faultedAt t x with | some c => [chainTrap c.1 c.2] | none => []) else [])
  else if feRemote x then
    if x.toNat % 8 ≠ 0 then [trapOf tAlign place x]
    else if 191 < bits x.toNat 20 8 then [trapOf tScratchBound place x]
    else match refuse s (threadMaster s k) (feRemotePa s x) 8 (feRight fk) with
      | some a => [trapOf tAccessDenied place x (BitVec.ofNat 64 a)]
      | none => []
  else [trapOf tScratchBound place x]
/-- R202: a wait whose deadline has passed raises FE_TIMEOUT. -/
def expiredTrap (t : Thread) (place : Nat) (x : W64) : List Trap :=
  match t.wait with
  | some w => if w.expired then [trapOf tFeTimeout place x] else []
  | none => []
def feResult (t : Thread) (fk : FeKind) (e : Entry W64) (k : Nat) (u : State) : State :=
  if fePushes fk then addItem k (itemOf t 0 5 (.scalar e) .none) u else u
/-- R199 to R201: a full/empty form. A local form whose condition holds at issue acts then; otherwise it waits in the
word's list. A remote form pauses until its answer arrives. -/
def opFe (fk : FeKind) (addr : Thread → W64) (data : Thread → W64) (ops : List SSpec) : Op :=
  { run := fun place k s t =>
      let x := addr t
      let own := decide (x.toNat < 2 ^ 20)
      let pa := if own then ownPa s k x else feRemotePa s x
      let entry : Wait → Entry W64 := fun w => match w.bad with | some p => .poison p | none => .val w.value
      { traps := poisonS t ops ++ expiredTrap t place x ++ feTraps s t k place fk x
        hold := match t.wait with
          | some w => !w.answered
          | none => if own then localHeld s k || !feCond fk (isFull s pa) else true
        starts := t.wait.isNone && (if own then !localHeld s k else !t.spec && !storeWaiting s k && respRoom s (.thread k) 1)
        onHold := fun u => match t.wait with
          | some _ => u
          | none =>
            let w : Wait := { kind := .fe, deadline := feDeadline s t, since := s.cc }
            if own then
              (if localHeld s k then u
               else addWaiter pa (.thread k fk (data t) w.deadline) (modThread k (fun t => { t with wait := some w }) u))
            else if t.spec || storeWaiting s k || !respRoom s (.thread k) 1 then u
            else sendAccess { newAccess s k (.thread k) (threadMaster s k) (.fe fk (data t)) pa false with clock := t.clock }
              (modThread k (fun t => { t with wait := some { w with deadline := none } }) u)
        act := fun u => match t.wait with
          | some w => feResult t fk (entry w) k u
          | none =>
            let r := feAct fk (data t) pa (tickClock k u)
            let e : Entry W64 := if fePushes fk && lineBad s pa 8 then .poison (poisoned tMemUncorrectable 1 (BitVec.ofNat 64 (pa / 64 * 64)) 0) else .val r.1
            feResult t fk e k r.2 } }
def opLdwf (b : SSpec) (i : BitVec 16) : Op := opFe .ldwf (fun t => effAddr t b i 8) (fun _ => 0) [b]
def opLdwfe (b : SSpec) (i : BitVec 16) : Op := opFe .ldwfe (fun t => effAddr t b i 8) (fun _ => 0) [b]
def opStwe (b d : SSpec) (i : BitVec 11) : Op := opFe .stwe (fun t => effAddr t b i 8) (fun t => readS t d) [b, d]
def opStf (b d : SSpec) (i : BitVec 11) : Op := opFe .stf (fun t => effAddr t b i 8) (fun t => readS t d) [b, d]
def opFeset (b : SSpec) (i : BitVec 16) : Op := opFe .feset (fun t => effAddr t b i 8) (fun _ => 0) [b]
def opFeclr (b : SSpec) (i : BitVec 16) : Op := opFe .feclr (fun t => effAddr t b i 8) (fun _ => 0) [b]
def opFetest (b : SSpec) (i : BitVec 16) : Op := opFe .fetest (fun t => effAddr t b i 8) (fun _ => 0) [b]

/-! The full/empty steps of the bank. -/

/-- R199, R304: the answer of a wait reaches its thread. -/
def answerWait (k : Nat) (v : W64) (bad : Option Trap) (s : State) : State :=
  modThread k (fun t => { t with clock := t.clock + 1, wait := t.wait.map fun w => { w with answered := true, value := v, bad := bad } }) s
/-- R201: whether a waiter's condition holds. -/
def waiterCond (s : State) (word : Nat) (w : Waiter) : Bool :=
  let f := isFull s (8 * word)
  match w with
  | .thread _ k _ _ => feCond k f
  | .remote id _ => (match look s.accesses id with | some a => (match a.op with | .fe k _ => feCond k f && !heldBySpec s a | _ => false) | none => false)
  | .msync _ _ _ => f
/-- The index of the earliest waiter whose condition holds. -/
def firstWaiter (s : State) (word : Nat) : Option Nat := ((look s.waiters word).getD []).findIdx? (waiterCond s word)
def dropWaiter (word i : Nat) (s : State) : State :=
  let l := ((look s.waiters word).getD []).eraseIdx i
  { s with waiters := if l.isEmpty then erase s.waiters word else put s.waiters word l }

end Sys2Proof.Machine
end

