-- ==== Sys2Proof/Machine/Global.lean ====
section
/-! DEFINITION. Global loads and stores of a thread through a handle, its speculative lines, and `gwait` (R103, R197,
R204, R205, R207, R316, R353, R354). -/

namespace Sys2Proof.Machine

/-- R97: x for a base operand and a scaled immediate, as an offset from the origin. -/
def globalOff {n : Nat} (t : Thread) (b : SSpec) (i : BitVec n) (g : Nat) : W64 := addOffset (readS t b) (simm i * g)
/-- The pieces of [pa, pa + n) by line: first address and length. -/
def linePieces (pa n : Nat) : List (Nat × Nat) := (lineStarts pa n).map fun a => (a, min (64 - a % 64) (pa + n - a))

/-! Speculative lines (R354). -/

/-- R353: a frame in this package's HBM. -/
def specLocal (s : State) (h : Handle) (x : W64) : Bool :=
  !h.host && ownHbm s (redirect s (handlePa h x))
/-- R353: the n bytes lie in the block's own scratchpad window, so that the access is performed. -/
def specOwn (s : State) (k : Nat) (t : Thread) (h : Handle) (x : W64) (n : Nat) : Bool :=
  let pa := redirect s (handlePa h x)
  !h.host && decide (paDevice pa = s.cfg.device) && (match regionOf pa with
    | .scratch c o => decide (12 * paTile pa + c = coreOf k) && inScr t.sys.scrwin o n
    | .hbm => false | .l2ctl => false | .weight _ _ _ => false | .tileReg _ => false | .hub _ => false | .unassigned => false)
def SpecLine.isOf (l : SpecLine) (n : NodeRef) (b : Nat) : Bool := decide (l.node = n) && decide (l.line = b)
def ownLine (s : State) (t : Thread) (lineAddr : Nat) : Option SpecLine :=
  s.specLines.find? fun l => l.isOf t.node t.line && decide (l.pa = lineAddr)
/-- R316: the block's own buffered bytes over [pa, pa + n). -/
def specOver (s : State) (t : Thread) (pa n : Nat) : List (Option Byte) :=
  if ¬ t.spec then []
  else (List.range n).map fun i =>
    match ownLine s t ((pa + i) / 64 * 64) with
    | some l => l.bytes.getD ((pa + i) % 64) none
    | none => none
def overlay (b : List Byte) : List (Option Byte) → List Byte
  | [] => b
  | o :: os => match b with
    | [] => []
    | x :: xs => o.getD x :: overlay xs os
/-- R354: the home slice of a line on this package. -/
def sliceNo (pa : Nat) : Nat := 4 * paTile pa + homeSlice pa
/-- R354: every new line finds room at its home: 256 lines a slice. -/
def specRoom (s : State) (t : Thread) (lines : List Nat) : Bool :=
  let new := lines.filter fun a => (ownLine s t a).isNone
  new.all fun a => decide ((s.specLines.filter fun l => decide (sliceNo l.pa = sliceNo a)).length
    + (new.filter fun b => decide (sliceNo b = sliceNo a)).length ≤ 256)
/-- Bytes placed at offset o of an empty line. -/
def placeInLine (o : Nat) (d : List (Option Byte)) : List (Option Byte) :=
  ((List.replicate o none) ++ d ++ List.replicate 64 none).take 64
def mergeLine : List (Option Byte) → List (Option Byte) → List (Option Byte)
  | [], ns => ns
  | o :: os, [] => o :: os
  | o :: os, n :: ns => (match n with | some b => some b | none => o) :: mergeLine os ns
/-- R354: one line access of a store of a speculative block is buffered. It counts at its home as it arrives there (R104), and
the thread's clock advances (R304). -/
def specStore (k : Nat) (t : Thread) (asid va pa : Nat) (d : List (Option Byte)) (s : State) : State :=
  let a := pa / 64 * 64
  let new := placeInLine (pa % 64) d
  let s := tickClock k (countLine pa s.cfg.device (some (tileOf k)) s)
  if (ownLine s t a).isSome then
    { s with specLines := s.specLines.map fun l =>
        if l.isOf t.node t.line && decide (l.pa = a) then { l with bytes := mergeLine l.bytes new, clock := t.clock } else l }
  else { s with specLines := s.specLines ++ [{ slot := k, node := t.node, line := t.line, pa := a, va := va / 64 * 64, asid := asid, bytes := new, clock := t.clock }] }

/-! Line accesses of a thread. -/

/-- The line accesses of a thread's access to [x, x + n) through a handle, in ascending order; `mk` gives the
operation on the piece from byte i, of length m. -/
def threadAccesses (s : State) (k : Nat) (t : Thread) (h : Handle) (x : W64) (n tag : Nat) (store : Bool)
    (mk : Nat → Nat → AccOp) : List Access :=
  (linePieces (handlePa h x) n).mapIdx fun i p =>
    let a := newAccess s k (.thread k) (threadMaster s k) (mk (p.1 - handlePa h x) p.2) p.1 h.host
    { a with
      tag := tag, part := i, asid := h.asid, va := x + BitVec.ofNat 64 (p.1 - handlePa h x), clock := t.clock
      buffered := store, place := if store then .waiting else a.place
      ownBytes := if h.host then [] else specOver s t (redirect s p.1) p.2 }
/-- R207: the lease of a line in a core's L1, which holds the line it filled last first. -/
def l1Lease (s : State) (c pa : Nat) : Option Nat := (((look s.l1 c).getD []).find? fun e => decide (e.1 = pa / 64)).map Prod.snd
/-- R304: the write time of a line. -/
def writeTime (s : State) (pa : Nat) : Nat := ((look s.dir (pa / 64)).getD {}).wtime
/-- R207: the line of pa is present in the core's L1 under a lease that holds at the thread's clock and that no write
has passed. -/
def l1Hit (s : State) (k : Nat) (t : Thread) (pa : Nat) : Bool :=
  match l1Lease s (coreOf k) pa with
  | some e => decide (t.clock ≤ e) && decide (writeTime s pa ≤ e)
  | none => false
/-- R207: whether a load is served by L1: every line hits and nothing of the thread stands before it. -/
def loadHits (s : State) (k : Nat) (t : Thread) (h : Handle) (x : W64) (n : Nat) : Bool :=
  !h.host && !deviceBusy s k && t.gather.isNone && (lineStarts (handlePa h x) n).all fun a => l1Hit s k t (redirect s a)
/-- R304: a load advances the clock of its thread, to the write times of its lines at least. -/
def loadClock (k : Nat) (s : State) (lines : List Nat) : State :=
  modThread k (fun t => { t with clock := lines.foldl (fun c a => max c (writeTime s a)) (t.clock + 1) }) s

/-- R204, R207: a load of n bytes through a handle, its result of a form. -/
def opGlobalLoad (b : List SSpec) (hn : Fin 16) (off : Thread → W64) (n align : Nat) (form : Thread → Form) : Op :=
  { run := fun place k s t =>
      let h := handleOf t hn
      let x := h.origin + off t
      let lines := (lineStarts (handlePa h x) n).length
      let hit := loadHits s k t h x n
      { traps := poisonS t b ++ handleTraps s t (threadMaster s k) place hn (off t) n align rightR permR
        hold := (t.spec && !specLocal s h x && !specOwn s k t h x n) || (!hit && (storeWaiting s k || !respRoom s (.thread k) lines))
        act := fun u =>
          if hit then
            let pa := redirect s (handlePa h x)
            let r := if lineBad s pa n then formPoison (form t) (poisoned tMemUncorrectable 1 (BitVec.ofNat 64 (pa / 64 * 64)) 0)
              else formResult (form t) (overlay (readPa s pa n) (specOver s t pa n))
            addItem k (itemOf t 0 12 r .none) (loadClock k u (lineStarts pa n))
          else
            let it := lateItem t 0 12 u.fresh lines (form t)
            sendAll (threadAccesses s k t h x n it.tag false fun _ m => .read m) (addItem k it { u with fresh := u.fresh + 1 }) } }
def opGld (b : SSpec) (h : Fin 16) (sz : LoadSize) (i : BitVec 13) : Op :=
  opGlobalLoad [b] h (fun t => globalOff t b i sz.bytes) sz.bytes sz.bytes fun _ => .load sz
def opGvld (b : SSpec) (h : Fin 16) (i : BitVec 16) : Op :=
  opGlobalLoad [b] h (fun t => globalOff t b i 64) 384 64 fun t => .vector (readMask t 7)

/-- R204, R205, R354: a store of the given bytes through a handle. -/
def opGlobalStore (traps : Thread → List Trap) (hn : Fin 16) (off : Thread → W64) (n align : Nat)
    (data : Thread → List (Option Byte)) : Op :=
  { run := fun place k s t =>
      let h := handleOf t hn
      let x := h.origin + off t
      let pa := handlePa h x
      let ps := linePieces pa n
      let own := specOwn s k t h x n
      let full := t.spec && specLocal s h x && !specRoom s t (ps.map fun p => redirect s p.1 / 64 * 64)
      { traps := traps t ++ handleTraps s t (threadMaster s k) place hn (off t) n align rightW permW
        hold := if t.spec && !own then !specLocal s h x || full else !bufferRoom s k ps.length
        entries := if t.spec && !own then 0 else ps.length
        notes := full
        note := fun u => if full then modThread k (fun t => { t with hold := true }) u else u
        act := fun u =>
          if t.spec && !own then
            ps.foldl (fun u p => specStore k t h.asid (x.toNat + (p.1 - pa)) (redirect s p.1) (((data t).drop (p.1 - pa)).take p.2) u) u
          else sendAll (threadAccesses s k t h x n 0 true fun i m => .write (((data t).drop i).take m)) u } }
def opGst (b : SSpec) (h : Fin 16) (d : SSpec) (sz : StoreSize) (i : BitVec 9) : Op :=
  opGlobalStore (fun t => poisonS t [b, d]) h (fun t => globalOff t b i sz.bytes) sz.bytes sz.bytes
    fun t => (leBytes sz.bytes (readS t d).toNat).map some
def opGvst (b : SSpec) (h : Fin 16) (d : VSpec) (i : BitVec 11) : Op :=
  opGlobalStore (fun t => poisonS t [b] ++ poisonV t [d]) h (fun t => globalOff t b i 64) 384 64
    fun t => maskStore (readMask t 7) (readVec t d)

/-- R204: earlier stores and atomics have performed. -/
def storesPerformed (s : State) (k : Nat) : Bool :=
  !(s.accesses.any fun a => a.2.buffered && decide (a.2.owner = .thread k) && !a.2.performed && a.2.answer.isNone)
def opGwait : Op := { run := fun _ k s _ => { hold := !storesPerformed s k, act := tickClock k } }

end Sys2Proof.Machine
end

