-- ==== Sys2Proof/Machine/Words.lean ====
section
/-! DEFINITION. Engine words as data: their parameters and operands, the lines they read and write, the segments of a copy nest, and
what of them has still to be written (R170 to R172, R184 to R186, R312, R315). -/

namespace Sys2Proof.Machine

def allEngines : List Eng := [.m, .c0, .c1]
/-- Little-endian fields of a record. -/
def fieldAt (b : List Byte) (o n : Nat) : Nat := leNat ((b.drop o).take n)
def zeroAt (b : List Byte) (o n : Nat) : Bool := ((b.drop o).take n).all fun x => decide (x = 0)
def nthNat (ps : List W64) (i : Nat) : Nat := (ps.getD i 0).toNat
/-- R184: bytes per source record of a weight-store format. -/
def recordBytes (f : Nat) : Nat := if f = 0 then 96 else if f = 1 then 192 else 64
/-- R172: the extent of a copy word's operands in bytes. -/
def copyExtent (i : Instr) (ps : List W64) : Nat :=
  match i with
  | .s2w _ _ => recordBytes (nthNat ps 3) * nthNat ps 2
  | .g2w _ _ _ => recordBytes (nthNat ps 3) * nthNat ps 2
  | .circ _ _ _ => nthNat ps 3
  | .cflag _ _ _ => 8
  | .cnest _ _ _ _ => 128
  | .cbar _ _ _ => 32
  | .channelCstat _ _ => 16
  | _ => nthNat ps 2
/-- R172: the alignment of S and P operands, and of G operands. -/
def localAlign : Instr → Nat
  | .channelCstat _ _ => 16
  | .cbar _ _ _ => 32
  | _ => 64
def globalAlign : Instr → Nat
  | .cflag _ _ _ => 8
  | .cbar _ _ _ => 8
  | _ => 64
/-- R170: a G operand: its handle and its signed 60-bit offset. -/
def gHandle (v : W64) : Fin 16 := Fin.ofNat 16 (bits v.toNat 60 4)
def gOffset (v : W64) : W64 := BitVec.ofInt 64 (signedOf 60 v.toNat)
/-- R172, check 2: the G operands of a word with the permission each needs, source first. -/
def gOperands (i : Instr) (ps : List W64) : List (W64 × Nat) :=
  match i with
  | .g2s _ _ _ _ => [(ps.getD 1 0, permR)]
  | .s2g _ _ _ _ => [(ps.getD 0 0, permW)]
  | .g2w _ _ _ => [(ps.getD 1 0, permR)]
  | .g2g _ _ _ _ => [(ps.getD 1 0, permR), (ps.getD 0 0, permW)]
  | .circ _ _ _ => [(ps.getD 1 0, permW)]
  | .cflag _ _ _ => [(ps.getD 0 0, permW)]
  | .cbar _ _ g => if g then [(ps.getD 0 0, permA)] else []
  | _ => []
/-- R172: what a G operand captures. -/
def captureG (t : Thread) (v : W64) (perm : Nat) : GCap :=
  let h := handleOf t (gHandle v)
  let x := h.origin + gOffset v
  { hnd := bits v.toNat 60 4, off := gOffset v, va := x.toNat, pa := handlePa h x, host := h.host, asid := h.asid
    base := h.base, size := h.size.bytes, perm := perm }

/-! Operands of a word. -/

/-- Where a line of a word is read from or written to: the own scratchpad, another place by its physical address, or
the own weight store. -/
inductive Spot where
  | own (a : Nat)
  | far (pa : Nat) (host : Bool) (cap : Option GCap)
  | weights
  deriving DecidableEq, Repr

def capAt (w : QWord) (i : Nat) : Option GCap := w.caps[i]?
/-- The place of the byte o of a G operand. -/
def capSpot (w : QWord) (i o : Nat) : Spot :=
  match capAt w i with
  | some c => .far (c.pa + o) c.host (some c)
  | none => .weights
def pkgSpot (s : State) (v : W64) (o : Nat) : Spot := .far (scratchPa s (bits v.toNat 20 8) (bits v.toNat 0 20) + o) false none
/-- R171: the source and the destination of line i. -/
def srcSpot (s : State) (w : QWord) (i : Nat) : Spot :=
  match w.instr with
  | .g2s _ _ _ _ => capSpot w 0 (64 * i)
  | .s2g _ _ _ _ => .own (nthNat w.params 1 + 64 * i)
  | .s2s _ _ _ _ => pkgSpot s (w.params.getD 1 0) (64 * i)
  | .s2w _ _ => .own (nthNat w.params 1 + 64 * i)
  | .g2w _ _ _ => capSpot w 0 (64 * i)
  | .g2g _ _ _ _ => capSpot w 0 (64 * i)
  | .circ _ _ _ => .own (nthNat w.params 2 + 64 * i)
  | _ => .weights
def dstSpot (w : QWord) (i : Nat) : Spot :=
  match w.instr with
  | .g2s _ _ _ _ => .own (nthNat w.params 0 + 64 * i)
  | .s2g _ _ _ _ => capSpot w 0 (64 * i)
  | .s2s _ _ _ _ => .own (nthNat w.params 0 + 64 * i)
  | .g2g _ _ _ _ => capSpot w 1 (64 * i)
  | .circ _ _ _ => capSpot w 0 (64 * i)
  | .cflag _ _ _ => capSpot w 0 0
  | .cbar _ _ g => if g then capSpot w 0 0 else .own (nthNat w.params 0)
  | .channelCstat _ _ => .own (nthNat w.params 0)
  | _ => .weights
def isCirc (w : QWord) : Bool := match w.instr with | .circ _ _ _ => true | _ => false
def isNestWord (w : QWord) : Bool := match w.instr with | .cnest _ _ _ _ => true | _ => false
/-- R98, R175: captured translations of a word are cleared. -/
def clearCaps (p : GCap → Bool) (w : QWord) : QWord :=
  if w.caps.any p then { w with revoked := true, caps := w.caps.map fun c => if p c then { c with cleared := true } else c } else w
/-- A word of a copy channel. -/
def isCopy (w : QWord) : Bool :=
  match w.instr with
  | .lda _ _ => false | .ldac _ _ _ => false | .mma _ _ => false | .mmaz _ _ => false | .drain _ _ _ => false | .drainq _ _ _ => false
  | .nest _ => false | .zacc _ => false | .msync _ _ => false | .mstat _ _ => false
  | _ => true
/-- A word that writes one thing and counts no bytes: `cflag`, `cbar`, `cstat`. -/
def isSingle (w : QWord) : Bool :=
  match w.instr with
  | .cflag _ _ _ => true | .cbar _ _ _ => true | .channelCstat _ _ => true
  | _ => false
/-- R171: the FE bit and the PATH of a word. -/
def feOf (w : QWord) : Bool :=
  match w.instr with
  | .g2s _ _ _ f => f | .s2g _ _ _ f => f | .s2s _ _ _ f => f | .g2g _ _ _ f => f | .circ _ _ f => f | .cflag _ _ f => f
  | .cnest _ _ _ f => f
  | _ => false
def pathSelOf (w : QWord) : PathSel :=
  match w.instr with
  | .g2s _ _ p _ => p | .s2g _ _ p _ => p | .s2s _ _ p _ => p | .g2w _ _ p => p | .g2g _ _ p _ => p | .cnest _ _ p _ => p
  | _ => .basic
/-- R184: the weight-store format of a word that unpacks. -/
def unpackFmt (w : QWord) : Option Nat :=
  match w.instr with
  | .s2w _ _ => some (nthNat w.params 3)
  | .g2w _ _ _ => some (nthNat w.params 3)
  | _ => none
/-- Lines that are written together: two records of format 0 or one of format 1 fill three lines. -/
def unitLines (w : QWord) : Nat := match unpackFmt w with | some 0 => 3 | some 1 => 3 | some _ => 1 | none => 1
/-- R169: the lines of a chunk. -/
def chunkLines (w : QWord) : Nat := if unitLines w = 3 then 63 else 64
def lineCount (w : QWord) : Nat :=
  match w.instr with
  | .tokenOnly _ _ => 0
  | _ => if isSingle w then 1 else copyExtent w.instr w.params / 64
/-- R180: the bytes that line i adds to the write pointer. -/
def lineWptr (w : QWord) (i : Nat) : Nat :=
  if isSingle w then 0 else match unpackFmt w with | some 2 => if i % 2 = 0 then 112 else 16 | some _ => 64 | none => 64

/-- The word whose lines run: the word itself, or the segment of its nest. -/
def effWord (r : Run) : QWord := r.eff.getD r.word
/-! Nests (R185, R186). -/

def nestCount (d : List Byte) (l : Nat) : Nat := fieldAt d (32 + 16 * l) 4
def nestStride (d : List Byte) (o l : Nat) : Int := signedOf 32 (fieldAt d (o + 16 * l) 4)
/-- R185: what a descriptor must meet. -/
def copyNestOk (d : List Byte) : Bool :=
  let n := fieldAt d 1 1
  [1, 2, 3, 6].contains (fieldAt d 0 1) && decide (1 ≤ n) && decide (n ≤ 6) && zeroAt d 2 2 && decide (fieldAt d 4 4 % 64 = 0)
    && decide (64 ≤ fieldAt d 4 4) && decide (fieldAt d 4 4 ≤ 2 ^ 20) && zeroAt d 24 8
    && (List.range n).all fun l => decide (1 ≤ nestCount d l) && zeroAt d (36 + 16 * l) 4
      && decide (fieldAt d (40 + 16 * l) 4 % 64 = 0) && decide (fieldAt d (44 + 16 * l) 4 % 64 = 0)
def nestSegs (d : List Byte) : Nat := (List.range (fieldAt d 1 1)).foldl (fun n l => n * nestCount d l) 1
/-- The index of level l in segment n; level 0 varies fastest. -/
def nestIdx (d : List Byte) (n l : Nat) : Nat := n / ((List.range l).foldl (fun m j => m * nestCount d j) 1) % nestCount d l
def nestAddr (d : List Byte) (base o n : Nat) : W64 :=
  BitVec.ofNat 64 (fieldAt d base 8) + BitVec.ofInt 64 ((List.range (fieldAt d 1 1)).foldl (fun a l => a + (nestIdx d n l : Int) * nestStride d o l) 0)
/-- R186: segment n as a word of its kind with the nest's mod. -/
def segWord (d : List Byte) (w : QWord) (n : Nat) : QWord :=
  let src := nestAddr d 8 40 n
  let dst := nestAddr d 16 44 n
  let ps := [dst, src, BitVec.ofNat 64 (fieldAt d 4 4)]
  match w.instr with
  | .cnest c tk p f =>
    let i : Instr := if fieldAt d 0 1 = 1 then .g2s c tk p f else if fieldAt d 0 1 = 2 then .s2g c tk p f
      else if fieldAt d 0 1 = 3 then .s2s c tk p f else .g2g c tk p f
    { w with instr := i, params := ps, caps := [] }
  | _ => w

/-- R184: record j of a format, as writes of the own weight store: slice, offset, byte. -/
def unpackRecord (w : QWord) (f j : Nat) (b : List Byte) (old : Nat → Nat → Byte) : List (Nat × Nat × Byte) :=
  let at_ := nthNat w.params 0 % 65536
  let hd := bits (nthNat w.params 0) 16 16
  let count := nthNat w.params 2
  if f = 0 then (List.range 96).map fun i => (i, at_ + j, b.getD i 0)
  else if f = 1 then (List.range 96).flatMap fun i => [(i, at_ + 2 * j, b.getD (2 * i) 0), (i, at_ + 2 * j + 1, b.getD (2 * i + 1) 0)]
  else
    ((List.range 96).map fun i =>
      let code := codeOf b i % 16
      let o := at_ + j / 2
      let prev := (old i o).toNat
      (i, o, BitVec.ofNat 8 (if j % 2 = 0 then (if j + 1 = count then code else prev / 16 * 16 + code) else code * 16 + prev % 16)))
    ++ (List.range 16).map fun i => (96, hd + 16 * j + i, b.getD i 0)
/-- R184: the records that lines i to i + n hold. -/
def lineRecords (f i n : Nat) : List Nat :=
  if f = 0 then (List.range (2 * n / 3)).map fun j => 2 * i / 3 + j
  else if f = 1 then (List.range (n / 3)).map fun j => i / 3 + j
  else (List.range n).map fun j => i + j
/-- The bytes of the own weight store that those records fill. -/
def weightPlaces (s : State) (k : Nat) (w : QWord) (i n : Nat) : List Nat :=
  match unpackFmt w with
  | some f => (lineRecords f i n).flatMap fun j => (unpackRecord w f j [] fun _ _ => 0).map fun x => weightPa s (coreOf k) x.1 x.2.1
  | none => []

/-! What is still to be written (R312, R315). -/

/-- R312: line writes that are bound for one device, or for the host. -/
structure Bound where
  dev : Nat
  host : Bool
  lines : Nat
  deriving DecidableEq, Repr

/-- Whither n line writes of a place go. -/
def boundFor (s : State) (sp : Spot) (n : Nat) : Bound :=
  match sp with
  | .far pa host _ => ⟨if host then s.cfg.device else paDevice (redirect s pa), host, n⟩
  | .own _ => ⟨s.cfg.device, false, n⟩
  | .weights => ⟨s.cfg.device, false, n⟩
/-- R312: the line writes of a word of one destination, from its line i on. -/
def linesFrom (s : State) (k : Nat) (w : QWord) (i : Nat) : Nat :=
  let p := nthNat w.params
  match w.instr with
  | .drain _ _ f => (lineStarts (p 0) (p 2 * f.pitch)).length
  | .drainq _ _ _ => 96 * ((p 3 + 95) / 96)
  | .mstat _ _ => 1
  | .lda _ _ => 0 | .ldac _ _ _ => 0 | .mma _ _ => 0 | .mmaz _ _ => 0 | .nest _ => 0 | .zacc _ => 0 | .msync _ _ => 0
  | _ => match unpackFmt w with
    | some _ => ((weightPlaces s k w i (lineCount w - i)).map (· / 64)).eraseDups.length
    | none => lineCount w - i
/-- R186: the segments of a nest from one on, by its descriptor: those of kinds 2 and 6 write through a handle. -/
def nestBound (s : State) (t : Thread) (w : QWord) (d : List Byte) (seg : Nat) : Bound :=
  if ¬ copyNestOk d then ⟨s.cfg.device, false, 0⟩
  else
    let x := segWord d w seg
    let n := (nestSegs d - seg) * lineCount x
    match x.instr with
    | .s2g _ _ _ _ => let c := captureG t (x.params.getD 0 0) permW; boundFor s (.far c.pa c.host none) n
    | .g2g _ _ _ _ => let c := captureG t (x.params.getD 0 0) permW; boundFor s (.far c.pa c.host none) n
    | _ => boundFor s (dstSpot w 0) n
/-- What a nest's word names in the scratchpad. -/
def nestDesc (s : State) (k : Nat) (w : QWord) : List Byte := readPa s (scratchPa s (coreOf k) (nthNat w.params 0)) 128
/-- R312: the line writes of a word that has not started. -/
def wordBound (s : State) (k : Nat) (t : Thread) (w : QWord) : Bound :=
  if isNestWord w then nestBound s t w (nestDesc s k w) 0 else boundFor s (dstSpot w 0) (linesFrom s k w 0)
/-- R312: the line writes of a word in progress that have not been acknowledged. -/
def runBound (s : State) (k : Nat) (t : Thread) (r : Run) : Bound :=
  let w := effWord r
  let left := linesFrom s k w (r.next - r.lines.length)
  if ¬ isNestWord r.word then boundFor s (dstSpot w 0) (if r.sent && !isCopy r.word then 0 else left)
  else if r.eff = none then nestBound s t r.word (if r.desc = [] then nestDesc s k r.word else r.desc) r.seg
  else boundFor s (dstSpot w 0) (left + (r.segs - r.seg - 1) * lineCount w)
/-- R312: the line writes of an engine's words that have not been acknowledged. -/
def engineBounds (s : State) (k : Nat) (t : Thread) (e : Eng) : List Bound :=
  let x := getEngine t e
  (match x.run with | some r => [runBound s k t r] | none => []) ++ x.queue.map (wordBound s k t)
/-- R143, R313: what is bound there is lost: its peer is declared unreachable, or the link to the host is down. -/
def Bound.gone (b : Bound) (s : State) : Bool := if b.host then !s.linkUp else decide (b.dev ≠ s.cfg.device) && !reachable s b.dev
/-- R312, R315: the line writes of an engine halted by a deferred fault that are known to be dropped. -/
def haltedLoss (s : State) (k : Nat) (t : Thread) (e : Eng) : List Bound :=
  let x := getEngine t e
  if x.fault.isNone then []
  else
    let now := match x.run with
      | some r => let b := runBound s k t r; if b.gone s then [b] else [⟨x.lostDev, x.lostHost, x.lost⟩]
      | none => []
    (now ++ (x.queue.map (wordBound s k t)).filter fun b => b.gone s).filter fun b => decide (0 < b.lines)

/-- R315: writes of a thread were dropped toward a device, or toward the host. -/
def countDrop (k dev n : Nat) (host : Bool) (s : State) : State :=
  if n = 0 then s
  else modThread k (fun t => { t with dropped := t.dropped + n, dropDev := some (t.dropDev.getD dev), droppedHost := if host then t.droppedHost + n else t.droppedHost }) s
def countBounds (k : Nat) (bs : List Bound) (s : State) : State := bs.foldl (fun s b => countDrop k b.dev b.lines b.host s) s
/-- R312, R315: lines of a halted channel's word are known to be dropped. -/
def noteLoss (k : Nat) (e : Eng) (dev n : Nat) (host : Bool) (s : State) : State :=
  if n = 0 then s
  else modThread k (fun t => { t with dropDev := some (t.dropDev.getD dev) })
    (modEngine k e (fun x => { x with lost := x.lost + n, lostDev := dev, lostHost := host }) s)
/-- R175, R315: a channel that resumes performs its chunk afresh. -/
def forgetLoss (k : Nat) (e : Eng) (s : State) : State :=
  modThread k (fun t => if t.dropped = 0 ∧ allEngines.all (fun f => decide (f = e) || (getEngine t f).fault.isNone) then { t with dropDev := none } else t)
    (modEngine k e (fun x => { x with lost := 0, lostHost := false }) s)

end Sys2Proof.Machine
end

