-- ==== Sys2Proof/Machine/Chain.lean ====
section
/-! DEFINITION. `chain` and `chainq` (R280 to R282, R286). -/

namespace Sys2Proof.Machine

/-- [a, a + n) and [b, b + m) share a byte. -/
def overlap (a n b m : Nat) : Bool := decide (a < b + m) && decide (b < a + n)
/-- R280: what a descriptor at address x must meet. -/
def chainDescOk (win : W64) (x : Nat) (d : List Byte) : Bool :=
  let dest := fieldAt d 8 4
  let stat := fieldAt d 12 4
  let steps := fieldAt d 16 1
  let flen := fieldAt d 17 1
  decide (dest % 64 = 0) && decide (dest < 2 ^ 20) && decide (stat % 8 = 0) && decide (stat < 2 ^ 20) && decide (steps ≤ 7)
    && decide (8 ≤ flen) && decide (flen ≤ 64) && decide (flen % 8 = 0) && zeroAt d 18 6 && zeroAt d 108 20
    && inScr win dest flen && inScr win stat 8 && !overlap dest flen stat 8 && !overlap dest flen x 128 && !overlap stat 8 x 128
/-- R280: a descriptor as a chain entry, and the packet that runs it. -/
def chainOf (t : Thread) (x : Nat) (d : List Byte) (order : Nat) : Chain :=
  { state := .pending, addr := x, dest := fieldAt d 8 4, stat := fieldAt d 12 4, flen := fieldAt d 17 1, gen := t.windowGen, order := order
    sys := t.system, asid := bits t.sys.asidreg.toNat 0 16 }
def chainPacket (t : Thread) (d : List Byte) : ChainPacket :=
  { cur := BitVec.ofNat 64 (fieldAt d 0 8), step := 0, nsteps := fieldAt d 16 1, flen := fieldAt d 17 1
    masks := (List.range 7).map fun k => BitVec.ofNat 64 (fieldAt d (24 + 8 * k) 8)
    offs := (List.range 7).map fun k => signedOf 32 (fieldAt d (80 + 4 * k) 4)
    sys := t.system, asid := bits t.sys.asidreg.toNat 0 16, hops := 0 }
/-- R283, R285: the packet of a chain at the issuer's tile, where its first address is translated; `part` holds the
generation of the entry's window. -/
def chainAccess (s : State) (k i gen : Nat) (t : Thread) (p : ChainPacket) : Access :=
  { newAccess s k (.chain k i) (threadMaster s k) (.chain p) (paOf s.cfg.device (tileOf k) 0) false with
    place := .target, asid := 65536, clock := t.clock, part := gen }
/-- The lowest free chain entry of 16. -/
def freeChain (t : Thread) : Option Nat := (List.range 16).find? fun k => (look t.chains k).isNone
/-- R282, steps 5 to 7: an entry is taken, the status word cleared, the full bits of the destination cleared, and the
packet sent. -/
def startChain (k i : Nat) (c : Chain) (p : ChainPacket) (s : State) : State :=
  match getThread s k with
  | none => s
  | some t =>
    let stat := scratchPa s (coreOf k) c.stat
    let s := setThread s k { t with chains := put t.chains i c }
    sendAccess (chainAccess s k i c.gen t p) (setFulls false (scratchPa s (coreOf k) c.dest) (c.flen / 8) (setFull stat false (writePa stat (bytes64 0) s)))
/-- R280 to R282: the descriptor is used as it stands, also over an uncorrectable error (DESIGN CHOICE, log entry 109). -/
def opChain (a : SSpec) : Op :=
  { run := fun place k s t =>
      let x := readS t a
      let d := readPa s (ownPa s k x) 128
      { traps := poisonS t [a] ++ localTraps t place x 128
          ++ (if chainDescOk t.sys.scrwin x.toNat d then [] else [trapOf tChainFault place x 0 0x0F])
        hold := portBusy s k || (freeChain t).isNone || !respRoom s (.thread k) 1
        act := startChain k ((freeChain t).getD 0) (chainOf t x.toNat d s.fresh) (chainPacket t d) } }
/-- R286: a FAULTED entry is consumed without a trap. -/
def opChainq (a : SSpec) : Op :=
  { run := fun place k s t =>
      let x := readS t a
      { traps := poisonS t [a] ++ localTraps t place x 8
        hold := portBusy s k
        act := fun u =>
          let u := match faultedAt t x with
            | some c => modThread k (fun t => { t with chains := erase t.chains c.1 }) u
            | none => u
          addItem k (itemOf t 0 5 (.scalar (entryMap nat64 (localRead s k x 8))) .none) u } }

end Sys2Proof.Machine
end

