-- ==== Sys2Proof/Machine/Atomic.lean ====
section
/-! DEFINITION. The atomic instructions and the action of an atomic on its bytes (R273 to R279). -/

namespace Sys2Proof.Machine

/-- R276: the new value of an `amo` on w bytes from bits [8w-1:0] of its operand, with the flags of `fadd`. -/
def amoNew (o : AmoOp) (w : Nat) (old v : Nat) : Nat × FpFlags :=
  let n := 8 * w
  let v := v % 2 ^ n
  match o with
  | .add => ((old + v) % 2 ^ n, .none)
  | .and => (old &&& v, .none)
  | .or => (old ||| v, .none)
  | .xor => (old ^^^ v, .none)
  | .min => (if signedOf n old ≤ signedOf n v then old else v, .none)
  | .max => (if signedOf n old ≤ signedOf n v then v else old, .none)
  | .minu => (min old v, .none)
  | .maxu => (max old v, .none)
  | .swap => (v, .none)
  | .fadd => let r := fpAdd (if w = 4 then Fmt.f32 else Fmt.f64) .rne old v; (r.1, r.2)
/-- R276: an atomic on the bytes at a physical address: the old bytes, the flags, the new state. -/
def performAtomic (op : AccOp) (pa : Nat) (s : State) : List Byte × FpFlags × State :=
  match op with
  | .amo o w v =>
    let b := readPa s pa w.bytes
    let r := amoNew o w.bytes (leNat b) v.toNat
    (b, r.2, writePa pa (leBytes w.bytes r.1) s)
  | .cas w e n =>
    let b := readPa s pa w.bytes
    let m := 2 ^ (8 * w.bytes)
    (b, .none, writePa pa (leBytes w.bytes (if leNat b = e.toNat % m then n.toNat % m else leNat b)) s)
  | .cas2 e n =>
    let b := readPa s pa 16
    (b, .none, writePa pa (leBytes 16 (if leNat b = e then n else leNat b)) s)
  | .read n => (readPa s pa n, .none, s)
  | .write d => ([], .none, { s with mem := s.mem.storeMasked pa d })
  | .fe _ _ => ([], .none, s)
  | .bar _ _ _ => ([], .none, s)
  | .shapepub _ _ => ([], .none, s)
  | .chain _ => ([], .none, s)
/-- R274: on host memory only add and swap of the `amo` operations have the A right. -/
def withoutHostA (t : Thread) (hn : Fin 16) (op : AccOp) : Thread :=
  let h := handleOf t hn
  let lacking := h.host && (match op with
    | .amo .add _ _ => false | .amo .swap _ _ => false | .amo _ _ _ => true
    | _ => false)
  if lacking then { t with handles := t.handles.set hn.val { h with grant := h.grant &&& 3 } } else t
/-- R273: an atomic of w bytes through a handle; one store-buffer entry, latency 24. -/
def opAtomic (ops : List SSpec) (a : SSpec) (hn : Fin 16) (w : Nat) (more : Thread → Nat → List Trap) (busy : State → Nat → Bool)
    (bad : State → Nat → Thread → Option Trap) (op : State → Nat → Thread → AccOp) : Op :=
  { run := fun place k s t =>
      let h := handleOf t hn
      let x := h.origin + readS t a
      { traps := poisonS t ops ++ handleTraps s (withoutHostA t hn (op s k t)) (threadMaster s k) place hn (readS t a) w w rightA permA ++ more t place
        hold := t.spec || !bufferRoom s k 1 || busy s k
        entries := 1
        act := fun u =>
          match bad s k t with
          | some tr => addItem k (itemOf t 0 24 (formPoison (.old w false) tr) .none) u
          | none =>
            let it := lateItem t 0 24 u.fresh 1 (.old w (match op s k t with | .amo .fadd _ _ => true | _ => false))
            sendAll (threadAccesses s k t h x w it.tag true fun _ _ => op s k t) (addItem k it { u with fresh := u.fresh + 1 }) } }
def opAmo (a b : SSpec) (h : Fin 16) (o : AmoOp) (w : AmoWidth) : Op :=
  opAtomic [a, b] a h w.bytes (fun _ _ => []) (fun _ _ => false) (fun _ _ _ => none) fun _ _ t => .amo o w (readS t b)
def opCas (a b c : SSpec) (h : Fin 16) (w : AmoWidth) : Op :=
  opAtomic [a, b, c] a h w.bytes (fun _ _ => []) (fun _ _ => false) (fun _ _ _ => none) fun _ _ t => .cas w (readS t b) (readS t c)
/-- R275: the operands come from a record in the own scratchpad. -/
def opCas2 (a b : SSpec) (h : Fin 16) : Op :=
  opAtomic [a, b] a h 16 (fun t place => localTraps t place (readS t b) 32) portBusy
    (fun s k t => match localRead s k (readS t b) 32 with | .poison p => some p | .val _ => none)
    fun s k t =>
      let r := readPa s (ownPa s k (readS t b)) 32
      .cas2 (leNat (r.take 16)) (leNat (r.drop 16))

end Sys2Proof.Machine
end

