-- ==== Sys2Proof/Machine/Barrier.lean ====
section
/-! DEFINITION. Barrier objects, the action of a barrier operation, and the barrier instructions (R290 to R298). -/

namespace Sys2Proof.Machine

/-- R290: the fields of a barrier object; `raw` is word 0 as read, `ok` says that the object is valid. -/
structure BarObj where
  phase : Nat
  check : Nat
  expected : Nat
  arrivals : Nat
  delta : Int
  pending : Nat
  round : Nat
  raw : Nat
  ok : Bool
  deriving DecidableEq, Repr
def barOf (b : List Byte) : BarObj :=
  let w0 := leNat (b.take 8)
  let w1 := leNat ((b.drop 8).take 8)
  let w2 := leNat ((b.drop 16).take 8)
  let w3 := leNat ((b.drop 24).take 8)
  { phase := bits w0 63 1, check := bits w0 48 15, expected := bits w0 20 20, arrivals := bits w0 0 20
    delta := signedOf 21 w1, pending := bits w2 0 40, round := bits w3 0 32, raw := w0
    ok := decide (bits w0 40 8 = 0xBA) && decide (bits w1 21 43 = 0) && decide (bits w2 40 24 = 0) && decide (bits w3 32 32 = 0)
      && decide (bits w0 0 20 ≤ bits w0 20 20) }
def barBytes (o : BarObj) : List Byte :=
  leBytes 8 (o.phase * 2 ^ 63 + o.check * 2 ^ 48 + 0xBA * 2 ^ 40 + o.expected * 2 ^ 20 + o.arrivals)
    ++ leBytes 8 (wrapInt 21 o.delta) ++ leBytes 8 o.pending ++ leBytes 8 o.round

/-- R295: stale causes. -/
def staleTag := 1
def staleCheck := 2
def stalePhase := 3
def staleOver := 4

/-- R294, R297, R298: what an action answers: done, stale with its cause, still waiting, or a value. -/
inductive BarAnswer where
  | done | stale (cause : Nat) | blocked | value (v : W64)
  deriving DecidableEq, Repr

/-- R294: the flip when the phase is complete. -/
def barFlip (o : BarObj) : BarObj :=
  if o.arrivals = o.expected ∧ o.pending = 0 ∧ o.expected ≠ 0 then
    { o with
      phase := 1 - o.phase
      arrivals := 0
      expected := (clampInt (o.expected + o.delta) 0 (2 ^ 20 - 1)).toNat
      delta := 0
      round := (o.round + 1) % 2 ^ 32 }
  else o
def clampDelta (x : Int) : Int := clampInt x (-(2 ^ 20)) (2 ^ 20 - 1)
/-- R294: an arrival with ticket t that changes DELTA by d and subtracts n bytes. -/
def barArrive (o : BarObj) (t : Nat) (d : Int) (n : Nat) : BarAnswer × BarObj :=
  if ¬ o.ok then (.stale staleTag, o)
  else if bits t 0 15 ≠ o.check then (.stale staleCheck, o)
  else if bits t 15 1 ≠ o.phase then (.stale stalePhase, o)
  else if o.arrivals = o.expected then (.stale staleOver, o)
  else (.done, barFlip { o with delta := clampDelta (o.delta + d), arrivals := o.arrivals + 1, pending := wrapInt 40 ((o.pending : Int) - n) })
/-- R294, R297, R298: the action of a kind on the 32 bytes of an object; `v` is the b operand, `n` the bytes of `cbar`. -/
def barAct (kind : BarKind) (b : List Byte) (v : W64) (n : Nat) : BarAnswer × List Byte :=
  let o := barOf b
  let t := bits v.toNat 0 16
  let keep := fun (r : BarAnswer × BarObj) => match r.1 with | .done => (r.1, barBytes r.2) | .stale _ => (r.1, b) | .blocked => (r.1, b) | .value _ => (r.1, b)
  match kind with
  | .init => (.done, barBytes { phase := 0, check := bits v.toNat 20 15, expected := bits v.toNat 0 20, arrivals := 0, delta := 0, pending := 0, round := 0, raw := 0, ok := true })
  | .bytes => if o.ok then (.done, barBytes (barFlip { o with pending := (o.pending + bits v.toNat 0 40) % 2 ^ 40 })) else (.stale staleTag, b)
  | .arr => keep (barArrive o t 0 0)
  | .drop => keep (barArrive o t (-1) 0)
  | .join => keep (barArrive o t 1 0)
  | .cbar => keep (barArrive o t 0 (n % 2 ^ 40))
  | .wait =>
    if ¬ o.ok then (.stale staleTag, b)
    else if bits t 0 15 ≠ o.check then (.stale staleCheck, b)
    else if bits t 15 1 ≠ o.phase then (.done, b) else (.blocked, b)
  | .query =>
    let good := o.ok && decide (bits t 0 15 = o.check) && decide (bits t 15 1 = o.phase)
    (.value (BitVec.ofNat 64 (bits o.raw 48 16 * 2 ^ 48 + bit good * 2 ^ 47 + bit (decide (o.pending = 0)) * 2 ^ 46 + bits o.raw 0 40)), b)

/-- R366: BARRIER_STALE names the object and the ticket. -/
def staleTrap (place cause : Nat) (x v : W64) (kind : BarKind) : Trap :=
  trapOf tBarrierStale place x (if kind = .bytes then 0 else BitVec.ofNat 64 (bits v.toNat 0 16)) cause
/-- R294: one action on the object at a physical address. -/
def barPerform (kind : BarKind) (pa : Nat) (v : W64) (n : Nat) (s : State) : BarAnswer × State :=
  let r := barAct kind (readPa s pa 32) v n
  match kind with
  | .wait => (r.1, s)
  | .query => (r.1, s)
  | .init => (r.1, writePa pa r.2 s)
  | .arr => (r.1, writePa pa r.2 s)
  | .drop => (r.1, writePa pa r.2 s)
  | .join => (r.1, writePa pa r.2 s)
  | .bytes => (r.1, writePa pa r.2 s)
  | .cbar => (r.1, writePa pa r.2 s)
/-- R296: the operations that wait for the thread's earlier global accesses when G = 0. -/
def barOrdered (kind : BarKind) : Bool :=
  match kind with
  | .arr => true | .drop => true | .join => true | .bytes => true
  | .init => false | .wait => false | .query => false | .cbar => false

/-- R297: the wait for an object in the own scratchpad: whether it goes on, and whether it has found the object stale. -/
def barWaiting (t : Thread) : Bool := match t.wait with | some w => !w.answered | none => false
def barBad (t : Thread) : Option Trap := t.wait.bind fun w => w.bad
def waitExpired (t : Thread) : Bool := match t.wait with | some w => w.expired | none => false
/-- R292, R296: a barrier operation on an object in the own scratchpad. Under an uncorrectable error of the object `barq`
pushes poison (R376) and the others act on the bytes as they stand (DESIGN CHOICE, log entry 110). -/
def barLocal (kind : BarKind) (a b : SSpec) : Op :=
  { run := fun place k s t =>
      let x := readS t a
      let v := readS t b
      let pa := ownPa s k x
      let now := (barAct kind (readPa s pa 32) v 0).1
      { traps := poisonS t [a, b] ++ localTraps t place x 32
          ++ (if kind = .wait then
                (match barBad t with | some tr => [{ tr with place := place }] | none => [])
                  ++ (if t.wait.isNone then (match now with | .stale c => [staleTrap place c x v kind] | .blocked => [] | .done => [] | .value _ => []) else [])
                  ++ (if waitExpired t && barWaiting t then [trapOf tFeTimeout place x] else [])
              else [])
        hold := localHeld s k || (barOrdered kind && globalBusy s k) || (if t.wait.isSome then barWaiting t else decide (now = .blocked))
        starts := decide (kind = .wait) && t.wait.isNone && !localHeld s k
        onHold := fun u =>
          if kind = .wait ∧ t.wait = none ∧ ¬ localHeld s k then
            modThread k (fun t => { t with wait := some { kind := .bar, deadline := feDeadline s t, since := s.cc, obj := some (pa, v) } }) u
          else u
        act := fun u =>
          let r := barPerform kind pa v 0 (tickClock k u)
          match r.1 with
          | .stale c => if kind = .wait then r.2 else addBoundary k (staleTrap 0xA c x v kind) r.2
          | .value w =>
            let e : Entry W64 := if lineBad s pa 32 then .poison (poisoned tMemUncorrectable 1 (BitVec.ofNat 64 (pa / 64 * 64)) 0) else .val w
            addItem k (itemOf t 0 5 (.scalar e) .none) r.2
          | .done => r.2
          | .blocked => r.2 } }
/-- R292, R293, R296, R297: a barrier operation through a handle. -/
def barGlobal (kind : BarKind) (hn : Fin 16) (a b : SSpec) : Op :=
  { run := fun place k s t =>
      let h := handleOf t hn
      let off := readS t a
      let x := h.origin + off
      let v := readS t b
      let checks := handleTraps s t (threadMaster s k) place hn off 32 8 rightA permA
      let one := fun (buffered : Bool) (tag : Nat) =>
        let c := newAccess s k (.thread k) (threadMaster s k) (.bar kind v 0) (handlePa h x) false
        { c with tag := tag, asid := h.asid, va := x, clock := t.clock, buffered := buffered, place := if buffered then .waiting else c.place : Access }
      { traps := poisonS t [a, b] ++ (if t.wait.isSome then [] else checks)
          ++ (if checks.isEmpty && h.host then [trapOf tAccessDenied place x] else [])
          ++ (match t.wait with
              | some w => (match w.bad with | some tr => [{ tr with place := place }] | none => []) ++ (if w.expired && !w.answered then [trapOf tFeTimeout place x] else [])
              | none => [])
        hold := t.spec || (match kind with
          | .wait => (match t.wait with | some w => !w.answered | none => true)
          | .query => storeWaiting s k || !respRoom s (.thread k) 1
          | .init => !bufferRoom s k 1 | .arr => !bufferRoom s k 1 | .drop => !bufferRoom s k 1
          | .join => !bufferRoom s k 1 | .bytes => !bufferRoom s k 1 | .cbar => !bufferRoom s k 1)
        entries := match kind with
          | .wait => 0 | .query => 0
          | .init => 1 | .arr => 1 | .drop => 1 | .join => 1 | .bytes => 1 | .cbar => 1
        starts := decide (kind = .wait) && t.wait.isNone && !t.spec && !storeWaiting s k && respRoom s (.thread k) 1
        onHold := fun u =>
          if kind = .wait ∧ t.wait = none ∧ ¬ t.spec ∧ ¬ storeWaiting s k ∧ respRoom s (.thread k) 1 then
            sendAccess (one false 0) (modThread k (fun t => { t with wait := some { kind := .bar, deadline := none, since := s.cc } }) u)
          else u
        act := fun u => match kind with
          | .wait => tickClock k u
          | .query => sendAccess (one false u.fresh) (addItem k (lateItem t 0 12 u.fresh 1 (.barq 0)) { u with fresh := u.fresh + 1 })
          | .init => sendAccess (one true 0) u
          | .arr => sendAccess (one true 0) u
          | .drop => sendAccess (one true 0) u
          | .join => sendAccess (one true 0) u
          | .bytes => sendAccess (one true 0) u
          | .cbar => sendAccess (one true 0) u } }
/-- R297: what a `barwait` finds when its object is evaluated again: whether it ends, and the cause of its trap. -/
def barSeen (s : State) (pa : Nat) (v : W64) : BarAnswer := (barAct .wait (readPa s pa 32) v 0).1
/-- R297: the wait of a thread for an object in its own scratchpad, once the object has been evaluated. -/
def barWaitSeen (s : State) (w : Wait) : Wait :=
  match w.obj with
  | some (pa, v) =>
    if w.answered ∨ w.expired then w
    else match barSeen s pa v with
      | .done => { w with answered := true }
      | .stale c => { w with answered := true, bad := some (staleTrap 0 c (BitVec.ofNat 64 (paOffset pa % 0x100000)) v .wait) }
      | .blocked => w | .value _ => w
  | none => w
/-- R297, R324: after a change, the waits of threads for objects in their own scratchpads are evaluated; a thread whose wait ends
is ready in the next cc. -/
def wakeThread (s : State) (t : Thread) : Thread :=
  let w := t.wait.map (barWaitSeen s)
  if w = t.wait then t else { t with wait := w, noIssueBefore := max t.noIssueBefore (s.cc + 1) }
def wakeLocal (s : State) : State := { s with threads := s.threads.map fun x => (x.1, wakeThread s x.2) }
/-- R60, R292: the G bit places the object. -/
def opBar (kind : BarKind) (a b : SSpec) (g : Option (Fin 16)) : Op :=
  match g with
  | none => barLocal kind a b
  | some h => barGlobal kind h a b
def opBarinit (a b : SSpec) (g : Option (Fin 16)) : Op := opBar .init a b g
def opBararr (a b : SSpec) (g : Option (Fin 16)) : Op := opBar .arr a b g
def opBardrop (a b : SSpec) (g : Option (Fin 16)) : Op := opBar .drop a b g
def opBarjoin (a b : SSpec) (g : Option (Fin 16)) : Op := opBar .join a b g
def opBarwait (a b : SSpec) (g : Option (Fin 16)) : Op := opBar .wait a b g
def opBarbytes (a b : SSpec) (g : Option (Fin 16)) : Op := opBar .bytes a b g
def opBarq (a b : SSpec) (g : Option (Fin 16)) : Op := opBar .query a b g

end Sys2Proof.Machine
end

