-- ==== Sys2Proof/Machine/System.lean ====
section
/-! DEFINITION. System registers and the system instructions (R82, R147, R148, R166, R175, R192, R194, R247, R269,
R327, R370 to R374). -/

namespace Sys2Proof.Machine

/-- A word from fields given as (value, lowest bit). -/
def word64 (fs : List (Nat × Nat)) : W64 := BitVec.ofNat 64 (fs.foldl (fun a f => a + f.1 * 2 ^ f.2) 0)

/-- R147. -/
def faultRoute (t : Thread) : W64 :=
  word64 [(t.sys.lost, 40), (t.faultQueue.length, 32), (bit t.sys.watch, 31), (bit t.sys.alert, 30), (t.sys.classen, 0)]
/-- R148: word w of the oldest record. -/
def frecWord (t : Thread) (w : Nat) : W64 :=
  match t.faultQueue with
  | [] => 0
  | r :: _ => if w = 0 then r.w0 else if w = 1 then r.w1 else if w = 2 then r.w2 else r.w3
/-- R269: while ACT is 0 the indices read as zero. -/
def nestIndex (m : MState) (l : Nat) : Nat := if m.act then m.index.getD l 0 else 0
def mnest0 (m : MState) : W64 := word64 [(nestIndex m 3, 48), (nestIndex m 2, 32), (nestIndex m 1, 16), (nestIndex m 0, 0)]
def mnest1 (m : MState) : W64 := word64 [(bit m.act, 63), (m.desc % 2 ^ 20, 32), (nestIndex m 5, 16), (nestIndex m 4, 0)]

/-- R371: the value `rdsys` reads. -/
def readSys (t : Thread) (n : Nat) : W64 :=
  if n = 0x000 then t.sys.fpc
  else if n = 0x001 then t.sys.srseed
  else if n = 0x002 then t.sys.asidreg
  else if n = 0x010 then t.sys.trapvec
  else if n = 0x011 then t.sys.trapinfo
  else if n = 0x012 then t.sys.traparg0
  else if n = 0x013 then t.sys.traparg1
  else if n = 0x014 then t.sys.trappc
  else if n = 0x015 then t.sys.wdlimit
  else if n = 0x040 then t.sys.scrwin
  else if n = 0x041 then t.sys.wgtwin
  else if n = 0x042 then t.sys.felimit
  else if n = 0x043 then t.sys.accwin
  else if n = 0x044 then BitVec.ofNat 64 t.vc
  else if n = 0x045 then t.sys.lnchlim
  else if n = 0x060 then faultRoute t
  else if 0x061 ≤ n ∧ n ≤ 0x064 then frecWord t (n - 0x061)
  else if n = 0x066 then t.sys.landwin
  else if n = 0x067 then BitVec.ofNat 64 (t.sys.landed % 2 ^ 32)
  else if n = 0x068 then BitVec.ofNat 64 t.c0.wptr
  else if n = 0x069 then BitVec.ofNat 64 t.c1.wptr
  else if n = 0x06A then t.sys.circmin
  else if n = 0x06B then mnest0 t.mx
  else if n = 0x06C then mnest1 t.mx
  else if n = 0x06D then t.sys.fencestat
  else 0

/-- R371: the registers whose reads and writes are privileged. -/
def readPrivileged (n : Nat) : Bool := decide (0x010 ≤ n) && decide (n ≤ 0x014)
def writePrivileged (n : Nat) : Bool :=
  [0x002, 0x010, 0x011, 0x012, 0x013, 0x014, 0x015, 0x040, 0x041, 0x043, 0x06B, 0x06C, 0x06E].contains n

def modSys (k : Nat) (f : Sys → Sys) (s : State) : State := modThread k (fun t => { t with sys := f t.sys }) s

/-- The units [a, a + n) now belong to an address space; whether any of them last belonged to another. -/
def takeUnits (asid a n : Nat) (l : List (Nat × Nat)) : Bool × List (Nat × Nat) :=
  ((List.range n).any (fun i => match look l (a + i) with | some x => decide (x ≠ asid) | none => false), (List.range n).foldl (fun l i => put l (a + i) asid) l)
/-- R193, R195, R248: the windows of a thread and its slot's accumulators belong to the address space it runs in. -/
def noteOwner (k : Nat) (s : State) : State :=
  match getThread s k with
  | none => s
  | some t =>
    let asid := bits t.sys.asidreg.toNat 0 16
    let scr := t.sys.scrwin.toNat
    let wgt := t.sys.wgtwin.toNat
    modCore (coreOf k) (fun c => { c with
        scrAsid := (takeUnits asid (bits scr 12 8) (bits scr 32 9) c.scrAsid).2
        wgtAsid := (takeUnits asid (1024 + bits wgt 22 10) (bits wgt 32 11) (takeUnits asid (bits wgt 0 10) (bits wgt 10 11) c.wgtAsid).2).2 })
      { s with accAsid := put s.accAsid k ((look s.accAsid k).getD [] ++ (if ((look s.accAsid k).getD []).contains asid then [] else [asid])) }
/-- R82: a write that changes ASIDREG revokes every VALID handle. -/
def writeAsid (k : Nat) (v : W64) (s : State) : State :=
  modThread k (fun t =>
    let new := v &&& 0xFFFF
    { t with
      sys := { t.sys with asidreg := new },
      handles := if new = t.sys.asidreg then t.handles
        else t.handles.map fun h => if h.state = .valid then { h with state := .revoked } else h }) s
/-- R35: a write to SRSEED reseeds the 96 lanes. -/
def seedLanes (v : W32) : List W32 := (List.range 96).map (lfsrSeed v)
def writeSrseed (k : Nat) (v : W64) (s : State) : State :=
  modThread k (fun t => { t with sys := { t.sys with srseed := v &&& 0xFFFFFFFF }, lfsr := seedLanes (v.truncate 32) }) s
/-- R148: FRECPOP removes the oldest record. -/
def popRecord (k : Nat) (s : State) : State := modThread k (fun t => { t with faultQueue := t.faultQueue.drop 1 }) s
/-- R370: a write of WDLIMIT restarts the count. -/
def writeWdlimit (k : Nat) (v : W64) (s : State) : State :=
  modThread k (fun t => { t with sys := { t.sys with wdlimit := v &&& 0xFFFFFFFF }, watch := 0 }) s
/-- R175: a channel halted by a deferred fault drops its word and queue. -/
def dropEngine (x : Engine) : Engine :=
  if x.fault.isSome then { x with run := none, queue := [], doneSeq := x.lastSeq, lost := 0 } else x
/-- R175: the accesses of a discarded word that have not performed never do. -/
def voidAccesses (k : Nat) (e : Eng) (s : State) : State :=
  { s with accesses := s.accesses.map fun a => (a.1, match a.2.owner with
    | .engine j f _ => if j = k ∧ f = e then { a.2.lose (nodeIn s k) with void := !a.2.performed } else a.2
    | .thread _ => a.2 | .chain _ _ => a.2 | .host => a.2 | .peer _ _ => a.2 | .gone => a.2) }
/-- R175, R312: a channel halted by a deferred fault drops its word and queue, whose writes are dropped. -/
def dropChannel (k : Nat) (e : Eng) (s : State) : State :=
  match getThread s k with
  | some t => if (getEngine t e).fault.isSome then modEngine k e dropEngine (countBounds k (engineBounds s k t e) (voidAccesses k e s)) else s
  | none => s
def writeChdrop (k : Nat) (v : W64) (s : State) : State :=
  let s := if flag v.toNat 0 then dropChannel k .c0 s else s
  if flag v.toNat 1 then dropChannel k .c1 s else s
/-- R269: DROP discards M's halted word and its queue. -/
def dropMatrix (k : Nat) (s : State) : State :=
  match getThread s k with
  | some t =>
    if t.me.fault.isSome then
      modThread k (fun t => { t with me := dropEngine t.me, mx := { t.mx with act := false, index := [0, 0, 0, 0, 0, 0], prevA := none, popped := false } })
        (countBounds k (engineBounds s k t .m) s)
    else s
  | none => s
/-- R255, R269: the index tuple a nest resumes from; an iteration that has popped its token pops again only if the tuple
names another. -/
def setIndex (ix : List Nat) (m : MState) : MState := { m with index := ix, prevA := none, popped := m.popped && decide (ix = m.index) }
def writeMnest0 (k : Nat) (v : W64) (s : State) : State :=
  modThread k (fun t => { t with mx := setIndex [bits v.toNat 0 16, bits v.toNat 16 16, bits v.toNat 32 16, bits v.toNat 48 16,
      t.mx.index.getD 4 0, t.mx.index.getD 5 0] t.mx }) s
def writeMnest1 (k : Nat) (v : W64) (s : State) : State :=
  let s := modThread k (fun t => { t with mx := { setIndex ((t.mx.index.take 4) ++ [bits v.toNat 0 16, bits v.toNat 16 16]) t.mx with
    act := flag v.toNat 63, desc := bits v.toNat 32 20 } }) s
  if flag v.toNat 62 then dropMatrix k s else s
/-- R166: the landing side a LANDWIN value names on a tile. -/
def landPort (slot : Nat) (v : W64) : Nat := 8 * tileOf slot + bits v.toNat 56 3
/-- R166: a write to LANDWIN releases, claims, sets the ring; LANDIDX restarts when EN goes from 0 to 1 or the port
changes. -/
def writeLandwin (k : Nat) (v : W64) (s : State) : State :=
  match getThread s k with
  | none => s
  | some t =>
    let old := t.sys.landwin
    let held := flag old.toNat 63
    let port := landPort k v
    let moved := held && decide (port ≠ landPort k old)
    let s1 := if held && (moved || !flag v.toNat 63) then releaseClaim k s else s
    let ok := flag v.toNat 63 && (match look s1.claims port with | some j => decide (j = k) | none => true)
    let s2 := if ok then { s1 with claims := put s1.claims port k } else s1
    let fields := word64 [(bit ok, 63), (bits v.toNat 56 3, 56), (bits v.toNat 32 8, 32), (bits v.toNat 0 20, 0)]
    modSys k (fun y => { y with landwin := fields, landed := if moved || (ok && !held) then 0 else y.landed }) s2

/-- R6, R371: the write of each register; RO fields are ignored. -/
def writeSys (k n : Nat) (v : W64) (s : State) : State :=
  if n = 0x000 then modSys k (fun y => { y with fpc := fpcWritable v }) s
  else if n = 0x001 then writeSrseed k v s
  else if n = 0x002 then noteOwner k (writeAsid k v s)
  else if n = 0x010 then modSys k (fun y => { y with trapvec := v &&& ~~~0xE }) s
  else if n = 0x011 then modSys k (fun y => { y with trapinfo := v &&& 0xFFFFFFFF007F0000 }) s
  else if n = 0x012 then modSys k (fun y => { y with traparg0 := v }) s
  else if n = 0x013 then modSys k (fun y => { y with traparg1 := v }) s
  else if n = 0x014 then modSys k (fun y => { y with trappc := v &&& ~~~0xF }) s
  else if n = 0x015 then writeWdlimit k v s
  else if n = 0x040 then noteOwner k (modSys k (fun y => { y with scrwin := v &&& 0x1FF000FF000 }) s)
  else if n = 0x041 then noteOwner k (modSys k (fun y => { y with wgtwin := v &&& 0x7FFFFDFFFFF }) s)
  else if n = 0x042 then modSys k (fun y => { y with felimit := v &&& 0xFFFFFFFF }) s
  else if n = 0x043 then modSys k (fun y => { y with accwin := v &&& 0x3FF }) s
  else if n = 0x045 then modSys k (fun y => { y with lnchlim := v &&& 0xFFFFFFFF }) s
  else if n = 0x060 then modSys k (fun y => { y with
    lost := bits v.toNat 40 8, watch := flag v.toNat 31, alert := flag v.toNat 30, classen := bits v.toNat 0 16 }) s
  else if n = 0x065 then popRecord k s
  else if n = 0x066 then writeLandwin k v s
  else if n = 0x06A then modSys k (fun y => { y with circmin := v &&& 0xFFFFF000 }) s
  else if n = 0x06B then writeMnest0 k v s
  else if n = 0x06C then writeMnest1 k v s
  else if n = 0x06E then writeChdrop k v s
  else s

/-- R166, R192, R194, R247: the checks a write makes. -/
def writeTraps (t : Thread) (n : Nat) (v : W64) : List Trap :=
  let w := v.toNat
  let bound := [trapOf tScratchBound 0 v]
  if n = 0x040 then (if 256 < bits w 12 8 + bits w 32 9 then bound else [])
  else if n = 0x041 then (if 1024 < bits w 0 10 + bits w 10 11 ∨ 1024 < bits w 22 10 + bits w 32 11 then bound else [])
  else if n = 0x043 then (if 512 < bits w 0 10 then bound else [])
  else if n = 0x066 then
    (if bits w 0 6 ≠ 0 then [trapOf tAlign 0 v]
     else if inScr t.sys.scrwin (bits w 0 20) (384 * (bits w 32 8 + 1)) then [] else bound)
  else []

/-- R70, R371: PRIVILEGE carries the register number. -/
def privTrap (n : Nat) : Trap := trapOf tPrivilege 0 (BitVec.ofNat 64 n)

def opRdsys (r : BitVec 10) : Op :=
  { run := fun _ k _ t =>
      { traps := if readPrivileged r.toNat && !t.system then [privTrap r.toNat] else []
        act := addItem k (itemOf t 1 1 (.scalar (.val (readSys t r.toNat))) .none) } }
/-- R372: the write takes effect for the next bundle; a speculative block holds a write to LANDWIN (R353). -/
def opWrsys (a : SSpec) (r : BitVec 10) : Op :=
  { run := fun _ k _ t =>
      { traps := (if writePrivileged r.toNat && !t.system then [privTrap r.toNat] else [])
          ++ poisonS t [a] ++ writeTraps t r.toNat (readS t a)
        hold := t.spec && decide (r.toNat = 0x066)
        act := writeSys k r.toNat (readS t a)
        last := true } }
/-- R372: SOFTWARE with its code. -/
def opTrap (code : BitVec 8) : Op := { run := fun _ _ _ _ => { traps := [trapOf tSoftware 0 0 0 code.toNat] } }
/-- R374; outside system mode PRIVILEGE (R70). -/
def opRft : Op :=
  { run := fun _ k _ t =>
      { traps := if t.system then [] else [trapOf tPrivilege 0]
        act := returnFromTrap k } }
/-- R372: the core treats the quantum of the slot as expired. -/
def opYield : Op := { run := fun _ k _ _ => { act := modCore (coreOf k) fun c => { c with expired := true } } }

end Sys2Proof.Machine
end

