-- ==== Sys2Proof/Machine/Circuit.lean ====
section
/-! DEFINITION. Circuit contexts as a thread sees them, `csend` and `cstat` (R151, R164, R168). -/

namespace Sys2Proof.Machine

/-- R328: the cohort in whose table the hub holds the thread of a slot. -/
def cohortOf (s : State) (k : Nat) : Option (Nat × Cohort) := s.cohorts.find? fun c => c.2.members.any fun m => decide (m.1 = k)
/-- R151: the context bound to the lockstep cohort of the thread in a slot. -/
def ctxOf (s : State) (k : Nat) : Option (Nat × Ctx) :=
  match cohortOf s k with
  | some c => if c.2.lock then s.ctxs.find? fun x => decide (x.2.cohort = c.1) && !x.2.ceased else none
  | none => none
def handleAt (c : Ctx) (h : Nat) : CHandle := (look c.handles h).getD {}
def circCode : CircState → Nat | .idle => 0 | .settling => 1 | .live => 2 | .down => 3 | .repairing => 4
/-- R168: the circuit status word of a handle. -/
def circWord (h : CHandle) : W64 :=
  word64 [(circCode h.state, 61), (bit h.expert, 60), (h.gen % 256, 52), (if h.state = .idle then 0 else h.src, 45),
    (if h.state = .idle then 0 else h.sink, 37), (h.cause, 33), (bit h.retained, 32), (h.sent % 2 ^ 16, 16), (h.landed % 2 ^ 16, 0)]
/-- R168: STATE 0b111 when the thread has no bound context. -/
def circStatus (s : State) (k h : Nat) : W64 :=
  match ctxOf s k with
  | some c => circWord (handleAt c.2 h)
  | none => word64 [(7, 61)]
/-- R156: a tear of the handle is pending from a step at or before v. -/
def tornFrom (h : CHandle) (v : Nat) : Bool := match h.tearFrom with | some t => decide (t ≤ v) | none => false
def tCirc (code place cause : Nat) (h gen : Nat) (a0 : W64) : Trap :=
  { code := code, place := place, cause := cause, gen := gen, hnd := h, arg0 := a0 }
/-- R155: another circuit that still stands holds the source or the sink. -/
def estConflict (s : State) (c h src sink : Nat) : Bool :=
  s.ctxs.any fun x => x.2.handles.any fun y =>
    y.2.placed && (decide (x.1 ≠ c) || decide (y.1 ≠ h)) && (decide (y.2.src = src) || decide (y.2.sink = sink))
      && !(decide (x.1 = c) && y.2.tearFrom.isSome)
/-- R155: an `est` of the handle stops the program. -/
def estStops (s : State) (c : Nat) (x : Ctx) (h src sink : Nat) : Bool :=
  decide ((handleAt x h).state ≠ .idle) || x.pendingEst.contains h || estConflict s c h src sink
/-- R154: the `waitc` conditions 0 to 3. -/
def stateHolds (st : CircState) (cond : Nat) : Bool :=
  if cond = 0 then decide (st = .live) else if cond = 1 then decide (st = .idle) else if cond = 2 then decide (st = .down)
  else decide (cond = 3) && decide (st = .live ∨ st = .down)
/-- R154, R156: the words that the sequencer performs when the leading member issues its bundle of vc v tear the handle:
a tear of a step, by a word or by the end of the program, is known to the bundles of that vc. `at_` counts the words before
these and `keep` says that the handle is retained. -/
def tearsBy (s : State) (c : Nat) (x : Ctx) (h v : Nat) : Nat → Bool → List CWord → Bool
  | _, _, [] => false
  | n, keep, w :: ws =>
    match w with
    | .tear g => decide (g = h) || tearsBy s c x h v (n + 1) keep ws
    | .hold g => tearsBy s c x h v (n + 1) (keep || decide (g = h)) ws
    | .est g src sink => if estStops s c x g src sink then !keep else tearsBy s c x h v (n + 1) keep ws
    | .rpol _ _ => tearsBy s c x h v (n + 1) keep ws
    | .step t => decide (x.base + t ≤ v) && tearsBy s c x h v (n + 1) keep ws
    | .waitc g cond => stateHolds (handleAt x g).state cond && tearsBy s c x h v (n + 1) keep ws
    | .rpt _ _ => (match ws with | .tear g :: _ => decide (g = h) | _ => false)
    | .loopc m _ => decide ((look x.counters n).getD m = 1) && tearsBy s c x h v (n + 1) keep ws
    | .jmpc _ => false
    | .endc => !keep
/-- R153, R156: a tear of the handle takes effect with a bundle of vc v that is the first of its vc. -/
def tearComing (s : State) (c : Nat) (x : Ctx) (h v : Nat) : Bool :=
  let keep := (handleAt x h).retained
  let rest := x.prog.drop x.idx
  match x.mode with
  | .group => decide (x.notBefore ≤ s.cc) && tearsBy s c x h v x.idx keep rest
  | .atStep => tearsBy s c x h v x.idx keep rest
  | .waiting => tearsBy s c x h v x.idx keep rest
  | .repeating k n i =>
    (decide (k = 0) || decide (x.cur + i ≤ v)) && (match rest with
      | .tear g :: ws => decide (g = h) || (decide (k + 1 = n) && tearsBy s c x h v (x.idx + 1) keep ws)
      | _ => false)
  | .ended => false
/-- R164: what refuses a `csend` of a thread at its vc. -/
def csendTraps (s : State) (k place h : Nat) (t : Thread) : List Trap :=
  match ctxOf s k with
  | none => [tCirc tCircuitNone place 7 h 0 0]
  | some c =>
    let x := handleAt c.2 h
    if x.state ≠ .live ∨ 128 ≤ x.sink ∨ tileOf k ≠ x.src / 8 ∨ tornFrom x t.vc ∨ tearComing s c.1 c.2 h t.vc then [tCirc tCircuitNone place (circCode x.state) h x.gen 0] else []
def portOf (s : State) (p : Nat) : Port := (look s.ports p).getD {}
/-- R164: the port buffer is full, or accepted a vector in one of the two cc before this one. -/
def circPortBusy (s : State) (p : Nat) : Bool :=
  decide (8 ≤ (portOf s p).buf.length) || (match (portOf s p).accepted with | some c => decide (s.cc < c + 3) | none => false)
/-- Changes a handle of a context. -/
def modHandle (c h : Nat) (f : CHandle → CHandle) (s : State) : State :=
  { s with ctxs := s.ctxs.map fun x => if x.1 = c then (x.1, { x.2 with handles := put x.2.handles h (f (handleAt x.2 h)) }) else x }
/-- R164: the vector enters the buffer of its port. -/
def csendAct (k h : Nat) (t : Thread) (v : Vec) (s : State) : State :=
  match ctxOf s k with
  | none => s
  | some c =>
    let x := handleAt c.2 h
    let p := portOf s x.src
    let f : Flying := { slot := k, who := t.dispatched, ctx := c.1, h := h, gen := x.gen, data := v, tables := s.tables, since := s.cc, node := t.node }
    let s := { s with ports := put s.ports x.src ⟨p.buf ++ [f], some s.cc⟩ }
    modHandle c.1 h (fun y => { y with sent := y.sent + 1 }) s
def opCsend (b : VSpec) (h : BitVec 7) : Op :=
  { run := fun place k s t =>
      { traps := poisonV t [b] ++ (if t.spec then [] else csendTraps s k place h.toNat t)
        hold := t.spec || (match ctxOf s k with | some c => circPortBusy s (handleAt c.2 h.toNat).src | none => false)
        act := csendAct k h.toNat t (readVec t b) } }
/-- R168: the status word, read in the issuing cc. -/
def opCstat (h : BitVec 7) : Op :=
  { run := fun _ k s t => { act := addItem k (itemOf t 0 12 (.scalar (.val (circStatus s k h.toNat))) .none) } }
/-- R164: vectors of the thread that have neither landed nor been discarded. -/
def csendBusy (s : State) (k : Nat) (t : Thread) : Bool :=
  s.ports.any fun p => p.2.buf.any fun f => decide (f.slot = k) && decide (f.who = t.dispatched)

end Sys2Proof.Machine
end

