-- ==== Sys2Proof/Machine/Control.lean ====
section
/-! DEFINITION. Control transfers, `halt`, the virtual clock, and the interface to the engines (R222 to R228, R327). -/

namespace Sys2Proof.Machine

/-- R54: PC + 16 × offset. -/
def branchTarget (t : Thread) (o : BitVec 20) : W64 := t.pc + BitVec.ofInt 64 (16 * simm o)
def setPc (k : Nat) (pc : W64) (s : State) : State := modThread k (fun t => { t with pc := pc }) s

def opBr (c : SSpec) (o : BitVec 20) : Op :=
  { run := fun _ k _ t =>
      { traps := poisonS t [c], act := fun s => if readS t c ≠ 0 then setPc k (branchTarget t o) s else s } }
def opBrz (c : SSpec) (o : BitVec 20) : Op :=
  { run := fun _ k _ t =>
      { traps := poisonS t [c], act := fun s => if readS t c = 0 then setPc k (branchTarget t o) s else s } }
def opJmp (o : BitVec 20) : Op := { run := fun _ k _ t => { act := setPc k (branchTarget t o) } }
/-- R222: pushes PC + 16 with latency 1. -/
def opCall (o : BitVec 20) : Op :=
  { run := fun _ k _ t =>
      { act := fun s => setPc k (branchTarget t o) (addItem k (itemOf t 1 1 (.scalar (.val (t.pc + 16))) .none) s) } }
def opRet (a : SSpec) : Op :=
  { run := fun place k _ t =>
      { traps := poisonS t [a] ++ (if (readS t a).toNat % 16 ≠ 0 then [trapOf tAlign place (readS t a)] else [])
        act := setPc k (readS t a) } }
/-- R222: the counter wraps from 0. -/
def opLoop (c : Fin 16) (o : BitVec 20) : Op :=
  { run := fun _ k _ t =>
      let n := t.regs.n.getD c.val 0 - 1
      { act := fun s =>
          let s := modThread k (fun u => { u with regs := { u.regs with n := u.regs.n.set c.val n } }) s
          if n ≠ 0 then setPc k (branchTarget t o) s else s } }

/-- R227: the pending deferred fault of an engine that has not been observed. -/
def pendingFault (x : Engine) : Option Trap :=
  match x.fault with
  | some f => if f.observed then none else some { f.trap with deferred := true }
  | none => none
/-- R227: pending faults in the order M, C0, C1. -/
def pendingFaults (t : Thread) (es : List Eng) : List Trap :=
  ((es.filterMap fun e => (pendingFault (getEngine t e)).map fun tr => { tr with source := .engine e })).take 1
def engineIdle (x : Engine) : Bool := x.queue.isEmpty && x.run.isNone
/-- R353: the earlier stores of a thread that are not yet performed and acknowledged. -/
def storesDone (s : State) (k : Nat) : Bool := decide (bufferUsed s k = 0)

/-- R223, R353: the slot of a halted thread is freed; a speculative block keeps its buffered lines until it commits. What is
under way for it concerns the slot no longer. -/
def endThread (k : Nat) (s : State) : State :=
  match getThread s k with
  | none => s
  | some t =>
    let mine := fun (o : Owner) => match o with | .thread j => decide (j = k) | .engine j _ _ => decide (j = k) | .chain j _ => decide (j = k) | .host => false | .peer _ _ => false | .gone => false
    let s := { s with accesses := s.accesses.map fun a => (a.1, if mine a.2.owner then a.2.lose t.node else a.2) }
    freeSlot k (if t.spec then { s with parked := s.parked ++ [{ node := t.node, line := t.line, slot := k, scrwin := t.sys.scrwin }] } else s)
/-- R223: nothing that the halt bundle itself started is left: no pass of a gather and no engine word. -/
def haltQuiet (t : Thread) : Bool :=
  t.gather.isNone && [t.me, t.c0, t.c1].all fun x => engineIdle x || x.fault.isSome
/-- R223, R328, R332, R347: the thread issues no further bundle, its results in flight are discarded, it leaves its cohort, and its
block finishes unless it is speculative; its slot is free once what the bundle started is done (log entry 91). -/
def haltThread (k : Nat) (s : State) : State :=
  match getThread s k with
  | none => s
  | some t =>
    let s := quitCohort k (loseThread k t.node (if t.spec then s else finishBlock t.node s))
    let s := modThread k (fun t => { t with life := .halted, flight := [] }) s
    if haltQuiet t then endThread k s else s
/-- R223: the halted threads that have nothing left end. -/
def reapHalted (s : State) : State :=
  (s.threads.filter fun x => decide (x.2.life = .halted) && haltQuiet x.2).foldl (fun s x => endThread x.1 s) s
def opHalt : Op :=
  { run := fun _ k s t =>
      { traps := pendingFaults t allEngines
        hold := !(storesDone s k && engineIdle t.me && engineIdle t.c0 && engineIdle t.c1)
        act := haltThread k
        last := true } }

/-- R65: the push of one value; none when the stack is full. -/
def stackPush (e : Eng) (v : W64) (t : Thread) : Thread :=
  let x := getEngine t e
  setEngine t e { x with stack := v :: x.stack }
/-- R366: ENGINE_STACK names the stack: 0 M, 1 C0, 2 C1, 3 a token count. -/
def stackTrap (place cause : Nat) : List Trap := [trapOf tEngineStack place 0 0 cause]
def stackFull (t : Thread) (e : Eng) : Bool := decide (8 ≤ (getEngine t e).stack.length)
def opEpush (a : SSpec) (e : Eng) : Op :=
  { run := fun place k _ t =>
      { traps := (if stackFull t e then stackTrap place (engineNo e) else []) ++ poisonS t [a]
        act := modThread k (stackPush e (readS t a)) }
    stack := fun t => stackPush e (readS t a) t }
/-- R226, R227, R304. -/
def opTkwait (d : Side) (n : BitVec 4) : Op :=
  { run := fun _ k s t =>
      { traps := pendingFaults t allEngines
        hold := decide (waitReady s.cc t d < n.toNat)
        act := fun s => tickClock k (modThread k (fun u => { u with tokens := setWaitCount u.tokens (waitCount u.tokens d - n.toNat) d }) s) } }
def opTksig (d : Side) (n : BitVec 4) : Op :=
  { run := fun place k _ t =>
      { traps := if 255 < sigCount t.tokens d + n.toNat then stackTrap place 3 else []
        act := fun s => modThread k (fun u =>
          notePushed s.cc (fun p => setSigCount p (sigCount p d + n.toNat) d) { u with tokens := setSigCount u.tokens (sigCount u.tokens d + n.toNat) d }) s } }
/-- R228: the engine status word. -/
def engineStatus (t : Thread) (e : Eng) : W64 :=
  let x := getEngine t e
  let fcode := match x.fault with | some f => if f.observed then f.trap.code else 0 | none => 0
  word64 [(fcode, 56), (bit x.fault.isSome, 55), (bit x.run.isSome, 54), (x.queue.length, 49), (x.stack.length, 45),
    (upCount t.tokens e, 37), (downCount t.tokens e, 29), (x.words % 2 ^ 29, 0)]
def opEstat (e : Eng) : Op :=
  { run := fun _ k _ t =>
      { traps := pendingFaults t [e]
        act := addItem k (itemOf t 1 1 (.scalar (.val (engineStatus t e))) .none) } }
/-- R327: the vc of its own bundle. -/
def opVclk : Op := opScalarPure 1 [] fun t => BitVec.ofNat 64 t.vc

end Sys2Proof.Machine
end

