-- ==== Sys2Proof/Machine/Fence.lean ====
section
/-! DEFINITION. The fences (R310 to R315). -/

namespace Sys2Proof.Machine

/-- R311: an engine has nothing a fence waits for: it is idle, or halted by an observed fault. -/
def engineQuiet (x : Engine) : Bool := engineIdle x || (match x.fault with | some f => f.observed | none => false)
/-- R286: the FAULTED entry whose `chain` issued earliest. -/
def firstFaulted : List (Nat × Chain) → Option (Nat × Chain)
  | [] => none
  | c :: cs =>
    match firstFaulted cs with
    | none => if c.2.state = .faulted then some c else none
    | some d => if c.2.state = .faulted ∧ c.2.order < d.2.order then some c else some d
def namedEngines (q : BitVec 4) : List Eng := allEngines.filter fun e => q.getLsbD (engineNo e)
def waitFence (k : Nat) (t : Thread) (s : State) : State :=
  if t.wait = none then modThread k (fun t => { t with wait := some { kind := .fence, deadline := none, since := s.cc } }) s else s
def opFenceQ (q : BitVec 4) : Op :=
  { run := fun _ k s t =>
      { traps := (pendingFaults t (namedEngines q) ++ (if q.getLsbD 3 then (match firstFaulted t.chains with | some c => [chainTrap c.1 c.2] | none => []) else [])).take 1
        hold := !((namedEngines q).all fun e => engineQuiet (getEngine t e))
          || (q.getLsbD 3 && (csendBusy s k t || t.chains.any fun c => decide (c.2.state = .pending))) } }

/-- R312: an engine whose words a `fence.sys` waits for. -/
def engineRuns (x : Engine) : Bool := x.fault.isNone && !engineIdle x
/-- R315: the status a fence writes. -/
def fenceStatus (s : State) (k : Nat) (t : Thread) (host : Bool) (halted : Eng → Bool) : W64 :=
  let lost := (allEngines.flatMap (haltedLoss s k t)).filter fun b => !host || b.host
  let n := (if host then t.droppedHost else t.dropped) + (lost.foldl (fun n b => n + b.lines) 0)
  let dev := if n = 0 then 0 else if host then s.cfg.device else t.dropDev.getD ((lost.map Bound.dev).headD 0)
  word64 [(bit (decide (n ≠ 0) || allEngines.any halted), 63), (bit (halted .m), 62), (bit (halted .c0), 61), (bit (halted .c1), 60),
    (bit host, 59), (dev, 42), (min n 0xFFFFFFFF, 0)]
def opFenceSys : Op :=
  { run := fun _ k s t =>
      { hold := t.spec || !storesDone s k || csendBusy s k t || allEngines.any fun e => engineRuns (getEngine t e)
        notes := t.wait.isNone
        note := waitFence k t
        act := modSys k fun y => { y with fencestat := fenceStatus s k t false fun e => (getEngine t e).fault.isSome } } }
/-- R313: words of an engine have still to write host memory. -/
def hostEngine (s : State) (k : Nat) (t : Thread) (e : Eng) : Bool := (engineBounds s k t e).any fun b => b.host && decide (0 < b.lines)
def hostStores (s : State) (k : Nat) : Bool := s.accesses.any fun a => a.2.buffered && a.2.host && decide (a.2.owner = .thread k)
def opFenceHost : Op :=
  { run := fun _ k s t =>
      { hold := t.spec || hostStores s k || allEngines.any fun e => engineRuns (getEngine t e) && hostEngine s k t e
        notes := t.wait.isNone
        note := waitFence k t
        act := modSys k fun y => { y with
          fencestat := fenceStatus s k t true fun e => (getEngine t e).fault.isSome && hostEngine s k t e } } }

end Sys2Proof.Machine
end

