-- ==== Sys2Proof/Machine/Identity.lean ====
section
/-! DEFINITION. The identity, cohort, launch and shape instructions of a thread (R326, R329, R338, R339, R360 to R363). -/

namespace Sys2Proof.Machine

/-- R336: the node handle word, and the pending node a word names. -/
def nodeWord (n : NodeRef) : W64 := word64 [(n.gen % 256, 13), (n.id % 2 ^ 13, 0)]
def namedNode (s : State) (w : W64) : Option (Nat × Node) :=
  match look s.nodes (bits w.toNat 0 13) with
  | some x => if x.gen = bits w.toNat 13 8 ∧ bits w.toNat 21 43 = 0 then some (bits w.toNat 0 13, x) else none
  | none => none
/-- R384: the word by which a node that a thread names stands here. -/
def nameOf (t : Thread) (w : W64) : W64 :=
  match t.names.find? fun n => decide (n.1 = w) with
  | some n => n.2
  | none => w
def threadNode (s : State) (t : Thread) : Option Node :=
  match look s.nodes t.node.id with
  | some x => if x.gen = t.node.gen then some x else none
  | none => none
/-- R326: the extent word. -/
def extentWord (s : State) (t : Thread) : W64 :=
  match threadNode s t with
  | none => 0
  | some x =>
    if x.desc.shape then
      match x.final with
      | some f => word64 [(1, 32), (x.desc.gy, 16), (f, 0)]
      | none => word64 [(x.desc.gy, 16), (x.predicted, 0)]
    else word64 [(1, 32), (x.desc.gy, 16), (x.desc.gx, 0)]
/-- R326: the cohort word. -/
def cohortWord (s : State) (k : Nat) : W64 :=
  match cohortOf s k with
  | some c => word64 [(1, 13), (bit c.2.lock, 12), (c.1, 0)]
  | none => 0
def rankOf (s : State) (k : Nat) : Nat :=
  match cohortOf s k with
  | some c => ((c.2.members.find? fun m => decide (m.1 = k)).map Prod.snd).getD 0
  | none => 0
/-- R326: the identity selectors; 12 to 15 are no operand of a well-formed instruction. -/
def identity (s : State) (k : Nat) (t : Thread) (sel : Nat) : W64 :=
  match sel with
  | 0 => BitVec.ofNat 64 k
  | 1 => BitVec.ofNat 64 (coreOf k)
  | 2 => BitVec.ofNat 64 (tileOf k)
  | 3 => BitVec.ofNat 64 s.cfg.device
  | 4 => BitVec.ofNat 64 t.bx
  | 5 => BitVec.ofNat 64 t.bY
  | 6 => nodeWord t.node
  | 7 => extentWord s t
  | 8 => BitVec.ofNat 64 (bit t.spec)
  | 9 => cohortWord s k
  | 10 => BitVec.ofNat 64 (rankOf s k)
  | _ => BitVec.ofNat 64 (match cohortOf s k with | some c => c.2.members.length | none => 0)
/-- R51, R366: ILLEGAL_OP carries the bundle. -/
def illegalTraps (s : State) (k : Nat) (t : Thread) : List Trap :=
  match fetchBundle s k t with
  | .word w => [trapOf tIllegal 0 (w.truncate 64) ((w >>> 64).truncate 64)]
  | .miss => [trapOf tIllegal 0]
  | .trap _ => [trapOf tIllegal 0]
def opGetid (sel : BitVec 4) : Op :=
  { run := fun _ k s t =>
      { traps := if 12 ≤ sel.toNat then illegalTraps s k t else []
        act := addItem k (itemOf t 1 1 (.scalar (.val (identity s k t sel.toNat))) .none) } }

/-- A request to the hub whose answer is a result of latency 12 (R329, R339). -/
def askHub (k : Nat) (t : Thread) (ask : HubAsk) (s : State) : State :=
  let it := lateItem t 1 12 s.fresh 1 .status
  addItem k it { s with
    hubReqs := s.hubReqs ++ [{ slot := k, tag := s.fresh, who := t.dispatched, ask := ask, asid := bits t.sys.asidreg.toNat 0 16, clock := t.clock, sys := t.system, asked := s.cc }]
    fresh := s.fresh + 1 }
/-- R329: with NEW the operand is not read. -/
def opJoin (a : SSpec) (new lock : Bool) : Op :=
  { run := fun _ k _ t =>
      { traps := if new then [] else poisonS t [a]
        hold := t.spec
        act := askHub k t (.join (if new then 0 else readS t a) new lock) } }
def opLeave (a : SSpec) : Op :=
  { run := fun _ k _ t => { traps := poisonS t [a], hold := t.spec, act := askHub k t (.leave (readS t a)) } }
/-- R339: the bundle is held until the store buffer is empty; LNCHLIM bounds the wait of `launch.w` (R340). -/
def opLaunchForm (a b : SSpec) (w : Bool) : Op :=
  { run := fun _ k s t =>
      { traps := poisonS t [a, b]
        hold := t.spec || !storesDone s k
        act := askHub k t (.launch (readS t a) (readS t b) w t.sys.lnchlim.toNat) } }
def opLaunch (a b : SSpec) : Op := opLaunchForm a b false
def opLaunchW (a b : SSpec) : Op := opLaunchForm a b true

/-- R83: the first hub register of this device. -/
def hubPa (s : State) : Nat := paOf s.cfg.device 0 0x38000000000
/-- R361: one store-buffer entry; it performs at the hub. -/
def opShapepub (a b : SSpec) : Op :=
  { run := fun _ k s t =>
      { traps := poisonS t [a, b]
        hold := t.spec || !bufferRoom s k 1
        entries := 1
        act := fun u => sendAccess
          { newAccess s k (.thread k) (threadMaster s k) (.shapepub (nameOf t (readS t a)) (bits (readS t b).toNat 0 16)) (hubPa s) false with
            buffered := true, place := .waiting, asid := bits t.sys.asidreg.toNat 0 16, clock := t.clock } u } }
/-- R363: the shape word of a node handle. -/
def shapeWord (s : State) (w : W64) : W64 :=
  match namedNode s w with
  | none => word64 [(3, 62)]
  | some x =>
    if ¬ x.2.desc.shape then word64 [(3, 62)]
    else match x.2.final with
      | some f => word64 [(if x.2.fault ≠ none then 2 else 1, 62), (x.2.predicted, 32), (f, 16), (x.2.done % 2 ^ 16, 0)]
      | none => word64 [(x.2.predicted, 32), (x.2.done % 2 ^ 16, 0)]
/-- R73, R363: the hub answers with the word as it then stands. -/
def opShapeq (a : SSpec) : Op := { run := fun _ k _ t => { traps := poisonS t [a], act := askHub k t (.query (nameOf t (readS t a))) } }
/-- R363: whether a `shapew` of this handle has to wait. -/
def shapeOpen (s : State) (w : W64) : Bool :=
  match namedNode s w with
  | some x => x.2.desc.shape && x.2.final.isNone
  | none => false
def opShapew (a : SSpec) : Op :=
  { run := fun _ k s t =>
      { traps := poisonS t [a]
        hold := shapeOpen s (nameOf t (readS t a)) && !(match t.sWait with | some w => w.expired | none => false)
        notes := t.sWait.isNone
        note := fun u =>
          if t.sWait = none then
            modThread k (fun t => { t with sWait := some { kind := .shape, since := s.cc, deadline := if t.sys.lnchlim = 0 then none else some (s.cc + t.sys.lnchlim.toNat) } }) u
          else u
        act := tickClock k } }

end Sys2Proof.Machine
end

