-- ==== Sys2Proof/Machine/Invalidate.lean ====
section
/-! DEFINITION. Squashing a speculative block, invalidations, harvests, and the events that complete them (R98 to R102,
R107, R354, R356). -/

namespace Sys2Proof.Machine

/-! The end of a speculative block (R356). -/

/-- R318, R356: the scratchpad window of a thread is zeroed and its full bits set to empty. -/
def clearWindow (k : Nat) (win : W64) (s : State) : State :=
  let a := scratchPa s (coreOf k) (scrBase win)
  let n := scrEnd win - scrBase win
  { s with
    mem := s.mem.clear a n,
    full := s.full.filter fun w => !(decide (a / 8 ≤ w) && decide (w < (a + n) / 8)),
    woken := s.woken.filter fun w => !(decide (a / 8 ≤ w.1) && decide (w.1 < (a + n) / 8)) }
/-- R354: the buffered lines of a block are discarded. -/
def discardLines (n : NodeRef) (b : Nat) (s : State) : State := { s with specLines := s.specLines.filter fun l => !l.isOf n b }
/-- The accesses of a slot that no longer reach a thread. -/
def orphan (k : Nat) (s : State) : State :=
  { s with
    accesses := s.accesses.map fun a => (a.1, match a.2.owner with
      | .thread j => if j = k then a.2.lose (nodeIn s k) else a.2
      | .engine j _ _ => if j = k then { a.2.lose (nodeIn s k) with void := !a.2.performed } else a.2
      | .chain j _ => if j = k then { a.2.lose (nodeIn s k) with void := true } else a.2
      | .host => a.2 | .peer _ _ => a.2 | .gone => a.2),
    walks := s.walks.filter (fun w => decide (w.slot ≠ k)),
    invals := s.invals.filter fun v => decide (v.slot ≠ k) }
/-- R356: a resident speculative block is squashed: nothing of it outside its windows stays. -/
def squashThread (k : Nat) (s : State) : State :=
  match getThread s k with
  | none => s
  | some t => freeSlot k (releaseClaim k (clearWindow k t.sys.scrwin (orphan k (discardLines t.node t.line s))))
/-- R345, R354: a block returns to the head of its node's list. -/
def requeue (n : NodeRef) (b : Nat) (s : State) : State :=
  match look s.nodes n.id with
  | none => s
  | some x =>
    if x.gen ≠ n.gen then s
    else
      let p := x.desc.prio
      let l := s.readyLists.getD p []
      { s with
        nodes := put s.nodes n.id { x with redo := if x.redo.contains b then x.redo else insertSorted b x.redo, ready := true }
        readyLists := s.readyLists.set p (n.id :: l.filter fun i => decide (i ≠ n.id)) }
where
  /-- Ascending order. -/
  insertSorted (b : Nat) : List Nat → List Nat
    | [] => [b]
    | c :: cs => if b ≤ c then b :: c :: cs else c :: insertSorted b cs
/-- R318, R356: the window of a halted block that is squashed is zeroed before it opens. -/
def clearParked (n : NodeRef) (b : Nat) (s : State) : State :=
  (s.parked.filter fun p => decide (p.node = n) && decide (p.line = b)).foldl (fun s p => clearWindow p.slot p.scrwin s) s
/-- R354: the block is squashed and dispatched again from its first bundle. -/
def squashAgain (n : NodeRef) (b : Nat) (s : State) : State :=
  let s := match s.threads.find? fun x => decide (x.2.node = n) && decide (x.2.line = b) && x.2.spec with
    | some x => squashThread x.1 s
    | none => discardLines n b { clearParked n b s with parked := s.parked.filter fun p => !(decide (p.node = n) && decide (p.line = b)) }
  requeue n b s

/-! Invalidation (R98 to R102). -/

/-- A range of an address space. -/
structure PageRange where
  asid : Nat
  base : Nat
  size : Nat
  deriving DecidableEq, Repr
def PageRange.meets (r : PageRange) (asid base size : Nat) : Bool := decide (r.asid = asid) && overlap r.base r.size base size
where
  overlap (a n b m : Nat) : Bool := decide (a < b + m) && decide (b < a + n)
def pageRange (asid : Nat) (va : W64) (z : PageSize) : PageRange := ⟨asid, va.toNat / z.bytes * z.bytes, z.bytes⟩
/-- R98: VALID handles that overlap become REVOKED. -/
def revokeHandle (r : PageRange) (h : Handle) : Handle :=
  if h.state = .valid ∧ r.meets h.asid h.base h.size.bytes then { h with state := .revoked } else h
/-- R100: the translation of an `xlat` result came from a lookup or walk that the invalidation covers. -/
def fromCleared (r : PageRange) (v : Handle) : Bool :=
  (decide (v.state = .valid) && r.meets v.asid v.base v.size.bytes)
    || (decide (v.state = .faulted) && decide (v.cause ≠ cNonCanon) && !(decide (v.cause = cSystem) && decide (v.level = 0)) && r.meets v.asid v.origin.toNat 1)
/-- R100, R101: the translation of an `xlat` result came from some lookup or walk. -/
def fromLookup (v : Handle) : Bool :=
  decide (v.state = .valid)
    || (decide (v.state = .faulted) && decide (v.cause ≠ cNonCanon) && !(decide (v.cause = cSystem) && decide (v.level = 0)))
/-- R100: an `xlat` result whose translation is among those cleared, which p tells, looks up again. -/
def recheckItem (p : Handle → Bool) (i : Item) : Item :=
  match i.post with
  | .handle h v => if p v then { i with value := none, post := .none, form := .walk h v.origin v.req, need := 1, parts := [] } else i
  | .none => i | .word _ => i | .joined _ => i | .left _ => i
/-- The results of a thread whose translation is among those cleared. -/
def coveredItems (p : Handle → Bool) (is : List Item) : List (Nat × Handle) :=
  is.filterMap fun i => match i.post with
    | .handle _ v => if p v then some (i.tag, v) else none
    | .none => none | .word _ => none | .joined _ => none | .left _ => none
/-- Results without a tag that await an answer again get one. -/
def tagItems (p : Handle → Bool) : Nat → List Item → Nat × List Item
  | n, [] => (n, [])
  | n, i :: is =>
    let need := !(coveredItems p [i]).isEmpty
    let rest := tagItems p (n + 1) is
    (rest.1, (if need then { i with tag := n } else i) :: rest.2)
/-- R175: a captured translation that the invalidation covers. -/
def revokeWord (r : PageRange) (w : QWord) : QWord :=
  clearCaps (fun c => r.meets c.asid c.base c.size) w
def revokeEngine (r : PageRange) (x : Engine) : Engine :=
  { x with queue := x.queue.map (revokeWord r), run := x.run.map fun y => { y with word := revokeWord r y.word, eff := y.eff.map (revokeWord r) } }
/-- R100: the `xlat` results of a thread in slot k whose translation is among those cleared look up again: the thread, and the
state with the walks it starts. -/
def lookAgain (p : Handle → Bool) (k : Nat) (t : Thread) (s : State) : Thread × State :=
  let a := tagItems p s.fresh t.flight
  let pend := match t.saved with | some v => v.pending | none => []
  let b := tagItems p a.1 pend
  let walks := (coveredItems p (a.2 ++ b.2)).map fun x => { slot := k, tag := x.1, asid := x.2.asid, va := x.2.origin, fetch := false, tile := tileOf k : Walk }
  ({ t with
    flight := a.2.map (recheckItem p)
    saved := t.saved.map fun v => { v with pending := b.2.map (recheckItem p) } }, { s with fresh := b.1, walks := s.walks ++ walks })
/-- R98, R100, R175: what an invalidation does to the thread of slot k, and the walks it starts. -/
def invalidateThread (r : PageRange) (k : Nat) (t : Thread) (s : State) : State :=
  let x := lookAgain (fromCleared r) k t s
  setThread x.2 k { x.1 with
    handles := t.handles.map (revokeHandle r)
    c0 := revokeEngine r t.c0
    c1 := revokeEngine r t.c1
    fetchFault := none }
/-- R289: the packet of a chain under a cleared translation is translated again where it stands next. -/
def retranslate (r : PageRange) (a : Access) : Access :=
  match a.op with
  | .chain _ => if !a.performed && r.meets a.asid (a.va.toNat / 64 * 64) 64 then { a with tag := 0 } else a
  | .read _ => a | .write _ => a | .amo _ _ _ => a | .cas _ _ _ => a | .cas2 _ _ => a | .fe _ _ => a | .bar _ _ _ => a | .shapepub _ _ => a
/-- R98, R354: the translations, handles and speculative lines of a range are cleared, and the shootdown count rises. -/
def invalidate (r : PageRange) (s : State) : State :=
  let drop := fun (l : List (Nat × List Tlb)) => l.map fun e => (e.1, e.2.filter fun x => !r.meets x.asid x.base x.size.bytes)
  let s := { s with tlb1 := drop s.tlb1, tlb2 := drop s.tlb2, shootdown := s.shootdown + 1 }
  let s := s.threads.foldl (fun s x => invalidateThread r x.1 x.2 s) { s with accesses := s.accesses.map fun a => (a.1, retranslate r a.2) }
  (s.specLines.filter fun l => r.meets l.asid l.va 64).foldl (fun s l => squashAgain l.node l.line s) s
/-- R98: the accesses under way that a cleared translation covers; a chain's packet is translated again (R289). -/
def coveredAccesses (r : PageRange) (s : State) : List Nat :=
  (s.accesses.filter fun a => !a.2.performed && a.2.answer.isNone && r.meets a.2.asid (a.2.va.toNat / 64 * 64) 64
    && (match a.2.op with
      | .chain _ => false
      | .read _ => true | .write _ => true | .amo _ _ _ => true | .cas _ _ _ => true | .cas2 _ _ => true | .fe _ _ => true | .bar _ _ _ => true
      | .shapepub _ _ => true)).map Prod.fst
def startInval (k : Nat) (r : PageRange) (s : State) : State :=
  let cov := coveredAccesses r s
  let s := invalidate r s
  modThread k (fun t => { t with hold := true })
    { s with invals := s.invals ++ [{ slot := k, asid := r.asid, base := r.base, size := r.size, covered := cov, harvest := false }] }
def opXinval (a : SSpec) (z : PageSize) : Op :=
  { run := fun place k _ t =>
      { traps := (if t.system then [] else [trapOf tPrivilege place]) ++ poisonS t [a]
        act := startInval k (pageRange (spaceOf t (readS t a)) (readS t a) z) } }
/-- R107: the bundle after `harv` is held until the harvest completes. -/
def opHarv (a : SSpec) : Op :=
  { run := fun place k _ t =>
      { traps := (if t.system then [] else [trapOf tPrivilege place]) ++ poisonS t [a]
        act := fun s => modThread k (fun t => { t with hold := true })
          { s with invals := s.invals ++ [{ slot := k, asid := spaceOf t (readS t a), base := (readS t a).toNat, size := 1, covered := [], harvest := true }] } } }

/-- R98: an access has ended: it has performed or been discarded. -/
def accessEnded (s : State) (id : Nat) : Bool :=
  match look s.accesses id with
  | none => true
  | some a => a.performed || a.answer.isSome
/-- The hold of slot k ends. -/
def releaseHold (k : Nat) (harvest : Bool) (s : State) : State :=
  modThread k (fun t => { t with hold := false })
    { s with invals := s.invals.filter fun v => !(decide (v.slot = k) && decide (v.harvest = harvest)) }
def findInval (s : State) (k : Nat) (harvest : Bool) : Option Inval :=
  s.invals.find? fun v => decide (v.slot = k) && decide (v.harvest = harvest)
/-- R98. -/
def evXinvalComplete (k : Nat) (s : State) : State :=
  match findInval s k false with
  | some v => if v.covered.all (accessEnded s) then releaseHold k false s else s
  | none => s

/-! Harvesting (R107, R108). -/

/-- R107: G of a granule is read and cleared, and the write ownerships of its lines are recalled. -/
def harvestGranule (g : Nat) (s : State) : Bool × State :=
  let x := (look s.granules g).getD {}
  (x.g, { s with
    granules := put s.granules g { x with g := false },
    dir := s.dir.map fun d => if d.1 / 1024 = g then (d.1, { d.2 with owner := none }) else d })
/-- R107: the granules of a frame; whether any G was set. -/
def harvestGranules : List Nat → State → Bool × State
  | [], s => (false, s)
  | g :: gs, s =>
    let r := harvestGranule g s
    let q := harvestGranules gs r.2
    (r.1 || q.1, q.2)
/-- R107: what a harvest of the page at va by the thread of slot k does; its table reads count (R104). The rule gives
`harv` no check of va, so that it walks by bits [56:0] alone (log entry 88). -/
def harvestPage (k asid : Nat) (va : W64) (s : State) : State :=
  let walk := walkTables s (threadMaster s k) asid va
  let s := countReads s.cfg.device (tileOf k) walk.2 s
  match walk.1 with
  | .fault _ _ => s
  | .leaf w l =>
    let frame := bits w.toNat 16 40 * 2 ^ 16
    let a := walk.2.getLast?.getD 0
    let setD := fun (s : State) => tableWrite (threadMaster s k) a (bytes64 (w ||| 0x200)) s
    if bits w.toNat 62 2 = 0 ∧ isHbm frame then
      let r := harvestGranules ((List.range ((leafSize l).bytes / 65536)).map fun i => frame / 65536 + i) s
      if r.1 then setD r.2 else r.2
    else setD s
def evHarvComplete (k : Nat) (s : State) : State :=
  match findInval s k true with
  | some v => releaseHold k true (harvestPage k v.asid (BitVec.ofNat 64 v.base) s)
  | none => s

end Sys2Proof.Machine
end

