-- ==== Sys2Proof/Machine/EngineOps.lean ====
section
/-! DEFINITION. Engine words at issue: the stacks (R63, R65), the queues (R66), the parameters of copy and M words and
their checks (R170 to R172, R184, R185, R187, R249, R256, R257). -/

namespace Sys2Proof.Machine

/-! Engine causes (R271). -/

def eBadParam := 1
def eBadDesc := 2
def eRevoked := 3
def eWrongSink := 4
def eNestBound := 5
def eToken := 6
def eDenied := 7
def ePeer := 8

/-! Words that act on a stack alone (R63). -/

def opLit (e : Eng) (v : BitVec 13) : Op :=
  { run := fun place k _ t =>
      { traps := if stackFull t e then stackTrap place (engineNo e) else []
        act := modThread k (stackPush e (BitVec.ofInt 64 v.toInt)) }
    stack := stackPush e (BitVec.ofInt 64 v.toInt) }
/-- An effect on the entries of a stack that needs n of them and makes it m longer. -/
def opStack (e : Eng) (n m : Nat) (f : List W64 → List W64) : Op :=
  let go := fun (t : Thread) => let x := getEngine t e; setEngine t e { x with stack := f x.stack }
  { run := fun place k _ t =>
      { traps := if (getEngine t e).stack.length < n ∨ 8 < (getEngine t e).stack.length + m then stackTrap place (engineNo e) else []
        act := modThread k go }
    stack := go }
def opLitx (e : Eng) (v : BitVec 11) : Op :=
  opStack e 1 0 fun l => match l with | x :: xs => (x * 2048 + v.zeroExtend 64) :: xs | [] => []
def opDup (e : Eng) : Op := opStack e 1 1 fun l => match l with | x :: xs => x :: x :: xs | [] => []
def opDrop (e : Eng) : Op := opStack e 1 0 fun l => l.drop 1
def opSwap (e : Eng) : Op := opStack e 2 0 fun l => match l with | x :: y :: xs => y :: x :: xs | [x] => [x] | [] => []

/-! Parameters. -/

/-- R170, R171, R184, R256: what a parameter of an engine word is. -/
inductive PForm where
  | local | pkg | handle | len | circuit | bytes | fmt | recs | wgt | any
  | col | count (lo hi step : Nat) | mat (t : MType) | scale
  deriving DecidableEq, Repr

/-- R171, R256: the parameters of a word, in push order. -/
def paramForms : Instr → List PForm
  | .lda _ _ => [.local]
  | .ldac _ _ _ => [.col]
  | .mma _ u => [.col, .mat u, .count 16 512 16]
  | .mmaz _ u => [.col, .mat u, .count 16 512 16]
  | .drain _ _ _ => [.local, .col, .count 1 512 1]
  | .drainq _ _ _ => [.local, .scale, .col, .count 1 512 1]
  | .nest _ => [.local]
  | .zacc _ => [.col, .count 1 512 1]
  | .msync _ _ => [.local]
  | .mstat _ _ => [.local]
  | .g2s _ _ _ _ => [.local, .handle, .len]
  | .s2g _ _ _ _ => [.handle, .local, .len]
  | .s2s _ _ _ _ => [.local, .pkg, .len]
  | .s2w _ _ => [.wgt, .local, .recs, .fmt]
  | .g2w _ _ _ => [.wgt, .handle, .recs, .fmt]
  | .g2g _ _ _ _ => [.handle, .handle, .len]
  | .circ _ _ _ => [.circuit, .handle, .local, .len]
  | .cflag _ _ _ => [.handle, .any]
  | .cnest _ _ _ _ => [.local]
  | .cbar _ _ g => [if g then .handle else .local, .any, .bytes]
  | .channelCstat _ _ => [.local]
  | _ => []

/-- R184: the bytes of a slice that j records fill. -/
def sliceBytes (f j : Nat) : Nat := if f = 0 then j else if f = 1 then 2 * j else (j + 1) / 2
/-- R172: the longest length: 2^20 with an S or P operand, 2^30 between G operands. -/
def lenLimit (fs : List PForm) : Nat := if fs.contains .local || fs.contains .pkg then 2 ^ 20 else 2 ^ 30
/-- R172, R184, R256, R257, check 1: whether a parameter is out of range; `ps` are all the word's parameters. -/
def badParam (fs : List PForm) (ps : List W64) (f : PForm) (v : W64) : Bool :=
  let n := v.toNat
  match f with
  | .local => decide (2 ^ 20 ≤ n)
  | .pkg => decide (2 ^ 28 ≤ n) || decide (191 < bits n 20 8)
  | .handle => false
  | .len => decide (n % 64 ≠ 0) || decide (n = 0) || decide (lenLimit fs < n)
  | .circuit => decide (127 < n)
  | .bytes => decide (2 ^ 40 ≤ n)
  | .fmt => decide (2 < n)
  | .recs =>
    let l := recordBytes (ps.getD 3 0).toNat * n
    decide (n = 0) || decide (65536 < n) || decide (l % 64 ≠ 0) || decide (lenLimit fs < l)
  | .wgt =>
    let j := (ps.getD 2 0).toNat
    let m := (ps.getD 3 0).toNat
    decide (2 ^ 32 ≤ n) || decide (65536 < bits n 0 16 + sliceBytes m j)
      || (decide (m = 2) && (decide (bits n 16 16 % 16 ≠ 0) || decide (65536 < bits n 16 16 + 16 * j)))
  | .any => false
  | .col => decide (511 < n)
  | .count lo hi step => decide (n < lo) || decide (hi < n) || decide (n % step ≠ 0)
  | .mat u => decide (2 ^ 32 ≤ n) || (decide (u = .bf16 ∨ u = .f16) && decide (n % 2 ≠ 0))
      || (if u = .sb4 then decide (bits n 16 16 % 16 ≠ 0) else decide (bits n 16 16 ≠ 0))
  | .scale => decide (2 ^ 32 ≤ n)
/-- R256, R366: BADPARAM names the first parameter that failed, in the order in which they are popped (log entry 43). -/
def paramTraps (place : Nat) (fs : List PForm) (ps : List W64) : List Trap :=
  match (fs.zip ps).reverse.find? fun x => badParam fs ps x.1 x.2 with
  | some x => [trapOf tEngineFault place x.2 0 eBadParam]
  | none => []

/-! Extents. -/

/-- R366: an extent outside the scratchpad window, named by its first failing byte. -/
def scrTraps (place : Nat) (win : W64) (a n : Nat) : List Trap :=
  if inScr win a n then []
  else [trapOf tScratchBound place (BitVec.ofNat 64 (if scrBase win ≤ a ∧ a < scrEnd win then scrEnd win else a))]
def wgtDataTraps (place : Nat) (win : W64) (a n : Nat) : List Trap :=
  if wgtDataIn win a n then [] else [trapOf tScratchBound place (BitVec.ofNat 64 (2 ^ 63 + a))]
def wgtHdrTraps (place : Nat) (win : W64) (a n : Nat) : List Trap :=
  if wgtHdrIn win a n then [] else [trapOf tScratchBound place (BitVec.ofNat 64 (2 ^ 63 + 2 ^ 62 + a))]
def accTraps (place : Nat) (win : W64) (c n : Nat) : List Trap :=
  if accIn win c n then [] else [trapOf tScratchBound place (BitVec.ofNat 64 c)]
/-- R257: bytes of n columns of B in a slice. -/
def colBytes (u : MType) (n : Nat) : Nat := if u = .bf16 ∨ u = .f16 then 2 * n else if u = .sb4 then n / 2 else n
/-- R257, check 3, of a multiply. -/
def mmaTraps (place : Nat) (acc wgt : W64) (u : MType) (c b n : Nat) : List Trap :=
  accTraps place acc c n ++ wgtDataTraps place wgt (bits b 0 16) (colBytes u n)
    ++ (if u = .sb4 then wgtHdrTraps place wgt (bits b 16 16) (16 * n) else [])
def alignTraps (place : Nat) (n : Nat) (v : W64) : List Trap := if v.toNat % n ≠ 0 then [trapOf tAlign place v] else []

/-- R257, checks 2 and 3. -/
def matrixTraps (place : Nat) (t : Thread) (i : Instr) (ps : List W64) : List Trap :=
  let p0 := nthNat ps 0
  let p1 := nthNat ps 1
  let p2 := nthNat ps 2
  let scr := scrTraps place t.sys.scrwin
  let acc := accTraps place t.sys.accwin
  match i with
  | .lda _ a => alignTraps place 64 (ps.getD 0 0) ++ scr p0 (96 * a.rowBytes)
  | .ldac _ _ _ => acc p0 96
  | .mma _ u => mmaTraps place t.sys.accwin t.sys.wgtwin u p0 p1 p2
  | .mmaz _ u => mmaTraps place t.sys.accwin t.sys.wgtwin u p0 p1 p2
  | .drain _ _ f => alignTraps place 64 (ps.getD 0 0) ++ scr p0 (p2 * f.pitch) ++ acc p1 p2
  | .drainq _ _ _ => alignTraps place 64 (ps.getD 0 0) ++ scr p0 (6144 * ((nthNat ps 3 + 95) / 96)) ++ acc p2 (nthNat ps 3)
  | .nest _ => alignTraps place 64 (ps.getD 0 0) ++ scr p0 128
  | .zacc _ => acc p0 p1
  | .msync _ _ => alignTraps place 8 (ps.getD 0 0) ++ scr p0 8
  | .mstat _ _ => alignTraps place 16 (ps.getD 0 0) ++ scr p0 16
  | _ => []

/-- R172, check 4: the weight-store extents of a word. -/
def weightTraps (place : Nat) (win : W64) (i : Instr) (ps : List W64) : List Trap :=
  let go := fun (_ : Unit) =>
    let w := nthNat ps 0
    wgtDataTraps place win (bits w 0 16) (sliceBytes (nthNat ps 3) (nthNat ps 2))
      ++ (if nthNat ps 3 = 2 then wgtHdrTraps place win (bits w 16 16) (16 * nthNat ps 2) else [])
  match i with
  | .s2w _ _ => go ()
  | .g2w _ _ _ => go ()
  | _ => []
/-- R172, checks 2 to 4. -/
def copyTraps (place : Nat) (t : Thread) (i : Instr) (ps : List W64) : List Trap :=
  let ext := copyExtent i ps
  let os := (paramForms i).zip ps
  ((gOperands i ps).flatMap fun g => handleChecks t place (gHandle g.1) (gOffset g.1) ext (globalAlign i) g.2)
    ++ (os.flatMap fun x => if x.1 = .local ∨ x.1 = .pkg then alignTraps place (localAlign i) x.2 else [])
    ++ (os.flatMap fun x => if x.1 = .local then scrTraps place t.sys.scrwin x.2.toNat ext else [])
    ++ weightTraps place t.sys.wgtwin i ps

/-- R172, R250, R257: the queue entry of a word at issue, with what it captures. -/
def queueEntry (e : Eng) (i : Instr) (t : Thread) : QWord :=
  let ps := ((getEngine t e).stack.take (paramForms i).length).reverse
  { instr := i, params := ps, scrwin := t.sys.scrwin, wgtwin := t.sys.wgtwin, accwin := t.sys.accwin
    caps := (gOperands i ps).map fun g => captureG t g.1 g.2, seq := (getEngine t e).lastSeq + 1 }
/-- R65, R66: the word pops its parameters and enters its queue. -/
def enterQueue (e : Eng) (w : QWord) (t : Thread) : Thread :=
  let x := getEngine t e
  setEngine t e { x with stack := x.stack.drop w.params.length, queue := x.queue ++ [w], lastSeq := w.seq }
/-- R65, R66, R172, R250, R257: an operation word is checked, pops its parameters and enters its queue. -/
def opEngineWord (e : Eng) (i : Instr) : Op :=
  { run := fun place k _ t =>
      let w := queueEntry e i t
      { traps := if (getEngine t e).stack.length < (paramForms i).length then stackTrap place (engineNo e)
          else (paramTraps place (paramForms i) w.params
            ++ (if e = .m then matrixTraps place t i w.params else copyTraps place t i w.params)).take 1
        hold := decide (16 ≤ (getEngine t e).queue.length)
        act := modThread k (enterQueue e w) }
    stack := fun t => enterQueue e (queueEntry e i t) t }

def opTokenOnly (e : Eng) (tk : Tok) : Op := opEngineWord e (.tokenOnly e tk)
def opLda (tk : Tok) (t : MType) : Op := opEngineWord .m (.lda tk t)
def opLdac (tk : Tok) (i : Bool) (t : MType) : Op := opEngineWord .m (.ldac tk i t)
def opMma (tk : Tok) (t : MType) : Op := opEngineWord .m (.mma tk t)
def opMmaz (tk : Tok) (t : MType) : Op := opEngineWord .m (.mmaz tk t)
def opDrain (tk : Tok) (fe : Bool) (f : DrainFmt) : Op := opEngineWord .m (.drain tk fe f)
def opDrainq (tk : Tok) (n : Bool) (sel : BitVec 3) : Op := opEngineWord .m (.drainq tk n sel)
def opNest (tk : Tok) : Op := opEngineWord .m (.nest tk)
def opZacc (tk : Tok) : Op := opEngineWord .m (.zacc tk)
def opMsync (tk : Tok) (take : Bool) : Op := opEngineWord .m (.msync tk take)
def opMstat (tk : Tok) (clr : Bool) : Op := opEngineWord .m (.mstat tk clr)
def opG2s (c : Chan) (tk : Tok) (p : PathSel) (fe : Bool) : Op := opEngineWord c.eng (.g2s c tk p fe)
def opS2g (c : Chan) (tk : Tok) (p : PathSel) (fe : Bool) : Op := opEngineWord c.eng (.s2g c tk p fe)
def opS2s (c : Chan) (tk : Tok) (p : PathSel) (fe : Bool) : Op := opEngineWord c.eng (.s2s c tk p fe)
def opS2w (c : Chan) (tk : Tok) : Op := opEngineWord c.eng (.s2w c tk)
def opG2w (c : Chan) (tk : Tok) (p : PathSel) : Op := opEngineWord c.eng (.g2w c tk p)
def opG2g (c : Chan) (tk : Tok) (p : PathSel) (fe : Bool) : Op := opEngineWord c.eng (.g2g c tk p fe)
def opCirc (c : Chan) (tk : Tok) (fe : Bool) : Op := opEngineWord c.eng (.circ c tk fe)
def opCflag (c : Chan) (tk : Tok) (fe : Bool) : Op := opEngineWord c.eng (.cflag c tk fe)
def opCnest (c : Chan) (tk : Tok) (p : PathSel) (fe : Bool) : Op := opEngineWord c.eng (.cnest c tk p fe)
def opCbar (c : Chan) (tk : Tok) (g : Bool) : Op := opEngineWord c.eng (.cbar c tk g)
def opChannelCstat (c : Chan) (tk : Tok) : Op := opEngineWord c.eng (.channelCstat c tk)

end Sys2Proof.Machine
end

