-- ==== Sys2Proof/Machine/Engine.lean ====
section
/-! DEFINITION. What the engines of a slot have in common when they run: deferred faults, token pops and pushes, the
end of a word (R173, R254, R255, R266, R272). -/

namespace Sys2Proof.Machine

/-- R368: the WHERE code of an engine. -/
def enginePlace : Eng → Nat | .m => 6 | .c0 => 7 | .c1 => 8
/-- R272: a deferred fault halts the engine; a second one while the first is unobserved is not raised separately. -/
def deferFault (k : Nat) (e : Eng) (tr : Trap) (s : State) : State :=
  modEngine k e (fun x =>
    match x.fault with
    | some _ => x
    | none => { x with
        fault := some { trap := { tr with place := enginePlace e, deferred := true }, observed := false }
        lastCode := tr.code
        lastCause := if tr.code = tEngineFault then tr.cause else 0
        run := x.run.map fun r => { r with waiting := false, live := false, limit := none } }) s
def engineFaultOf (cause : Nat) (a0 a1 : W64) : Trap := { code := tEngineFault, place := 0, cause := cause, arg0 := a0, arg1 := a1 }

/-- R62: the token bits of a word. -/
def tokOf : Instr → Tok
  | .tokenOnly _ tk => tk
  | .lda tk _ => tk | .ldac tk _ _ => tk | .mma tk _ => tk | .mmaz tk _ => tk | .drain tk _ _ => tk | .drainq tk _ _ => tk
  | .nest tk => tk | .zacc tk => tk | .msync tk _ => tk | .mstat tk _ => tk
  | .g2s _ tk _ _ => tk | .s2g _ tk _ _ => tk | .s2s _ tk _ _ => tk | .s2w _ tk => tk | .g2w _ tk _ => tk | .g2g _ tk _ _ => tk
  | .circ _ tk _ => tk | .cflag _ tk _ => tk | .cnest _ tk _ _ => tk | .cbar _ tk _ => tk | .channelCstat _ tk => tk
  | _ => Tok.none
/-- R255: the counts a word pops are there, or it has popped before. -/
def tokensReady (cc : Nat) (t : Thread) (e : Eng) (w : QWord) : Bool :=
  w.took || ((!(tokOf w.instr).pu || decide (0 < upReady cc t e)) && (!(tokOf w.instr).pd || decide (0 < downReady cc t e)))
/-- R255: a word pops its tokens once. -/
def popTokens (e : Eng) (w : QWord) (t : Thread) : Thread :=
  if w.took then t
  else
    let k := tokOf w.instr
    let a := if k.pu then setUp t.tokens (upCount t.tokens e - 1) e else t.tokens
    let b := if k.pd then setDown a (downCount a e - 1) e else a
    { t with tokens := b }
/-- R255: a push that would pass 255 leaves 255. -/
def pushTokens (cc : Nat) (e : Eng) (k : Tok) (t : Thread) : Thread × Bool :=
  let up := k.su && decide (sendUp t.tokens e < 255)
  let down := k.sd && decide (sendDown t.tokens e < 255)
  let add := fun (x : Tokens) =>
    let a := if up then putSendUp x (sendUp x e + 1) e else x
    if down then putSendDown a (sendDown a e + 1) e else a
  (notePushed cc add { t with tokens := add t.tokens }, (k.su && !up) || (k.sd && !down))
/-- R173, R255: the word in progress of an engine finishes and pushes its tokens; a push beyond 255 raises TOKEN. -/
def finishWord (k : Nat) (e : Eng) (s : State) : State :=
  match getThread s k with
  | none => s
  | some t =>
    match (getEngine t e).run with
    | none => s
    | some r =>
      let p := pushTokens s.cc e (tokOf r.word.instr) t
      let x := getEngine p.1 e
      let s := setThread s k (setEngine p.1 e { x with run := none, words := x.words + 1, doneSeq := r.word.seq })
      if p.2 then deferFault k e (engineFaultOf eToken 0 0) s else s
/-- The head of a queue becomes the word in progress. -/
def takeHead (k : Nat) (e : Eng) (f : QWord → Run) (s : State) : State :=
  modThread k (fun t =>
    let x := getEngine t e
    match x.queue with
    | [] => t
    | w :: ws =>
      let t := popTokens e w t
      let x := getEngine t e
      setEngine t e { x with queue := ws, run := some (f { w with took := true }) }) s
/-- Changes the word in progress. -/
def modRun (k : Nat) (e : Eng) (f : Run → Run) (s : State) : State := modEngine k e (fun x => { x with run := x.run.map f }) s
/-- An engine that may act: its thread is not killed and no fault halts it. -/
def engineFree (t : Thread) (e : Eng) : Bool := decide (t.life ≠ .killed) && (getEngine t e).fault.isNone

end Sys2Proof.Machine
end

