-- ==== Sys2Proof/Machine/Integer.lean ====
section
/-! DEFINITION. The integer, compare, select and immediate operations of the S slot, and `keep` (R214 to R218). -/

namespace Sys2Proof.Machine

/-- R215: N. -/
def widthOf (w : Bool) : Nat := if w then 32 else 64
/-- R215: an operation on the low N bits of two scalars, its result zero-extended. -/
def opInt2 (lat : Nat) (a b : SSpec) (w : Bool) (f : Nat → Nat → Nat → Nat) : Op :=
  opScalarPure lat [a, b] fun t =>
    let n := widthOf w
    BitVec.ofNat 64 (f n ((readS t a).toNat % 2 ^ n) ((readS t b).toNat % 2 ^ n) % 2 ^ n)
/-- R215: an operation on the low N bits of one scalar. -/
def opInt1 (a : SSpec) (w : Bool) (f : Nat → Nat → Nat) : Op :=
  opScalarPure 1 [a] fun t =>
    let n := widthOf w
    BitVec.ofNat 64 (f n ((readS t a).toNat % 2 ^ n) % 2 ^ n)

/-! R215: the value of each operation on N-bit x and y, before its low N bits are taken. -/

def valAdd (_ x y : Nat) : Nat := x + y
def valSub (n x y : Nat) : Nat := x + 2 ^ n - y
def valMul (_ x y : Nat) : Nat := x * y
def valMulh (n x y : Nat) : Nat := wrapInt n ((signedOf n x * signedOf n y) / (2 ^ n : Int))
def valMulhu (n x y : Nat) : Nat := x * y / 2 ^ n
/-- R215: Quot. -/
def valDiv (n x y : Nat) : Nat :=
  if y = 0 then 2 ^ n - 1
  else if x = 2 ^ (n - 1) ∧ y = 2 ^ n - 1 then x
  else wrapInt n ((signedOf n x).tdiv (signedOf n y))
def valDivu (n x y : Nat) : Nat := if y = 0 then 2 ^ n - 1 else x / y
/-- R215: Rem. -/
def valRem (n x y : Nat) : Nat :=
  if y = 0 then x
  else if x = 2 ^ (n - 1) ∧ y = 2 ^ n - 1 then 0
  else wrapInt n ((signedOf n x).tmod (signedOf n y))
def valRemu (_ x y : Nat) : Nat := if y = 0 then x else x % y
def valAnd (_ x y : Nat) : Nat := x &&& y
def valOr (_ x y : Nat) : Nat := x ||| y
def valXor (_ x y : Nat) : Nat := x ^^^ y
def valAndn (n x y : Nat) : Nat := x &&& (2 ^ n - 1 - y)
def valShl (n x y : Nat) : Nat := x * 2 ^ (y % n)
def valShr (n x y : Nat) : Nat := x / 2 ^ (y % n)
def valSar (n x y : Nat) : Nat := wrapInt n (signedOf n x / (2 ^ (y % n) : Int))
def valRotl (n x y : Nat) : Nat := x * 2 ^ (y % n) + x / 2 ^ (n - y % n)
def valMin (n x y : Nat) : Nat := if signedOf n x ≤ signedOf n y then x else y
def valMax (n x y : Nat) : Nat := if signedOf n x ≤ signedOf n y then y else x
def valMinu (_ x y : Nat) : Nat := min x y
def valMaxu (_ x y : Nat) : Nat := max x y
/-- The number of zero bits above the highest 1 of an n-bit x. -/
def valClz : Nat → Nat → Nat
  | 0, _ => 0
  | n + 1, x => if x / 2 ^ n % 2 = 1 then 0 else 1 + valClz n x
/-- The number of zero bits below the lowest 1 of an n-bit x. -/
def valCtz : Nat → Nat → Nat
  | 0, _ => 0
  | n + 1, x => if x % 2 = 1 then 0 else 1 + valCtz n (x / 2)
/-- The number of 1 bits of an n-bit x. -/
def valPopc : Nat → Nat → Nat
  | 0, _ => 0
  | n + 1, x => x % 2 + valPopc n (x / 2)
def valCeq (_ x y : Nat) : Nat := bit (decide (x = y))
def valCne (_ x y : Nat) : Nat := bit (decide (x ≠ y))
def valClt (n x y : Nat) : Nat := bit (decide (signedOf n x < signedOf n y))
def valCltu (_ x y : Nat) : Nat := bit (decide (x < y))
def valCle (n x y : Nat) : Nat := bit (decide (signedOf n x ≤ signedOf n y))
def valCleu (_ x y : Nat) : Nat := bit (decide (x ≤ y))

def opAdd (a b : SSpec) (w : Bool) : Op := opInt2 1 a b w valAdd
def opSub (a b : SSpec) (w : Bool) : Op := opInt2 1 a b w valSub
def opMul (a b : SSpec) (w : Bool) : Op := opInt2 3 a b w valMul
def opMulh (a b : SSpec) (w : Bool) : Op := opInt2 3 a b w valMulh
def opMulhu (a b : SSpec) (w : Bool) : Op := opInt2 3 a b w valMulhu
def opDiv (a b : SSpec) (w : Bool) : Op := opInt2 24 a b w valDiv
def opDivu (a b : SSpec) (w : Bool) : Op := opInt2 24 a b w valDivu
def opRem (a b : SSpec) (w : Bool) : Op := opInt2 24 a b w valRem
def opRemu (a b : SSpec) (w : Bool) : Op := opInt2 24 a b w valRemu
def opAnd (a b : SSpec) (w : Bool) : Op := opInt2 1 a b w valAnd
def opOr (a b : SSpec) (w : Bool) : Op := opInt2 1 a b w valOr
def opXor (a b : SSpec) (w : Bool) : Op := opInt2 1 a b w valXor
def opAndn (a b : SSpec) (w : Bool) : Op := opInt2 1 a b w valAndn
def opShl (a b : SSpec) (w : Bool) : Op := opInt2 1 a b w valShl
def opShr (a b : SSpec) (w : Bool) : Op := opInt2 1 a b w valShr
def opSar (a b : SSpec) (w : Bool) : Op := opInt2 1 a b w valSar
def opRotl (a b : SSpec) (w : Bool) : Op := opInt2 1 a b w valRotl
def opMin (a b : SSpec) (w : Bool) : Op := opInt2 1 a b w valMin
def opMax (a b : SSpec) (w : Bool) : Op := opInt2 1 a b w valMax
def opMinu (a b : SSpec) (w : Bool) : Op := opInt2 1 a b w valMinu
def opMaxu (a b : SSpec) (w : Bool) : Op := opInt2 1 a b w valMaxu
def opClz (a : SSpec) (w : Bool) : Op := opInt1 a w valClz
def opCtz (a : SSpec) (w : Bool) : Op := opInt1 a w valCtz
def opPopc (a : SSpec) (w : Bool) : Op := opInt1 a w valPopc
/-- R216. -/
def opSext (a : SSpec) (width : ExtWidth) : Op := opScalarPure 1 [a] fun t => BitVec.ofInt 64 (signedOf width.bits (readS t a).toNat)
def opZext (a : SSpec) (width : ExtWidth) : Op := opScalarPure 1 [a] fun t => BitVec.ofNat 64 ((readS t a).toNat % 2 ^ width.bits)
def opCeq (a b : SSpec) (w : Bool) : Op := opInt2 1 a b w valCeq
def opCne (a b : SSpec) (w : Bool) : Op := opInt2 1 a b w valCne
def opClt (a b : SSpec) (w : Bool) : Op := opInt2 1 a b w valClt
def opCltu (a b : SSpec) (w : Bool) : Op := opInt2 1 a b w valCltu
def opCle (a b : SSpec) (w : Bool) : Op := opInt2 1 a b w valCle
def opCleu (a b : SSpec) (w : Bool) : Op := opInt2 1 a b w valCleu
/-- R217: b when a is nonzero, else c. -/
def opSel (a b c : SSpec) : Op := opScalarPure 1 [a, b, c] fun t => if readS t a ≠ 0 then readS t b else readS t c
/-- R218. -/
def opLi (i : BitVec 20) : Op := opScalarPure 1 [] fun _ => BitVec.ofInt 64 (simm i)
def opLih (a : SSpec) (i : BitVec 20) : Op := opScalarPure 1 [a] fun t => readS t a <<< 20 + i.zeroExtend 64
def opAddi (a : SSpec) (i : BitVec 20) : Op := opScalarPure 1 [a] fun t => readS t a + BitVec.ofInt 64 (simm i)
def opAndi (a : SSpec) (i : BitVec 20) : Op := opScalarPure 1 [a] fun t => readS t a &&& BitVec.ofInt 64 (simm i)
def opOri (a : SSpec) (i : BitVec 20) : Op := opScalarPure 1 [a] fun t => readS t a ||| BitVec.ofInt 64 (simm i)
def opShli (a : SSpec) (s : BitVec 6) : Op := opScalarPure 1 [a] fun t => readS t a <<< s.toNat

/-- R214: `keep` writes a named scalar at the end of its own vc. -/
def opKeep (d : Fin 16) (b : SSpec) : Op :=
  { run := fun _ k _ t =>
      { traps := poisonS t [b]
        act := modThread k fun u => { u with regs := { u.regs with n := u.regs.n.set d.val (readS t b) } } } }

/-- R51: a NOP does nothing. -/
def opNop : Op := { run := fun _ _ _ _ => {} }

end Sys2Proof.Machine
end

