-- ==== Sys2Proof/Machine/ScalarFp.lean ====
section
/-! DEFINITION. Floating point in the S slot (R219 to R221). -/

namespace Sys2Proof.Machine

/-- R219: the format D selects. -/
def fmtOf (d : Bool) : Fmt := if d then .f64 else .f32
/-- R219: the bits of an operand in the format, and a result zero-extended. -/
def fpIn (d : Bool) (v : W64) : Nat := v.toNat % 2 ^ (fmtOf d).width
def fpOut (r : Nat × FpFlags) : W64 × FpFlags := (BitVec.ofNat 64 r.1, r.2)
def boolOut (r : Bool × FpFlags) : W64 × FpFlags := (BitVec.ofNat 64 (bit r.1), r.2)

def opFp2 (a b : SSpec) (d : Bool) (f : Fmt → RMode → Nat → Nat → Nat × FpFlags) (r : Rnd) : Op :=
  opScalar 4 [a, b] fun t => fpOut (f (fmtOf d) (modeInForce t.sys.fpc r) (fpIn d (readS t a)) (fpIn d (readS t b)))
def opFpCmp (a b : SSpec) (d : Bool) (f : Fmt → Nat → Nat → Bool × FpFlags) : Op :=
  opScalar 4 [a, b] fun t => boolOut (f (fmtOf d) (fpIn d (readS t a)) (fpIn d (readS t b)))

def opFadd (a b : SSpec) (r : Rnd) (d : Bool) : Op := opFp2 a b d fpAdd r
def opFsub (a b : SSpec) (r : Rnd) (d : Bool) : Op := opFp2 a b d fpSub r
def opFmul (a b : SSpec) (r : Rnd) (d : Bool) : Op := opFp2 a b d fpMul r
def opFfma (a b c : SSpec) (r : Rnd) (d : Bool) : Op :=
  opScalar 4 [a, b, c] fun t =>
    fpOut (fpFma (fmtOf d) (modeInForce t.sys.fpc r) (fpIn d (readS t a)) (fpIn d (readS t b)) (fpIn d (readS t c)))
def opFmin (a b : SSpec) (d : Bool) : Op := opFp2 a b d (fun f _ x y => minMaxNum f false x y) .fpc
def opFmax (a b : SSpec) (d : Bool) : Op := opFp2 a b d (fun f _ x y => minMaxNum f true x y) .fpc
/-- R220: compares; their rounding field selects nothing. -/
def opFceq (a b : SSpec) (_ : Rnd) (d : Bool) : Op := opFpCmp a b d fpEq
def opFclt (a b : SSpec) (_ : Rnd) (d : Bool) : Op := opFpCmp a b d fpLt
def opFcle (a b : SSpec) (_ : Rnd) (d : Bool) : Op := opFpCmp a b d fpLe

/-- R221: the exact value a typed operand holds. -/
def sValue (f : SType) (v : W64) : FVal :=
  match f with
  | .f32 => Fmt.f32.decode (v.toNat % 2 ^ 32)
  | .f64 => Fmt.f64.decode v.toNat
  | .f16 => Fmt.f16.decode (v.toNat % 2 ^ 16)
  | .bf16 => Fmt.bf16.decode (v.toNat % 2 ^ 16)
  | .i32 => .ofInt (signedOf 32 v.toNat)
  | .i64 => .ofInt (signedOf 64 v.toNat)
  | .u32 => .ofInt (v.toNat % 2 ^ 32 : Nat)
  | .u64 => .ofInt (v.toNat : Nat)
/-- R221: a value converted to a type. -/
def sConvert (x : FVal) (t : SType) (rm : RMode) (ovf8 : Bool) : Nat × FpFlags :=
  let int := fun (n : Nat) (r : Int × FpFlags) => (wrapInt n r.1, r.2)
  match t with
  | .f32 => round1 x .f32 rm ovf8
  | .f64 => round1 x .f64 rm ovf8
  | .f16 => round1 x .f16 rm ovf8
  | .bf16 => round1 x .bf16 rm ovf8
  | .i32 => int 32 (toIntS x 32 rm)
  | .i64 => int 64 (toIntS x 64 rm)
  | .u32 => int 32 (toIntU x 32 rm)
  | .u64 => int 64 (toIntU x 64 rm)
def opFcvt (a : SSpec) (f t : SType) (r : Rnd) : Op :=
  opScalar 4 [a] fun th => fpOut (sConvert (sValue f (readS th a)) t (modeInForce th.sys.fpc r) (fpcOvf8 th.sys.fpc))

end Sys2Proof.Machine
end

