-- ==== Sys2Proof/Machine/Vector.lean ====
section
/-! DEFINITION. The V slot (R213, R214, R229 to R243). -/

namespace Sys2Proof.Machine

def maskBit (m : Mask) (i : Nat) : Bool := m.getLsbD i
def lane (v : Vec) (i : Nat) : Nat := (v.getD i 0).toNat
/-- R23: the format of a floating-point vector type. -/
def vFmt : VType → Fmt
  | .f32 => .f32 | .bf16x2 => .bf16 | .f16x2 => .f16 | .e4m3x4 => .e4m3 | .e5m2x4 => .e5m2
  | .i32 => .f32 | .i16x2 => .f32 | .i8x4 => .f32
/-- R23: element j of a lane. -/
def elemAt (t : VType) (x j : Nat) : Nat := bits x (t.width * j) t.width
/-- Elements packed into a lane, element 0 lowest. -/
def packElems (w : Nat) : List Nat → Nat
  | [] => 0
  | e :: es => e % 2 ^ w + 2 ^ w * packElems w es
def orAll (fs : List FpFlags) : FpFlags := fs.foldl FpFlags.or .none

/-- R229: a lane-wise operation under a mask; an inactive lane is pushed as 0 and raises no flag. -/
def mapLanes (m : Mask) (f : Nat → Nat × FpFlags) : Vec × FpFlags :=
  let rs := (List.range 96).map fun i => if maskBit m i then f i else (0, .none)
  (rs.map fun r => BitVec.ofNat 32 r.1, orAll (rs.map Prod.snd))
/-- R229: element-wise on one lane of each of three operands. -/
def laneElems (t : VType) (f : Nat → Nat × FpFlags) : Nat × FpFlags :=
  let rs := (List.range t.perLane).map f
  (packElems t.width (rs.map Prod.fst), orAll (rs.map Prod.snd))
def mapElems (t : VType) (m : Mask) (f : Nat → Nat → Nat × FpFlags) : Vec × FpFlags :=
  mapLanes m fun i => laneElems t fun j => f i j

def opV1 (lat : Nat) (a : VSpec) (m : Fin 8) (t : VType) (f : Thread → Nat → Nat × FpFlags) : Op :=
  opVector lat [a] fun th =>
    let x := readVec th a
    mapElems t (readMask th m) fun i j => f th (elemAt t (lane x i) j)
def opV2 (lat : Nat) (a b : VSpec) (m : Fin 8) (t : VType) (f : Thread → Nat → Nat → Nat × FpFlags) : Op :=
  opVector lat [a, b] fun th =>
    let x := readVec th a
    let y := readVec th b
    mapElems t (readMask th m) fun i j => f th (elemAt t (lane x i) j) (elemAt t (lane y i) j)
def opV3 (lat : Nat) (a b c : VSpec) (m : Fin 8) (t : VType) (f : Thread → Nat → Nat → Nat → Nat × FpFlags) : Op :=
  opVector lat [a, b, c] fun th =>
    let x := readVec th a
    let y := readVec th b
    let z := readVec th c
    mapElems t (readMask th m) fun i j => f th (elemAt t (lane x i) j) (elemAt t (lane y i) j) (elemAt t (lane z i) j)
/-- R231: the mode of a V-slot instruction. -/
def vMode (th : Thread) (r : Rnd) : RMode := modeInForce th.sys.fpc r

/-! R232: floating-point arithmetic. -/

def opVadd (a b : VSpec) (m : Fin 8) (t : VType) (r : Rnd) : Op := opV2 3 a b m t fun th => fpAdd (vFmt t) (vMode th r)
def opVsub (a b : VSpec) (m : Fin 8) (t : VType) (r : Rnd) : Op := opV2 3 a b m t fun th => fpSub (vFmt t) (vMode th r)
def opVmul (a b : VSpec) (m : Fin 8) (t : VType) (r : Rnd) : Op := opV2 4 a b m t fun th => fpMul (vFmt t) (vMode th r)
def opVfma (a b c : VSpec) (m : Fin 8) (t : VType) (r : Rnd) : Op := opV3 4 a b c m t fun th => fpFma (vFmt t) (vMode th r)
def opVfms (a b c : VSpec) (m : Fin 8) (t : VType) (r : Rnd) : Op := opV3 4 a b c m t fun th => fpFms (vFmt t) (vMode th r)
def opVfnma (a b c : VSpec) (m : Fin 8) (t : VType) (r : Rnd) : Op := opV3 4 a b c m t fun th => fpFnma (vFmt t) (vMode th r)
def opVmin (a b : VSpec) (m : Fin 8) (t : VType) : Op := opV2 3 a b m t fun _ => minMaxNum (vFmt t) false
def opVmax (a b : VSpec) (m : Fin 8) (t : VType) : Op := opV2 3 a b m t fun _ => minMaxNum (vFmt t) true
/-- R232: the sign bit cleared or inverted; a NaN gives the canonical NaN. -/
def signOp (f : Fmt) (invert : Bool) (x : Nat) : Nat × FpFlags :=
  let v := f.decode x
  if v.isNan then (f.nanBits, { nv := v.isSnan })
  else (if flag x (f.width - 1) then x - f.signBit else if invert then x + f.signBit else x, .none)
def opVabs (a : VSpec) (m : Fin 8) (t : VType) : Op := opV1 3 a m t fun _ => signOp (vFmt t) false
def opVneg (a : VSpec) (m : Fin 8) (t : VType) : Op := opV1 3 a m t fun _ => signOp (vFmt t) true

/-! R233: integer elements. -/

def opVint (lat : Nat) (a b : VSpec) (m : Fin 8) (t : VType) (f : Nat → Nat → Nat → Nat) : Op :=
  opV2 lat a b m t fun _ x y => (f t.width x y % 2 ^ t.width, .none)
def opViadd (a b : VSpec) (m : Fin 8) (t : VType) : Op := opVint 3 a b m t valAdd
def opVisub (a b : VSpec) (m : Fin 8) (t : VType) : Op := opVint 3 a b m t valSub
def opVimul (a b : VSpec) (m : Fin 8) (t : VType) : Op := opVint 4 a b m t valMul
def opVimulh (a b : VSpec) (m : Fin 8) (t : VType) (u : Bool) : Op := opVint 4 a b m t (if u then valMulhu else valMulh)
def opViand (a b : VSpec) (m : Fin 8) (t : VType) : Op := opVint 3 a b m t valAnd
def opVior (a b : VSpec) (m : Fin 8) (t : VType) : Op := opVint 3 a b m t valOr
def opVixor (a b : VSpec) (m : Fin 8) (t : VType) : Op := opVint 3 a b m t valXor
def opVishl (a b : VSpec) (m : Fin 8) (t : VType) : Op := opVint 3 a b m t valShl
def opVishr (a b : VSpec) (m : Fin 8) (t : VType) : Op := opVint 3 a b m t valShr
def opVisar (a b : VSpec) (m : Fin 8) (t : VType) : Op := opVint 3 a b m t valSar
def opVimin (a b : VSpec) (m : Fin 8) (t : VType) (u : Bool) : Op := opVint 3 a b m t (if u then valMinu else valMin)
def opVimax (a b : VSpec) (m : Fin 8) (t : VType) (u : Bool) : Op := opVint 3 a b m t (if u then valMaxu else valMax)

/-! R234 to R236: compare, select, masks. -/

def fpCond (f : Fmt) (k : VCond) (x y : Nat) : Bool × FpFlags :=
  match k with
  | .eq => fpEq f x y
  | .ne => (!(fpEq f x y).1, (fpEq f x y).2)
  | .lt => fpLt f x y
  | .le => fpLe f x y
  | .gt => fpLt f y x
  | .ge => fpLe f y x
  | .un => (!(fpOrdered f x y).1, (fpOrdered f x y).2)
  | .or => fpOrdered f x y
def intCond (n : Nat) (u : Bool) (k : VCond) (x y : Nat) : Bool :=
  let lt := if u then decide (x < y) else decide (signedOf n x < signedOf n y)
  match k with
  | .eq => decide (x = y)
  | .ne => decide (x ≠ y)
  | .lt => lt
  | .le => lt || decide (x = y)
  | .gt => !(lt || decide (x = y))
  | .ge => !lt
  | .un => false
  | .or => true
def condElem (t : VType) (u : Bool) (k : VCond) (x y : Nat) : Nat × FpFlags :=
  let r := if t.isInt then (intCond t.width u k x y, .none) else fpCond (vFmt t) k x y
  (if r.1 then 2 ^ t.width - 1 else 0, r.2)
def opVcmp (a b : VSpec) (u : Bool) (k : VCond) (m : Fin 8) (t : VType) : Op := opV2 3 a b m t fun _ => condElem t u k
/-- R235: every lane is written. -/
def opVsel (a b : VSpec) (m : Fin 8) (_ : VType) : Op :=
  opVector 3 [a, b] fun th =>
    ((List.range 96).map fun i => if maskBit (readMask th m) i then (readVec th a).getD i 0 else (readVec th b).getD i 0, .none)
/-- R213: a vector holding a mask. -/
def maskVec (x : Mask) : Vec := (List.range 96).map fun i => if maskBit x i then BitVec.allOnes 32 else 0
def opMaskOp (f : Thread → Mask) : Op := opVector 1 [] fun th => (maskVec (f th), .none)
def opMand (x y m : Fin 8) : Op := opMaskOp fun th => readMask th x &&& readMask th y &&& readMask th m
def opMor (x y m : Fin 8) : Op := opMaskOp fun th => (readMask th x ||| readMask th y) &&& readMask th m
def opMxor (x y m : Fin 8) : Op := opMaskOp fun th => (readMask th x ^^^ readMask th y) &&& readMask th m
def opMnot (x m : Fin 8) : Op := opMaskOp fun th => ~~~(readMask th x) &&& readMask th m
def maskCount (x : Mask) : Nat := ((List.range 96).filter fun i => maskBit x i).length
/-- R241: the least set bit, or none. -/
def maskFirst (x : Mask) : Option Nat := (List.range 96).find? fun i => maskBit x i
def opMpop (x m : Fin 8) : Op := opVectorScalar 3 [] fun th => BitVec.ofNat 64 (maskCount (readMask th x &&& readMask th m))
def opMfirst (x m : Fin 8) : Op :=
  opVectorScalar 3 [] fun th => BitVec.ofNat 64 ((maskFirst (readMask th x &&& readMask th m)).getD 96)

/-! R237: conversions. -/

/-- R237: the value of a source element. -/
def vValue (t : VType) (x : Nat) : FVal := if t.isInt then .ofInt (signedOf t.width x) else (vFmt t).decode x
/-- R237: Conv. -/
def conv (x : Nat) (s t : VType) (rm : RMode) (ovf8 : Bool) : Nat × FpFlags :=
  if t.isFp then round1 (vValue s x) (vFmt t) rm ovf8
  else if s.isFp then (fun (r : Int × FpFlags) => (wrapInt t.width r.1, r.2)) (toIntS (vValue s x) t.width rm)
  else (wrapInt t.width (clampInt (signedOf s.width x) (-(2 ^ (t.width - 1) : Int)) (2 ^ (t.width - 1) - 1)), .none)
/-- R237: the source element and the place in the target lane of step j. -/
def convPlace (s t : VType) (p j : Nat) : Nat × Nat :=
  if s.perLane ≤ t.perLane then (j, s.perLane * p + j) else (t.perLane * p + j, j)
/-- R237: one lane; in SR the lane's LFSR steps once per element (R36). -/
def convLane (x : Nat) (s t : VType) (p : Nat) (rm : RMode) (sr ovf8 : Bool) (l : W32) : (Nat × FpFlags) × W32 :=
  (List.range (min s.perLane t.perLane)).foldl (fun acc j =>
    let l := if sr then lfsrNext acc.2 else acc.2
    let pl := convPlace s t p j
    let r := conv (elemAt s x pl.1) s t (if sr then .sr l.toNat else rm) ovf8
    ((acc.1.1 + r.1 % 2 ^ t.width * 2 ^ (t.width * pl.2), acc.1.2.or r.2), l)) ((0, .none), l)
def opVcvt (a : VSpec) (g : VType) (m : Fin 8) (s : VType) (r : Rnd) (p : BitVec 2) : Op :=
  opVector 3 [a] fun th =>
    mapLanes (readMask th m) fun i => (convLane (lane (readVec th a) i) s g p.toNat (vMode th r) false (fpcOvf8 th.sys.fpc) 0).1
/-- R237, R36: stochastic rounding; active lanes step their LFSR. -/
def opVcvts (a : VSpec) (g : VType) (m : Fin 8) (s : VType) (p : BitVec 2) : Op :=
  { run := fun _ k _ th =>
      let mk := readMask th m
      let rs := (List.range 96).map fun i =>
        if maskBit mk i then convLane (lane (readVec th a) i) s g p.toNat .rne true (fpcOvf8 th.sys.fpc) (th.lfsr.getD i 0)
        else ((0, .none), th.lfsr.getD i 0)
      { traps := poisonV th [a]
        act := fun u => addItem k (itemOf th 2 3 (.vector (.val (rs.map fun r => BitVec.ofNat 32 r.1.1))) (orAll (rs.map fun r => r.1.2)))
          (modThread k (fun x => { x with lfsr := rs.map Prod.snd }) u) } }

/-! R238, R239: SB4 blocks. -/

def blockOfLanes (v : Vec) : List Byte := (vecBytes v).take 64
/-- R238: the block in lanes 0 to 15, whatever the mask holds. -/
def opVqnt4 (a b : VSpec) (q : BitVec 3) (m : Fin 8) (n : Bool) : Op :=
  opVector 8 [a, b] fun th =>
    let x := readVec th a
    let ins := (List.range 96).map fun i => if maskBit (readMask th m) i then lane x i else 0
    let r := quantise4 ins (lane (readVec th b) 0) q.toNat (if n then 0x4A else 0x4B)
    (lanesOf (r.1 ++ List.replicate 320 0), r.2)
/-- R239: an active lane of a decoded block. A NaN element under a signalling-NaN scale raises NV (DESIGN CHOICE, log entry
107). -/
def dq4Lane (v s : FVal) (rm : RMode) : Nat × FpFlags :=
  match v with
  | .nan _ => (Fmt.f32.nanBits, { nv := s.isSnan })
  | .inf _ => roundPair (mulExact v s) .f32 rm false
  | .fin _ _ _ _ => roundPair (mulExact v s) .f32 rm false
/-- R239, R42: a format code that is not valid raises FORMAT. -/
def opVdq4 (a b : VSpec) (m : Fin 8) (r : Rnd) : Op :=
  { run := fun place k _ th =>
      let blk := blockOfLanes (readVec th a)
      let s := Fmt.f32.decode (lane (readVec th b) 0)
      match decodeBlock blk with
      | none => { traps := poisonV th [a, b] ++ [trapOf tFormat place 0 (BitVec.ofNat 64 (byteAt blk 0))] }
      | some vs =>
        let res := mapLanes (readMask th m) fun i => dq4Lane (vs.getD i (.zero false)) s (vMode th r)
        { traps := poisonV th [a, b]
          act := addItem k (itemOf th 2 8 (.vector (.val res.1)) res.2) } }

/-! R240: transcendentals. -/

def opElem (g : Elem) (a : VSpec) (m : Fin 8) (t : VType) (r : Rnd) : Op := opV1 8 a m t fun th => fpElem g (vFmt t) (vMode th r)
def opVrcp (a : VSpec) (m : Fin 8) (t : VType) (r : Rnd) : Op := opElem .rcp a m t r
def opVrsq (a : VSpec) (m : Fin 8) (t : VType) (r : Rnd) : Op := opElem .rsq a m t r
def opVsqrt (a : VSpec) (m : Fin 8) (t : VType) (r : Rnd) : Op := opElem .sqrt a m t r
def opVexp2 (a : VSpec) (m : Fin 8) (t : VType) (r : Rnd) : Op := opElem .exp2 a m t r
def opVlog2 (a : VSpec) (m : Fin 8) (t : VType) (r : Rnd) : Op := opElem .log2 a m t r

/-! R241: lane moves. -/

def opMove (lat : Nat) (as : List VSpec) (f : Thread → Nat → W32) : Op :=
  opVector lat as fun th => ((List.range 96).map (f th), .none)
def opVperm (a b : VSpec) (m : Fin 8) (_ : VType) : Op :=
  opMove 4 [a, b] fun th i =>
    let j := lane (readVec th b) i
    if maskBit (readMask th m) i ∧ j < 96 then (readVec th a).getD j 0 else 0
def opVrot (a b : VSpec) (m : Fin 8) (_ : VType) : Op :=
  opMove 4 [a, b] fun th i =>
    if maskBit (readMask th m) i then (readVec th a).getD ((i + lane (readVec th b) 0 % 96) % 96) 0 else 0
def opVbcast (a : VSpec) (m : Fin 8) (_ : VType) : Op :=
  opMove 3 [a] fun th _ => match maskFirst (readMask th m) with
    | some f => (readVec th a).getD f 0
    | none => 0
def opVext (a : VSpec) (m : Fin 8) (_ : VType) : Op :=
  opVectorScalar 3 [a] fun th => match maskFirst (readMask th m) with
    | some f => ((readVec th a).getD f 0).zeroExtend 64
    | none => 0
def opVins (a b : VSpec) (m : Fin 8) (_ : VType) : Op :=
  opMove 3 [a, b] fun th i => if maskFirst (readMask th m) = some i then (readVec th b).getD 0 0 else (readVec th a).getD i 0
def opViota (a : VSpec) (m : Fin 8) : Op :=
  opMove 3 [a] fun th i =>
    if maskBit (readMask th m) i then
      (readVec th a).getD 0 0 + BitVec.ofNat 32 ((List.range i).filter fun j => maskBit (readMask th m) j).length
    else 0

/-! R242, R243: reductions and scan. -/

abbrev Comb := Nat → Nat → Nat × FpFlags
/-- Neighbours combined pairwise. -/
def pairUp (f : Comb) : List (Nat × FpFlags) → List (Nat × FpFlags)
  | x :: y :: r => ((f x.1 y.1).1, (x.2.or y.2).or (f x.1 y.1).2) :: pairUp f r
  | r => r
/-- R242: the fixed tree over 96 lanes. -/
def reduceTree (f : Comb) (xs : List Nat) : Nat × FpFlags :=
  let t5 := pairUp f (pairUp f (pairUp f (pairUp f (pairUp f (xs.map fun x => (x, .none))))))
  match pairUp f t5 with
  | [a, b] => ((f a.1 b.1).1, (a.2.or b.2).or (f a.1 b.1).2)
  | _ => (0, .none)
def opReduce (a : VSpec) (m : Fin 8) (ident : Nat) (f : Thread → Comb) : Op :=
  opVector 6 [a] fun th =>
    let xs := (List.range 96).map fun i => if maskBit (readMask th m) i then lane (readVec th a) i else ident
    let r := reduceTree (f th) xs
    (List.replicate 96 (BitVec.ofNat 32 r.1), r.2)
/-- R242: addition of the type, and its identity. -/
def addComb (t : VType) (rm : RMode) : Comb :=
  if t = .i32 then fun x y => ((x + y) % 2 ^ 32, .none) else fpAdd .f32 rm
def addIdent (t : VType) : Nat := if t = .i32 then 0 else 0x80000000
def opVredadd (a : VSpec) (m : Fin 8) (t : VType) (r : Rnd) : Op := opReduce a m (addIdent t) fun th => addComb t (vMode th r)
def opVredmax (a : VSpec) (m : Fin 8) (t : VType) (u : Bool) : Op :=
  opReduce a m (if t = .i32 then (if u then 0 else 0x80000000) else 0xFF800000) fun _ =>
    if t = .i32 then fun x y => ((if u then valMaxu else valMax) 32 x y, .none) else minMaxNum .f32 true
def opVredmin (a : VSpec) (m : Fin 8) (t : VType) (u : Bool) : Op :=
  opReduce a m (if t = .i32 then (if u then 0xFFFFFFFF else 0x7FFFFFFF) else 0x7F800000) fun _ =>
    if t = .i32 then fun x y => ((if u then valMinu else valMin) 32 x y, .none) else minMaxNum .f32 false
/-- R243: one step of the scan at distance d. -/
def scanStep (f : Comb) (d : Nat) (xs : List Nat) : List (Nat × FpFlags) :=
  (List.range 96).map fun i => if d ≤ i then f (xs.getD (i - d) 0) (xs.getD i 0) else (xs.getD i 0, .none)
def scanAll (f : Comb) (xs : List Nat) : List Nat × FpFlags :=
  (List.range 7).foldl (fun acc s =>
    let r := scanStep f (2 ^ s) acc.1
    (r.map Prod.fst, acc.2.or (orAll (r.map Prod.snd)))) (xs, .none)
def opVscan (a : VSpec) (m : Fin 8) (t : VType) (r : Rnd) : Op :=
  opVector 8 [a] fun th =>
    let mk := readMask th m
    let xs := (List.range 96).map fun i => if maskBit mk i then lane (readVec th a) i else addIdent t
    let res := scanAll (addComb t (vMode th r)) xs
    ((List.range 96).map fun i => if maskBit mk i then BitVec.ofNat 32 (res.1.getD i 0) else 0, res.2)

/-! R214: `vkeep` and `mkeep` write at the end of their own vc. -/

def opVkeep (d : Fin 8) (b : VSpec) (m : Fin 8) : Op :=
  { run := fun _ k _ th =>
      let old := th.regs.v.getD d.val zeroVec
      let new := (List.range 96).map fun i => if maskBit (readMask th m) i then (readVec th b).getD i 0 else old.getD i 0
      { traps := poisonV th [b]
        act := modThread k fun u => { u with regs := { u.regs with v := u.regs.v.set d.val new } } } }
/-- R214: the mask whose bit i is given. -/
def maskOf (f : Nat → Bool) : Mask := BitVec.ofNat 96 (packBits ((List.range 96).map fun i => bit (f i)))
def opMkeep (d : Fin 8) (b : VSpec) (m : Fin 8) : Op :=
  { run := fun _ k _ th =>
      let new := maskOf fun i => if maskBit (readMask th m) i then decide ((readVec th b).getD i 0 ≠ 0) else maskBit (readMask th d) i
      { traps := poisonV th [b]
        act := fun s => if d.val = 0 then s else modThread k (fun u => { u with regs := { u.regs with m := u.regs.m.set d.val new } }) s } }

end Sys2Proof.Machine
end

