-- ==== Sys2Proof/Machine/Issue.lean ====
section
/-! DEFINITION. The meaning of each operation of a bundle: presented alone at the slot whose turn it is (R51, R52). The
second table serves bundles of several operations. -/

namespace Sys2Proof.Machine

/-- R51. S-slot opcode 0 does nothing, whatever the other bits of the syllable hold. -/
def execSNop (_ : BitVec 25) (s : State) : Host.Outcome State Fault Refusal := issueOp 0 opNop s
/-- R215. Pushes x + y on 32 or 64 bits. -/
def execAdd (a : SSpec) (b : SSpec) (w : Bool) (s : State) : Host.Outcome State Fault Refusal := issueOp 0 (opAdd a b w) s
/-- R215. Pushes x − y. -/
def execSub (a : SSpec) (b : SSpec) (w : Bool) (s : State) : Host.Outcome State Fault Refusal := issueOp 0 (opSub a b w) s
/-- R215. Pushes the low N bits of x × y, with latency 3. -/
def execMul (a : SSpec) (b : SSpec) (w : Bool) (s : State) : Host.Outcome State Fault Refusal := issueOp 0 (opMul a b w) s
/-- R215. Pushes the high N bits of the signed product. -/
def execMulh (a : SSpec) (b : SSpec) (w : Bool) (s : State) : Host.Outcome State Fault Refusal := issueOp 0 (opMulh a b w) s
/-- R215. Pushes the high N bits of the unsigned product. -/
def execMulhu (a : SSpec) (b : SSpec) (w : Bool) (s : State) : Host.Outcome State Fault Refusal := issueOp 0 (opMulhu a b w) s
/-- R215. Pushes the signed quotient truncated toward zero, by Quot. -/
def execDiv (a : SSpec) (b : SSpec) (w : Bool) (s : State) : Host.Outcome State Fault Refusal := issueOp 0 (opDiv a b w) s
/-- R215. Pushes the unsigned quotient, or all ones for a zero divisor. -/
def execDivu (a : SSpec) (b : SSpec) (w : Bool) (s : State) : Host.Outcome State Fault Refusal := issueOp 0 (opDivu a b w) s
/-- R215. Pushes the signed remainder, by Rem. -/
def execRem (a : SSpec) (b : SSpec) (w : Bool) (s : State) : Host.Outcome State Fault Refusal := issueOp 0 (opRem a b w) s
/-- R215. Pushes the unsigned remainder, or x for a zero divisor. -/
def execRemu (a : SSpec) (b : SSpec) (w : Bool) (s : State) : Host.Outcome State Fault Refusal := issueOp 0 (opRemu a b w) s
/-- R215. Pushes x AND y. -/
def execAnd (a : SSpec) (b : SSpec) (w : Bool) (s : State) : Host.Outcome State Fault Refusal := issueOp 0 (opAnd a b w) s
/-- R215. Pushes x OR y. -/
def execOr (a : SSpec) (b : SSpec) (w : Bool) (s : State) : Host.Outcome State Fault Refusal := issueOp 0 (opOr a b w) s
/-- R215. Pushes x XOR y. -/
def execXor (a : SSpec) (b : SSpec) (w : Bool) (s : State) : Host.Outcome State Fault Refusal := issueOp 0 (opXor a b w) s
/-- R215. Pushes x AND NOT y. -/
def execAndn (a : SSpec) (b : SSpec) (w : Bool) (s : State) : Host.Outcome State Fault Refusal := issueOp 0 (opAndn a b w) s
/-- R215. Pushes x shifted left by y mod N. -/
def execShl (a : SSpec) (b : SSpec) (w : Bool) (s : State) : Host.Outcome State Fault Refusal := issueOp 0 (opShl a b w) s
/-- R215. Pushes x shifted right logically by y mod N. -/
def execShr (a : SSpec) (b : SSpec) (w : Bool) (s : State) : Host.Outcome State Fault Refusal := issueOp 0 (opShr a b w) s
/-- R215. Pushes x shifted right arithmetically by y mod N. -/
def execSar (a : SSpec) (b : SSpec) (w : Bool) (s : State) : Host.Outcome State Fault Refusal := issueOp 0 (opSar a b w) s
/-- R215. Pushes x rotated left by y mod N places. -/
def execRotl (a : SSpec) (b : SSpec) (w : Bool) (s : State) : Host.Outcome State Fault Refusal := issueOp 0 (opRotl a b w) s
/-- R215. Pushes the signed lesser of x and y. -/
def execMin (a : SSpec) (b : SSpec) (w : Bool) (s : State) : Host.Outcome State Fault Refusal := issueOp 0 (opMin a b w) s
/-- R215. Pushes the signed greater of x and y. -/
def execMax (a : SSpec) (b : SSpec) (w : Bool) (s : State) : Host.Outcome State Fault Refusal := issueOp 0 (opMax a b w) s
/-- R215. Pushes the unsigned lesser of x and y. -/
def execMinu (a : SSpec) (b : SSpec) (w : Bool) (s : State) : Host.Outcome State Fault Refusal := issueOp 0 (opMinu a b w) s
/-- R215. Pushes the unsigned greater of x and y. -/
def execMaxu (a : SSpec) (b : SSpec) (w : Bool) (s : State) : Host.Outcome State Fault Refusal := issueOp 0 (opMaxu a b w) s
/-- R215. Pushes the count of leading zero bits of x. -/
def execClz (a : SSpec) (w : Bool) (s : State) : Host.Outcome State Fault Refusal := issueOp 0 (opClz a w) s
/-- R215. Pushes the count of trailing zero bits of x. -/
def execCtz (a : SSpec) (w : Bool) (s : State) : Host.Outcome State Fault Refusal := issueOp 0 (opCtz a w) s
/-- R215. Pushes the count of one bits of x. -/
def execPopc (a : SSpec) (w : Bool) (s : State) : Host.Outcome State Fault Refusal := issueOp 0 (opPopc a w) s
/-- R216. Pushes the low 8, 16 or 32 bits of a, sign-extended to 64 bits. -/
def execSext (a : SSpec) (width : ExtWidth) (s : State) : Host.Outcome State Fault Refusal := issueOp 0 (opSext a width) s
/-- R216. Pushes the low 8, 16 or 32 bits of a, zero-extended to 64 bits. -/
def execZext (a : SSpec) (width : ExtWidth) (s : State) : Host.Outcome State Fault Refusal := issueOp 0 (opZext a width) s
/-- R214. Writes a scalar into a named scalar at the end of its vc. -/
def execKeep (d : Fin 16) (b : SSpec) (s : State) : Host.Outcome State Fault Refusal := issueOp 0 (opKeep d b) s
/-- R217. Pushes 1 if x = y, else 0. -/
def execCeq (a : SSpec) (b : SSpec) (w : Bool) (s : State) : Host.Outcome State Fault Refusal := issueOp 0 (opCeq a b w) s
/-- R217. Pushes 1 if x ≠ y, else 0. -/
def execCne (a : SSpec) (b : SSpec) (w : Bool) (s : State) : Host.Outcome State Fault Refusal := issueOp 0 (opCne a b w) s
/-- R217. Pushes 1 if x is less than y as signed values, else 0. -/
def execClt (a : SSpec) (b : SSpec) (w : Bool) (s : State) : Host.Outcome State Fault Refusal := issueOp 0 (opClt a b w) s
/-- R217. Pushes 1 if x is less than y as unsigned values, else 0. -/
def execCltu (a : SSpec) (b : SSpec) (w : Bool) (s : State) : Host.Outcome State Fault Refusal := issueOp 0 (opCltu a b w) s
/-- R217. Pushes 1 if x ≤ y as signed values, else 0. -/
def execCle (a : SSpec) (b : SSpec) (w : Bool) (s : State) : Host.Outcome State Fault Refusal := issueOp 0 (opCle a b w) s
/-- R217. Pushes 1 if x ≤ y as unsigned values, else 0. -/
def execCleu (a : SSpec) (b : SSpec) (w : Bool) (s : State) : Host.Outcome State Fault Refusal := issueOp 0 (opCleu a b w) s
/-- R217. Pushes b when a is nonzero and c otherwise. -/
def execSel (a : SSpec) (b : SSpec) (c : SSpec) (s : State) : Host.Outcome State Fault Refusal := issueOp 0 (opSel a b c) s
/-- R218. Pushes the sign-extended 20-bit immediate. -/
def execLi (i : BitVec 20) (s : State) : Host.Outcome State Fault Refusal := issueOp 0 (opLi i) s
/-- R218. Pushes (a × 2^20 + the unsigned immediate) mod 2^64. -/
def execLih (a : SSpec) (i : BitVec 20) (s : State) : Host.Outcome State Fault Refusal := issueOp 0 (opLih a i) s
/-- R218. Pushes a plus the sign-extended immediate. -/
def execAddi (a : SSpec) (i : BitVec 20) (s : State) : Host.Outcome State Fault Refusal := issueOp 0 (opAddi a i) s
/-- R218. Pushes a AND the sign-extended immediate. -/
def execAndi (a : SSpec) (i : BitVec 20) (s : State) : Host.Outcome State Fault Refusal := issueOp 0 (opAndi a i) s
/-- R218. Pushes a OR the sign-extended immediate. -/
def execOri (a : SSpec) (i : BitVec 20) (s : State) : Host.Outcome State Fault Refusal := issueOp 0 (opOri a i) s
/-- R218. Pushes a shifted left by a 6-bit immediate count. -/
def execShli (a : SSpec) (s0 : BitVec 6) (s : State) : Host.Outcome State Fault Refusal := issueOp 0 (opShli a s0) s
/-- R219. Pushes the rounded FP32 or FP64 sum and ORs its flags into FPC. -/
def execFadd (a : SSpec) (b : SSpec) (r : Rnd) (d : Bool) (s : State) : Host.Outcome State Fault Refusal := issueOp 0 (opFadd a b r d) s
/-- R219. Pushes the rounded difference. -/
def execFsub (a : SSpec) (b : SSpec) (r : Rnd) (d : Bool) (s : State) : Host.Outcome State Fault Refusal := issueOp 0 (opFsub a b r d) s
/-- R219. Pushes the rounded product. -/
def execFmul (a : SSpec) (b : SSpec) (r : Rnd) (d : Bool) (s : State) : Host.Outcome State Fault Refusal := issueOp 0 (opFmul a b r d) s
/-- R219. Pushes a × b + c, rounded once. -/
def execFfma (a : SSpec) (b : SSpec) (c : SSpec) (r : Rnd) (d : Bool) (s : State) : Host.Outcome State Fault Refusal := issueOp 0 (opFfma a b c r d) s
/-- R220. Pushes minimumNumber of a and b. -/
def execFmin (a : SSpec) (b : SSpec) (d : Bool) (s : State) : Host.Outcome State Fault Refusal := issueOp 0 (opFmin a b d) s
/-- R220. Pushes maximumNumber of a and b. -/
def execFmax (a : SSpec) (b : SSpec) (d : Bool) (s : State) : Host.Outcome State Fault Refusal := issueOp 0 (opFmax a b d) s
/-- R220. Pushes 1 if a equals b as floating-point values, else 0. -/
def execFceq (a : SSpec) (b : SSpec) (r : Rnd) (d : Bool) (s : State) : Host.Outcome State Fault Refusal := issueOp 0 (opFceq a b r d) s
/-- R220. Pushes 1 if a is less than b, else 0; any NaN raises NV. -/
def execFclt (a : SSpec) (b : SSpec) (r : Rnd) (d : Bool) (s : State) : Host.Outcome State Fault Refusal := issueOp 0 (opFclt a b r d) s
/-- R220. Pushes 1 if a ≤ b, else 0; any NaN raises NV. -/
def execFcle (a : SSpec) (b : SSpec) (r : Rnd) (d : Bool) (s : State) : Host.Outcome State Fault Refusal := issueOp 0 (opFcle a b r d) s
/-- R221. Converts a scalar between the floating-point and integer types that the from and to fields name. -/
def execFcvt (a : SSpec) (f : SType) (t : SType) (r : Rnd) (s : State) : Host.Outcome State Fault Refusal := issueOp 0 (opFcvt a f t r) s
/-- R222. Branches to PC + 16 × offset when c is nonzero. -/
def execBr (c : SSpec) (o : BitVec 20) (s : State) : Host.Outcome State Fault Refusal := issueOp 0 (opBr c o) s
/-- R222. Branches to PC + 16 × offset when c is zero. -/
def execBrz (c : SSpec) (o : BitVec 20) (s : State) : Host.Outcome State Fault Refusal := issueOp 0 (opBrz c o) s
/-- R222. Jumps to PC + 16 × offset. -/
def execJmp (o : BitVec 20) (s : State) : Host.Outcome State Fault Refusal := issueOp 0 (opJmp o) s
/-- R222. Pushes PC + 16 with latency 1 and jumps. -/
def execCall (o : BitVec 20) (s : State) : Host.Outcome State Fault Refusal := issueOp 0 (opCall o) s
/-- R222. Jumps to the address in a, raising ALIGN if its bits [3:0] are nonzero. -/
def execRet (a : SSpec) (s : State) : Host.Outcome State Fault Refusal := issueOp 0 (opRet a) s
/-- R222. Decrements a named counter and branches while the result is nonzero. -/
def execLoop (k : Fin 16) (o : BitVec 20) (s : State) : Host.Outcome State Fault Refusal := issueOp 0 (opLoop k o) s
/-- R223. Issues once the store buffer is empty and every engine word of the slot has finished; then ends the thread and frees its slot. -/
def execHalt (s : State) : Host.Outcome State Fault Refusal := issueOp 0 opHalt s
/-- R224. Pushes a scalar onto the parameter stack of M, C0 or C1. -/
def execEpush (a : SSpec) (e : Eng) (s : State) : Host.Outcome State Fault Refusal := issueOp 0 (opEpush a e) s
/-- R226. Waits until the count from C0 or C1 is at least k, then takes k; it observes pending deferred engine faults. -/
def execTkwait (s0 : Side) (k : BitVec 4) (s : State) : Host.Outcome State Fault Refusal := issueOp 0 (opTkwait s0 k) s
/-- R226. Adds k to the core's token count toward C0 or C1. -/
def execTksig (s0 : Side) (k : BitVec 4) (s : State) : Host.Outcome State Fault Refusal := issueOp 0 (opTksig s0 k) s
/-- R228. Pushes the status word of an engine, or observes its pending deferred fault. -/
def execEstat (e : Eng) (s : State) : Host.Outcome State Fault Refusal := issueOp 0 (opEstat e) s
/-- R326. Pushes the identity value that the selector names. -/
def execGetid (s0 : BitVec 4) (s : State) : Host.Outcome State Fault Refusal := issueOp 0 (opGetid s0) s
/-- R329. Asks the hub to create a cohort or to add the thread to one, and pushes a cohort status word. -/
def execJoin (a : SSpec) (new : Bool) (lock : Bool) (s : State) : Host.Outcome State Fault Refusal := issueOp 0 (opJoin a new lock) s
/-- R329. Asks the hub to remove the thread from a cohort, and pushes a cohort status word. -/
def execLeave (a : SSpec) (s : State) : Host.Outcome State Fault Refusal := issueOp 0 (opLeave a) s
/-- R327. Pushes the vc of its own bundle. -/
def execVclk (s : State) : Host.Outcome State Fault Refusal := issueOp 0 opVclk s
/-- R339. Sends a node descriptor to the launch table and pushes a launch status word, failing at once if the table is full. -/
def execLaunch (a : SSpec) (b : SSpec) (s : State) : Host.Outcome State Fault Refusal := issueOp 0 (opLaunch a b) s
/-- R339. As launch, but waits up to LNCHLIM for a free launch-table entry. -/
def execLaunchW (a : SSpec) (b : SSpec) (s : State) : Host.Outcome State Fault Refusal := issueOp 0 (opLaunchW a b) s
/-- R361. Publishes the final extent of a shape node, in program order after the thread's earlier global accesses. -/
def execShapepub (a : SSpec) (b : SSpec) (s : State) : Host.Outcome State Fault Refusal := issueOp 0 (opShapepub a b) s
/-- R363. Pushes the shape word of a node. -/
def execShapeq (a : SSpec) (s : State) : Host.Outcome State Fault Refusal := issueOp 0 (opShapeq a) s
/-- R363. Holds its bundle until the node resolves or LNCHLIM expires. -/
def execShapew (a : SSpec) (s : State) : Host.Outcome State Fault Refusal := issueOp 0 (opShapew a) s
/-- R372. Pushes the value of a system register. -/
def execRdsys (r : BitVec 10) (s : State) : Host.Outcome State Fault Refusal := issueOp 0 (opRdsys r) s
/-- R372. Writes a system register for the next bundle, after the register's own checks. -/
def execWrsys (a : SSpec) (r : BitVec 10) (s : State) : Host.Outcome State Fault Refusal := issueOp 0 (opWrsys a r) s
/-- R372. Raises SOFTWARE with an 8-bit code. -/
def execTrap (code : BitVec 8) (s : State) : Host.Outcome State Fault Refusal := issueOp 0 (opTrap code) s
/-- R374. Returns from a handler: restores the saved queues and pending results, the user mode and the PC, and releases halted engines. -/
def execRft (s : State) : Host.Outcome State Fault Refusal := issueOp 0 opRft s
/-- R372. Treats the slot's quantum as expired, so that the core switches if another slot is ready. -/
def execYield (s : State) : Host.Outcome State Fault Refusal := issueOp 0 opYield s
/-- R51. V-slot opcode 0 does nothing. -/
def execVNop (_ : BitVec 25) (s : State) : Host.Outcome State Fault Refusal := issueOp 1 opNop s
/-- R232. Adds vectors element-wise, with rounding. -/
def execVadd (a : VSpec) (b : VSpec) (m : Fin 8) (t : VType) (r : Rnd) (s : State) : Host.Outcome State Fault Refusal := issueOp 1 (opVadd a b m t r) s
/-- R232. Subtracts vectors element-wise, with rounding. -/
def execVsub (a : VSpec) (b : VSpec) (m : Fin 8) (t : VType) (r : Rnd) (s : State) : Host.Outcome State Fault Refusal := issueOp 1 (opVsub a b m t r) s
/-- R232. Multiplies vectors element-wise, with rounding. -/
def execVmul (a : VSpec) (b : VSpec) (m : Fin 8) (t : VType) (r : Rnd) (s : State) : Host.Outcome State Fault Refusal := issueOp 1 (opVmul a b m t r) s
/-- R232. Computes a × b + c element-wise, rounded once. -/
def execVfma (a : VSpec) (b : VSpec) (c : VSpec) (m : Fin 8) (t : VType) (r : Rnd) (s : State) : Host.Outcome State Fault Refusal := issueOp 1 (opVfma a b c m t r) s
/-- R232. Computes a × b − c element-wise, rounded once. -/
def execVfms (a : VSpec) (b : VSpec) (c : VSpec) (m : Fin 8) (t : VType) (r : Rnd) (s : State) : Host.Outcome State Fault Refusal := issueOp 1 (opVfms a b c m t r) s
/-- R232. Computes c − a × b element-wise, rounded once. -/
def execVfnma (a : VSpec) (b : VSpec) (c : VSpec) (m : Fin 8) (t : VType) (r : Rnd) (s : State) : Host.Outcome State Fault Refusal := issueOp 1 (opVfnma a b c m t r) s
/-- R232. Pushes MinNum element-wise. -/
def execVmin (a : VSpec) (b : VSpec) (m : Fin 8) (t : VType) (s : State) : Host.Outcome State Fault Refusal := issueOp 1 (opVmin a b m t) s
/-- R232. Pushes MaxNum element-wise. -/
def execVmax (a : VSpec) (b : VSpec) (m : Fin 8) (t : VType) (s : State) : Host.Outcome State Fault Refusal := issueOp 1 (opVmax a b m t) s
/-- R232. Clears the sign bit of each element. -/
def execVabs (a : VSpec) (m : Fin 8) (t : VType) (s : State) : Host.Outcome State Fault Refusal := issueOp 1 (opVabs a m t) s
/-- R232. Inverts the sign bit of each element. -/
def execVneg (a : VSpec) (m : Fin 8) (t : VType) (s : State) : Host.Outcome State Fault Refusal := issueOp 1 (opVneg a m t) s
/-- R233. Adds integer elements, wrapping. -/
def execViadd (a : VSpec) (b : VSpec) (m : Fin 8) (t : VType) (s : State) : Host.Outcome State Fault Refusal := issueOp 1 (opViadd a b m t) s
/-- R233. Subtracts integer elements, wrapping. -/
def execVisub (a : VSpec) (b : VSpec) (m : Fin 8) (t : VType) (s : State) : Host.Outcome State Fault Refusal := issueOp 1 (opVisub a b m t) s
/-- R233. Pushes the low bits of each integer product. -/
def execVimul (a : VSpec) (b : VSpec) (m : Fin 8) (t : VType) (s : State) : Host.Outcome State Fault Refusal := issueOp 1 (opVimul a b m t) s
/-- R233. Pushes the high bits of each integer product, signed or unsigned. -/
def execVimulh (a : VSpec) (b : VSpec) (m : Fin 8) (t : VType) (u : Bool) (s : State) : Host.Outcome State Fault Refusal := issueOp 1 (opVimulh a b m t u) s
/-- R233. ANDs the lanes bit by bit. -/
def execViand (a : VSpec) (b : VSpec) (m : Fin 8) (t : VType) (s : State) : Host.Outcome State Fault Refusal := issueOp 1 (opViand a b m t) s
/-- R233. ORs the lanes bit by bit. -/
def execVior (a : VSpec) (b : VSpec) (m : Fin 8) (t : VType) (s : State) : Host.Outcome State Fault Refusal := issueOp 1 (opVior a b m t) s
/-- R233. XORs the lanes bit by bit. -/
def execVixor (a : VSpec) (b : VSpec) (m : Fin 8) (t : VType) (s : State) : Host.Outcome State Fault Refusal := issueOp 1 (opVixor a b m t) s
/-- R233. Shifts each element left by the count in b. -/
def execVishl (a : VSpec) (b : VSpec) (m : Fin 8) (t : VType) (s : State) : Host.Outcome State Fault Refusal := issueOp 1 (opVishl a b m t) s
/-- R233. Shifts each element right logically. -/
def execVishr (a : VSpec) (b : VSpec) (m : Fin 8) (t : VType) (s : State) : Host.Outcome State Fault Refusal := issueOp 1 (opVishr a b m t) s
/-- R233. Shifts each element right arithmetically. -/
def execVisar (a : VSpec) (b : VSpec) (m : Fin 8) (t : VType) (s : State) : Host.Outcome State Fault Refusal := issueOp 1 (opVisar a b m t) s
/-- R233. Pushes the lesser integer element, signed or unsigned. -/
def execVimin (a : VSpec) (b : VSpec) (m : Fin 8) (t : VType) (u : Bool) (s : State) : Host.Outcome State Fault Refusal := issueOp 1 (opVimin a b m t u) s
/-- R233. Pushes the greater integer element, signed or unsigned. -/
def execVimax (a : VSpec) (b : VSpec) (m : Fin 8) (t : VType) (u : Bool) (s : State) : Host.Outcome State Fault Refusal := issueOp 1 (opVimax a b m t u) s
/-- R234. Compares elements under a condition and pushes a vector holding a mask. -/
def execVcmp (a : VSpec) (b : VSpec) (u : Bool) (k : VCond) (m : Fin 8) (t : VType) (s : State) : Host.Outcome State Fault Refusal := issueOp 1 (opVcmp a b u k m t) s
/-- R235. Selects each lane from a or b by the mask. -/
def execVsel (a : VSpec) (b : VSpec) (m : Fin 8) (t : VType) (s : State) : Host.Outcome State Fault Refusal := issueOp 1 (opVsel a b m t) s
/-- R236. Pushes X AND Y AND M as a vector holding a mask. -/
def execMand (x : Fin 8) (y : Fin 8) (m : Fin 8) (s : State) : Host.Outcome State Fault Refusal := issueOp 1 (opMand x y m) s
/-- R236. Pushes (X OR Y) AND M as a vector holding a mask. -/
def execMor (x : Fin 8) (y : Fin 8) (m : Fin 8) (s : State) : Host.Outcome State Fault Refusal := issueOp 1 (opMor x y m) s
/-- R236. Pushes (X XOR Y) AND M as a vector holding a mask. -/
def execMxor (x : Fin 8) (y : Fin 8) (m : Fin 8) (s : State) : Host.Outcome State Fault Refusal := issueOp 1 (opMxor x y m) s
/-- R236. Pushes NOT X AND M as a vector holding a mask. -/
def execMnot (x : Fin 8) (m : Fin 8) (s : State) : Host.Outcome State Fault Refusal := issueOp 1 (opMnot x m) s
/-- R236. Pushes the count of set bits of X AND M to the scalar queue. -/
def execMpop (x : Fin 8) (m : Fin 8) (s : State) : Host.Outcome State Fault Refusal := issueOp 1 (opMpop x m) s
/-- R236. Pushes the least set bit index of X AND M, or 96. -/
def execMfirst (x : Fin 8) (m : Fin 8) (s : State) : Host.Outcome State Fault Refusal := issueOp 1 (opMfirst x m) s
/-- R237. Converts the elements between vector types, into or from part p of each lane. -/
def execVcvt (a : VSpec) (g : VType) (m : Fin 8) (s0 : VType) (r : Rnd) (p : BitVec 2) (s : State) : Host.Outcome State Fault Refusal := issueOp 1 (opVcvt a g m s0 r p) s
/-- R237. Converts with stochastic rounding, stepping each active lane's LFSR. -/
def execVcvts (a : VSpec) (g : VType) (m : Fin 8) (s0 : VType) (p : BitVec 2) (s : State) : Host.Outcome State Fault Refusal := issueOp 1 (opVcvts a g m s0 p) s
/-- R238. Quantises 96 FP32 lanes into one SB4 block by Quantise4. -/
def execVqnt4 (a : VSpec) (b : VSpec) (q : BitVec 3) (m : Fin 8) (n : Bool) (s : State) : Host.Outcome State Fault Refusal := issueOp 1 (opVqnt4 a b q m n) s
/-- R239. Decodes an SB4 block and scales it into FP32 lanes. -/
def execVdq4 (a : VSpec) (b : VSpec) (m : Fin 8) (r : Rnd) (s : State) : Host.Outcome State Fault Refusal := issueOp 1 (opVdq4 a b m r) s
/-- R240. Pushes the rounded reciprocal of each element. -/
def execVrcp (a : VSpec) (m : Fin 8) (t : VType) (r : Rnd) (s : State) : Host.Outcome State Fault Refusal := issueOp 1 (opVrcp a m t r) s
/-- R240. Pushes the rounded reciprocal square root of each element. -/
def execVrsq (a : VSpec) (m : Fin 8) (t : VType) (r : Rnd) (s : State) : Host.Outcome State Fault Refusal := issueOp 1 (opVrsq a m t r) s
/-- R240. Pushes the rounded square root of each element. -/
def execVsqrt (a : VSpec) (m : Fin 8) (t : VType) (r : Rnd) (s : State) : Host.Outcome State Fault Refusal := issueOp 1 (opVsqrt a m t r) s
/-- R240. Pushes the rounded 2^x of each element. -/
def execVexp2 (a : VSpec) (m : Fin 8) (t : VType) (r : Rnd) (s : State) : Host.Outcome State Fault Refusal := issueOp 1 (opVexp2 a m t r) s
/-- R240. Pushes the rounded log2 of each element. -/
def execVlog2 (a : VSpec) (m : Fin 8) (t : VType) (r : Rnd) (s : State) : Host.Outcome State Fault Refusal := issueOp 1 (opVlog2 a m t r) s
/-- R241. Permutes lanes of a by the indices in b. -/
def execVperm (a : VSpec) (b : VSpec) (m : Fin 8) (t : VType) (s : State) : Host.Outcome State Fault Refusal := issueOp 1 (opVperm a b m t) s
/-- R241. Rotates lanes of a by lane 0 of b. -/
def execVrot (a : VSpec) (b : VSpec) (m : Fin 8) (t : VType) (s : State) : Host.Outcome State Fault Refusal := issueOp 1 (opVrot a b m t) s
/-- R241. Broadcasts the first masked lane of a to every lane. -/
def execVbcast (a : VSpec) (m : Fin 8) (t : VType) (s : State) : Host.Outcome State Fault Refusal := issueOp 1 (opVbcast a m t) s
/-- R241. Pushes the first masked lane of a to the scalar queue. -/
def execVext (a : VSpec) (m : Fin 8) (t : VType) (s : State) : Host.Outcome State Fault Refusal := issueOp 1 (opVext a m t) s
/-- R241. Inserts lane 0 of b at the first masked lane of a. -/
def execVins (a : VSpec) (b : VSpec) (m : Fin 8) (t : VType) (s : State) : Host.Outcome State Fault Refusal := issueOp 1 (opVins a b m t) s
/-- R241. Pushes a[0] plus the count of active lanes below each active lane. -/
def execViota (a : VSpec) (m : Fin 8) (s : State) : Host.Outcome State Fault Refusal := issueOp 1 (opViota a m) s
/-- R242. Sums the lanes by the fixed tree and pushes the sum to every lane. -/
def execVredadd (a : VSpec) (m : Fin 8) (t : VType) (r : Rnd) (s : State) : Host.Outcome State Fault Refusal := issueOp 1 (opVredadd a m t r) s
/-- R242. Reduces the lanes by maximum over the fixed tree. -/
def execVredmax (a : VSpec) (m : Fin 8) (t : VType) (u : Bool) (s : State) : Host.Outcome State Fault Refusal := issueOp 1 (opVredmax a m t u) s
/-- R242. Reduces the lanes by minimum over the fixed tree. -/
def execVredmin (a : VSpec) (m : Fin 8) (t : VType) (u : Bool) (s : State) : Host.Outcome State Fault Refusal := issueOp 1 (opVredmin a m t u) s
/-- R243. Pushes the inclusive prefix sum of the lanes in a fixed order. -/
def execVscan (a : VSpec) (m : Fin 8) (t : VType) (r : Rnd) (s : State) : Host.Outcome State Fault Refusal := issueOp 1 (opVscan a m t r) s
/-- R214. Writes the masked lanes of a vector into a named vector register. -/
def execVkeep (d : Fin 8) (b : VSpec) (m : Fin 8) (s : State) : Host.Outcome State Fault Refusal := issueOp 1 (opVkeep d b m) s
/-- R214. Writes the masked bits of a mask register from the nonzero lanes of a vector. -/
def execMkeep (d : Fin 8) (b : VSpec) (m : Fin 8) (s : State) : Host.Outcome State Fault Refusal := issueOp 1 (opMkeep d b m) s
/-- R51. A-slot opcode 0 does nothing. -/
def execANop (_ : BitVec 25) (s : State) : Host.Outcome State Fault Refusal := issueOp 2 opNop s
/-- R198. Reads 1 to 8 bytes of the own scratchpad window and pushes them extended. -/
def execLd (b : SSpec) (sz : LoadSize) (i : BitVec 16) (s : State) : Host.Outcome State Fault Refusal := issueOp 2 (opLd b sz i) s
/-- R198. Writes 1 to 8 bytes to the own scratchpad in the issuing cc. -/
def execSt (b : SSpec) (sz : StoreSize) (d : SSpec) (i : BitVec 11) (s : State) : Host.Outcome State Fault Refusal := issueOp 2 (opSt b sz d i) s
/-- R198. Reads 384 bytes of the scratchpad as a vector, masked by m7. -/
def execVld (b : SSpec) (i : BitVec 16) (s : State) : Host.Outcome State Fault Refusal := issueOp 2 (opVld b i) s
/-- R198. Writes the active lanes of a vector to the scratchpad. -/
def execVst (b : SSpec) (d : VSpec) (i : BitVec 11) (s : State) : Host.Outcome State Fault Refusal := issueOp 2 (opVst b d i) s
/-- R198. Loads lanes from the scratchpad at a stride, checked for bank conflicts. -/
def execVlds (a : SSpec) (b : SSpec) (s : State) : Host.Outcome State Fault Refusal := issueOp 2 (opVlds a b) s
/-- R198. Stores lanes to the scratchpad at a stride. -/
def execVsts (a : SSpec) (b : SSpec) (c : VSpec) (s : State) : Host.Outcome State Fault Refusal := issueOp 2 (opVsts a b c) s
/-- R198. Gathers lanes from the scratchpad by index, in passes. -/
def execVgath (a : SSpec) (b : VSpec) (s : State) : Host.Outcome State Fault Refusal := issueOp 2 (opVgath a b) s
/-- R198. Scatters lanes to the scratchpad by index, in passes. -/
def execVscat (a : SSpec) (b : VSpec) (c : VSpec) (s : State) : Host.Outcome State Fault Refusal := issueOp 2 (opVscat a b c) s
/-- R200. Waits for a word to be full and reads it. -/
def execLdwf (b : SSpec) (i : BitVec 16) (s : State) : Host.Outcome State Fault Refusal := issueOp 2 (opLdwf b i) s
/-- R200. Waits for a word to be full, reads it and marks it empty. -/
def execLdwfe (b : SSpec) (i : BitVec 16) (s : State) : Host.Outcome State Fault Refusal := issueOp 2 (opLdwfe b i) s
/-- R200. Waits for a word to be empty, writes it and marks it full. -/
def execStwe (b : SSpec) (d : SSpec) (i : BitVec 11) (s : State) : Host.Outcome State Fault Refusal := issueOp 2 (opStwe b d i) s
/-- R200. Writes a word and marks it full. -/
def execStf (b : SSpec) (d : SSpec) (i : BitVec 11) (s : State) : Host.Outcome State Fault Refusal := issueOp 2 (opStf b d i) s
/-- R200. Marks a word full. -/
def execFeset (b : SSpec) (i : BitVec 16) (s : State) : Host.Outcome State Fault Refusal := issueOp 2 (opFeset b i) s
/-- R200. Marks a word empty. -/
def execFeclr (b : SSpec) (i : BitVec 16) (s : State) : Host.Outcome State Fault Refusal := issueOp 2 (opFeclr b i) s
/-- R200. Pushes the full/empty bit of a word. -/
def execFetest (b : SSpec) (i : BitVec 16) (s : State) : Host.Outcome State Fault Refusal := issueOp 2 (opFetest b i) s
/-- R204. Loads 1 to 8 bytes through a handle. -/
def execGld (b : SSpec) (h : Fin 16) (sz : LoadSize) (i : BitVec 13) (s : State) : Host.Outcome State Fault Refusal := issueOp 2 (opGld b h sz i) s
/-- R204. Stores 1 to 8 bytes through a handle, taking one store-buffer entry. -/
def execGst (b : SSpec) (h : Fin 16) (d : SSpec) (sz : StoreSize) (i : BitVec 9) (s : State) : Host.Outcome State Fault Refusal := issueOp 2 (opGst b h d sz i) s
/-- R204. Loads 384 bytes through a handle, masked by m7. -/
def execGvld (b : SSpec) (h : Fin 16) (i : BitVec 16) (s : State) : Host.Outcome State Fault Refusal := issueOp 2 (opGvld b h i) s
/-- R204. Stores the active lanes of a vector through a handle, as six line accesses. -/
def execGvst (b : SSpec) (h : Fin 16) (d : VSpec) (i : BitVec 11) (s : State) : Host.Outcome State Fault Refusal := issueOp 2 (opGvst b h d i) s
/-- R204. Pauses the thread until its earlier global writes and atomics have performed. -/
def execGwait (s : State) : Host.Outcome State Fault Refusal := issueOp 2 opGwait s
/-- R94. Translates a virtual address into a handle and pushes the handle word. -/
def execXlat (a : SSpec) (h : Fin 16) (p : BitVec 3) (s : State) : Host.Outcome State Fault Refusal := issueOp 2 (opXlat a h p) s
/-- R96. Sets a handle to EMPTY. -/
def execHdrop (h : Fin 16) (s : State) : Host.Outcome State Fault Refusal := issueOp 2 (opHdrop h) s
/-- R96. Pushes the bytes left in the page from an offset, or 0. -/
def execHchk (a : SSpec) (h : Fin 16) (s : State) : Host.Outcome State Fault Refusal := issueOp 2 (opHchk a h) s
/-- R96. Pushes a handle word. -/
def execHinfo (h : Fin 16) (s : State) : Host.Outcome State Fault Refusal := issueOp 2 (opHinfo h) s
/-- R273. Sends an atomic operation of the coded kind to a word through a handle and pushes the old value. -/
def execAmo (a : SSpec) (b : SSpec) (h : Fin 16) (o : AmoOp) (w : AmoWidth) (s : State) : Host.Outcome State Fault Refusal := issueOp 2 (opAmo a b h o w) s
/-- R273. Sends a compare-and-swap of 4 or 8 bytes and pushes the old value. -/
def execCas (a : SSpec) (b : SSpec) (c : SSpec) (h : Fin 16) (w : AmoWidth) (s : State) : Host.Outcome State Fault Refusal := issueOp 2 (opCas a b c h w) s
/-- R275. Sends a 16-byte compare-and-swap whose operands come from a scratchpad record, and pushes the old value in two entries. -/
def execCas2 (a : SSpec) (b : SSpec) (h : Fin 16) (s : State) : Host.Outcome State Fault Refusal := issueOp 2 (opCas2 a b h) s
/-- R282. Checks a chain descriptor, takes a chain entry, clears STAT and DEST, and starts a chained load. -/
def execChain (a : SSpec) (s : State) : Host.Outcome State Fault Refusal := issueOp 2 (opChain a) s
/-- R286. Pushes a chain status word, consuming a FAULTED entry without a trap. -/
def execChainq (a : SSpec) (s : State) : Host.Outcome State Fault Refusal := issueOp 2 (opChainq a) s
/-- R294. Writes a fresh barrier object. -/
def execBarinit (a : SSpec) (b : SSpec) (g : Option (Fin 16)) (s : State) : Host.Outcome State Fault Refusal := issueOp 2 (opBarinit a b g) s
/-- R294. Arrives on a barrier object with a ticket. -/
def execBararr (a : SSpec) (b : SSpec) (g : Option (Fin 16)) (s : State) : Host.Outcome State Fault Refusal := issueOp 2 (opBararr a b g) s
/-- R294. Decrements DELTA, then arrives. -/
def execBardrop (a : SSpec) (b : SSpec) (g : Option (Fin 16)) (s : State) : Host.Outcome State Fault Refusal := issueOp 2 (opBardrop a b g) s
/-- R294. Increments DELTA, then arrives. -/
def execBarjoin (a : SSpec) (b : SSpec) (g : Option (Fin 16)) (s : State) : Host.Outcome State Fault Refusal := issueOp 2 (opBarjoin a b g) s
/-- R297. Waits until the barrier's phase differs from the ticket's phase. -/
def execBarwait (a : SSpec) (b : SSpec) (g : Option (Fin 16)) (s : State) : Host.Outcome State Fault Refusal := issueOp 2 (opBarwait a b g) s
/-- R294. Adds a byte count to the barrier's pending-byte counter. -/
def execBarbytes (a : SSpec) (b : SSpec) (g : Option (Fin 16)) (s : State) : Host.Outcome State Fault Refusal := issueOp 2 (opBarbytes a b g) s
/-- R298. Pushes word 0 of a barrier object with the OK and PZ bits. -/
def execBarq (a : SSpec) (b : SSpec) (g : Option (Fin 16)) (s : State) : Host.Outcome State Fault Refusal := issueOp 2 (opBarq a b g) s
/-- R164. Sends a 384-byte vector into the port buffer of a LIVE circuit. -/
def execCsend (b : VSpec) (h : BitVec 7) (s : State) : Host.Outcome State Fault Refusal := issueOp 2 (opCsend b h) s
/-- R168. Pushes the circuit status word of a handle. -/
def execCstat (h : BitVec 7) (s : State) : Host.Outcome State Fault Refusal := issueOp 2 (opCstat h) s
/-- R311. Waits until the named engine queues, chains and csends have finished, observing their deferred faults. -/
def execFenceQ (q : BitVec 4) (s : State) : Host.Outcome State Fault Refusal := issueOp 2 (opFenceQ q) s
/-- R312. Waits until every covered write is acknowledged or known dropped, then writes FENCESTAT. -/
def execFenceSys (s : State) : Host.Outcome State Fault Refusal := issueOp 2 opFenceSys s
/-- R313. Waits until the covered writes to host memory are placed or known dropped. -/
def execFenceHost (s : State) : Host.Outcome State Fault Refusal := issueOp 2 opFenceHost s
/-- R107. Starts a dirty harvest of one page, bypassing the TLBs. -/
def execHarv (a : SSpec) (s : State) : Host.Outcome State Fault Refusal := issueOp 2 (opHarv a) s
/-- R98. Starts a package-wide invalidation of a page range and holds the next bundle until it completes. -/
def execXinval (a : SSpec) (z : PageSize) (s : State) : Host.Outcome State Fault Refusal := issueOp 2 (opXinval a z) s
/-- R63. The engine word 0x0000 does nothing. -/
def execEngineNop (s : State) : Host.Outcome State Fault Refusal := issueOp 3 opNop s
/-- R63. Pushes a sign-extended 13-bit literal onto an engine's parameter stack. -/
def execLit (e : Eng) (v : BitVec 13) (s : State) : Host.Outcome State Fault Refusal := issueOp 3 (opLit e v) s
/-- R63. Extends the top entry of a stack by 11 literal bits. -/
def execLitx (e : Eng) (v : BitVec 11) (s : State) : Host.Outcome State Fault Refusal := issueOp 3 (opLitx e v) s
/-- R63. The common operation word with op 0 and no bits set does nothing. -/
def execCommonNop (s : State) : Host.Outcome State Fault Refusal := issueOp 3 opNop s
/-- R63. Pushes a copy of the top entry of a stack. -/
def execDup (e : Eng) (s : State) : Host.Outcome State Fault Refusal := issueOp 3 (opDup e) s
/-- R63. Pops and discards the top entry of a stack. -/
def execDrop (e : Eng) (s : State) : Host.Outcome State Fault Refusal := issueOp 3 (opDrop e) s
/-- R63. Exchanges the top two entries of a stack. -/
def execSwap (e : Eng) (s : State) : Host.Outcome State Fault Refusal := issueOp 3 (opSwap e) s
/-- R63. Enters an engine queue and does nothing but its token pops and pushes. -/
def execTokenOnly (e : Eng) (tk : Tok) (s : State) : Host.Outcome State Fault Refusal := issueOp 3 (opTokenOnly e tk) s
/-- R258. Loads a 96×96 A tile from the scratchpad into the shadow plane and sets FRESH. -/
def execLda (tk : Tok) (t : MType) (s : State) : Host.Outcome State Fault Refusal := issueOp 3 (opLda tk t) s
/-- R259. Captures 96 accumulator columns as an A tile in the shadow plane. -/
def execLdac (tk : Tok) (i : Bool) (t : MType) (s : State) : Host.Outcome State Fault Refusal := issueOp 3 (opLdac tk i t) s
/-- R260. Multiplies the active plane by n columns of B from the weight store, accumulating. -/
def execMma (tk : Tok) (t : MType) (s : State) : Host.Outcome State Fault Refusal := issueOp 3 (opMma tk t) s
/-- R260. As mma, zeroing the columns first. -/
def execMmaz (tk : Tok) (t : MType) (s : State) : Host.Outcome State Fault Refusal := issueOp 3 (opMmaz tk t) s
/-- R262. Writes accumulator columns to the scratchpad in a chosen format. -/
def execDrain (tk : Tok) (fe : Bool) (f : DrainFmt) (s : State) : Host.Outcome State Fault Refusal := issueOp 3 (opDrain tk fe f) s
/-- R263. Quantises accumulator columns into SB4 blocks in the scratchpad. -/
def execDrainq (tk : Tok) (n : Bool) (s0 : BitVec 3) (s : State) : Host.Outcome State Fault Refusal := issueOp 3 (opDrainq tk n s0) s
/-- R267. Reads a matrix nest descriptor and runs its loop of lda and mma iterations. -/
def execNest (tk : Tok) (s : State) : Host.Outcome State Fault Refusal := issueOp 3 (opNest tk) s
/-- R264. Zeroes accumulator columns. -/
def execZacc (tk : Tok) (s : State) : Host.Outcome State Fault Refusal := issueOp 3 (opZacc tk) s
/-- R265. Waits at a scratchpad word until it is full, optionally taking it. -/
def execMsync (tk : Tok) (take : Bool) (s : State) : Host.Outcome State Fault Refusal := issueOp 3 (opMsync tk take) s
/-- R266. Writes M's status record, optionally clearing its flags. -/
def execMstat (tk : Tok) (clr : Bool) (s : State) : Host.Outcome State Fault Refusal := issueOp 3 (opMstat tk clr) s
/-- R171. Copies global memory into the own scratchpad. -/
def execG2s (c : Chan) (tk : Tok) (path : PathSel) (fe : Bool) (s : State) : Host.Outcome State Fault Refusal := issueOp 3 (opG2s c tk path fe) s
/-- R171. Copies the own scratchpad to global memory. -/
def execS2g (c : Chan) (tk : Tok) (path : PathSel) (fe : Bool) (s : State) : Host.Outcome State Fault Refusal := issueOp 3 (opS2g c tk path fe) s
/-- R171. Copies any core's scratchpad into the own scratchpad. -/
def execS2s (c : Chan) (tk : Tok) (path : PathSel) (fe : Bool) (s : State) : Host.Outcome State Fault Refusal := issueOp 3 (opS2s c tk path fe) s
/-- R184. Unpacks scratchpad records into the own weight store. -/
def execS2w (c : Chan) (tk : Tok) (s : State) : Host.Outcome State Fault Refusal := issueOp 3 (opS2w c tk) s
/-- R184. Unpacks global records into the own weight store. -/
def execG2w (c : Chan) (tk : Tok) (path : PathSel) (s : State) : Host.Outcome State Fault Refusal := issueOp 3 (opG2w c tk path) s
/-- R171. Copies global memory to global memory. -/
def execG2g (c : Chan) (tk : Tok) (path : PathSel) (fe : Bool) (s : State) : Host.Outcome State Fault Refusal := issueOp 3 (opG2g c tk path fe) s
/-- R178. Copies the own scratchpad over a program circuit. -/
def execCirc (c : Chan) (tk : Tok) (fe : Bool) (s : State) : Host.Outcome State Fault Refusal := issueOp 3 (opCirc c tk fe) s
/-- R182. Writes an 8-byte flag after every earlier write of its channel. -/
def execCflag (c : Chan) (tk : Tok) (fe : Bool) (s : State) : Host.Outcome State Fault Refusal := issueOp 3 (opCflag c tk fe) s
/-- R185. Runs a strided copy nest from a descriptor. -/
def execCnest (c : Chan) (tk : Tok) (path : PathSel) (fe : Bool) (s : State) : Host.Outcome State Fault Refusal := issueOp 3 (opCnest c tk path fe) s
/-- R187. After the channel's earlier words, arrives on a barrier and subtracts bytes from it. -/
def execCbar (c : Chan) (tk : Tok) (g : Bool) (s : State) : Host.Outcome State Fault Refusal := issueOp 3 (opCbar c tk g) s
/-- R188. Writes the channel status record after the channel's earlier words. -/
def execChannelCstat (c : Chan) (tk : Tok) (s : State) : Host.Outcome State Fault Refusal := issueOp 3 (opChannelCstat c tk) s

/-- The operation of an instruction of the S, V and A slots or of an engine word; none for a step of another agent. -/
def opOf : Instr → Option Op
  | .sNop _ => some (opNop)
  | .add a b w => some (opAdd a b w)
  | .sub a b w => some (opSub a b w)
  | .mul a b w => some (opMul a b w)
  | .mulh a b w => some (opMulh a b w)
  | .mulhu a b w => some (opMulhu a b w)
  | .div a b w => some (opDiv a b w)
  | .divu a b w => some (opDivu a b w)
  | .rem a b w => some (opRem a b w)
  | .remu a b w => some (opRemu a b w)
  | .and a b w => some (opAnd a b w)
  | .or a b w => some (opOr a b w)
  | .xor a b w => some (opXor a b w)
  | .andn a b w => some (opAndn a b w)
  | .shl a b w => some (opShl a b w)
  | .shr a b w => some (opShr a b w)
  | .sar a b w => some (opSar a b w)
  | .rotl a b w => some (opRotl a b w)
  | .min a b w => some (opMin a b w)
  | .max a b w => some (opMax a b w)
  | .minu a b w => some (opMinu a b w)
  | .maxu a b w => some (opMaxu a b w)
  | .clz a w => some (opClz a w)
  | .ctz a w => some (opCtz a w)
  | .popc a w => some (opPopc a w)
  | .sext a width => some (opSext a width)
  | .zext a width => some (opZext a width)
  | .keep d b => some (opKeep d b)
  | .ceq a b w => some (opCeq a b w)
  | .cne a b w => some (opCne a b w)
  | .clt a b w => some (opClt a b w)
  | .cltu a b w => some (opCltu a b w)
  | .cle a b w => some (opCle a b w)
  | .cleu a b w => some (opCleu a b w)
  | .sel a b c => some (opSel a b c)
  | .li i => some (opLi i)
  | .lih a i => some (opLih a i)
  | .addi a i => some (opAddi a i)
  | .andi a i => some (opAndi a i)
  | .ori a i => some (opOri a i)
  | .shli a s0 => some (opShli a s0)
  | .fadd a b r d => some (opFadd a b r d)
  | .fsub a b r d => some (opFsub a b r d)
  | .fmul a b r d => some (opFmul a b r d)
  | .ffma a b c r d => some (opFfma a b c r d)
  | .fmin a b d => some (opFmin a b d)
  | .fmax a b d => some (opFmax a b d)
  | .fceq a b r d => some (opFceq a b r d)
  | .fclt a b r d => some (opFclt a b r d)
  | .fcle a b r d => some (opFcle a b r d)
  | .fcvt a f t r => some (opFcvt a f t r)
  | .br c o => some (opBr c o)
  | .brz c o => some (opBrz c o)
  | .jmp o => some (opJmp o)
  | .call o => some (opCall o)
  | .ret a => some (opRet a)
  | .loop k o => some (opLoop k o)
  | .halt => some (opHalt)
  | .epush a e => some (opEpush a e)
  | .tkwait s0 k => some (opTkwait s0 k)
  | .tksig s0 k => some (opTksig s0 k)
  | .estat e => some (opEstat e)
  | .getid s0 => some (opGetid s0)
  | .join a new lock => some (opJoin a new lock)
  | .leave a => some (opLeave a)
  | .vclk => some (opVclk)
  | .launch a b => some (opLaunch a b)
  | .launchW a b => some (opLaunchW a b)
  | .shapepub a b => some (opShapepub a b)
  | .shapeq a => some (opShapeq a)
  | .shapew a => some (opShapew a)
  | .rdsys r => some (opRdsys r)
  | .wrsys a r => some (opWrsys a r)
  | .trap code => some (opTrap code)
  | .rft => some (opRft)
  | .yield => some (opYield)
  | .vNop _ => some (opNop)
  | .vadd a b m t r => some (opVadd a b m t r)
  | .vsub a b m t r => some (opVsub a b m t r)
  | .vmul a b m t r => some (opVmul a b m t r)
  | .vfma a b c m t r => some (opVfma a b c m t r)
  | .vfms a b c m t r => some (opVfms a b c m t r)
  | .vfnma a b c m t r => some (opVfnma a b c m t r)
  | .vmin a b m t => some (opVmin a b m t)
  | .vmax a b m t => some (opVmax a b m t)
  | .vabs a m t => some (opVabs a m t)
  | .vneg a m t => some (opVneg a m t)
  | .viadd a b m t => some (opViadd a b m t)
  | .visub a b m t => some (opVisub a b m t)
  | .vimul a b m t => some (opVimul a b m t)
  | .vimulh a b m t u => some (opVimulh a b m t u)
  | .viand a b m t => some (opViand a b m t)
  | .vior a b m t => some (opVior a b m t)
  | .vixor a b m t => some (opVixor a b m t)
  | .vishl a b m t => some (opVishl a b m t)
  | .vishr a b m t => some (opVishr a b m t)
  | .visar a b m t => some (opVisar a b m t)
  | .vimin a b m t u => some (opVimin a b m t u)
  | .vimax a b m t u => some (opVimax a b m t u)
  | .vcmp a b u k m t => some (opVcmp a b u k m t)
  | .vsel a b m t => some (opVsel a b m t)
  | .mand x y m => some (opMand x y m)
  | .mor x y m => some (opMor x y m)
  | .mxor x y m => some (opMxor x y m)
  | .mnot x m => some (opMnot x m)
  | .mpop x m => some (opMpop x m)
  | .mfirst x m => some (opMfirst x m)
  | .vcvt a g m s0 r p => some (opVcvt a g m s0 r p)
  | .vcvts a g m s0 p => some (opVcvts a g m s0 p)
  | .vqnt4 a b q m n => some (opVqnt4 a b q m n)
  | .vdq4 a b m r => some (opVdq4 a b m r)
  | .vrcp a m t r => some (opVrcp a m t r)
  | .vrsq a m t r => some (opVrsq a m t r)
  | .vsqrt a m t r => some (opVsqrt a m t r)
  | .vexp2 a m t r => some (opVexp2 a m t r)
  | .vlog2 a m t r => some (opVlog2 a m t r)
  | .vperm a b m t => some (opVperm a b m t)
  | .vrot a b m t => some (opVrot a b m t)
  | .vbcast a m t => some (opVbcast a m t)
  | .vext a m t => some (opVext a m t)
  | .vins a b m t => some (opVins a b m t)
  | .viota a m => some (opViota a m)
  | .vredadd a m t r => some (opVredadd a m t r)
  | .vredmax a m t u => some (opVredmax a m t u)
  | .vredmin a m t u => some (opVredmin a m t u)
  | .vscan a m t r => some (opVscan a m t r)
  | .vkeep d b m => some (opVkeep d b m)
  | .mkeep d b m => some (opMkeep d b m)
  | .aNop _ => some (opNop)
  | .ld b sz i => some (opLd b sz i)
  | .st b sz d i => some (opSt b sz d i)
  | .vld b i => some (opVld b i)
  | .vst b d i => some (opVst b d i)
  | .vlds a b => some (opVlds a b)
  | .vsts a b c => some (opVsts a b c)
  | .vgath a b => some (opVgath a b)
  | .vscat a b c => some (opVscat a b c)
  | .ldwf b i => some (opLdwf b i)
  | .ldwfe b i => some (opLdwfe b i)
  | .stwe b d i => some (opStwe b d i)
  | .stf b d i => some (opStf b d i)
  | .feset b i => some (opFeset b i)
  | .feclr b i => some (opFeclr b i)
  | .fetest b i => some (opFetest b i)
  | .gld b h sz i => some (opGld b h sz i)
  | .gst b h d sz i => some (opGst b h d sz i)
  | .gvld b h i => some (opGvld b h i)
  | .gvst b h d i => some (opGvst b h d i)
  | .gwait => some (opGwait)
  | .xlat a h p => some (opXlat a h p)
  | .hdrop h => some (opHdrop h)
  | .hchk a h => some (opHchk a h)
  | .hinfo h => some (opHinfo h)
  | .amo a b h o w => some (opAmo a b h o w)
  | .cas a b c h w => some (opCas a b c h w)
  | .cas2 a b h => some (opCas2 a b h)
  | .chain a => some (opChain a)
  | .chainq a => some (opChainq a)
  | .barinit a b g => some (opBarinit a b g)
  | .bararr a b g => some (opBararr a b g)
  | .bardrop a b g => some (opBardrop a b g)
  | .barjoin a b g => some (opBarjoin a b g)
  | .barwait a b g => some (opBarwait a b g)
  | .barbytes a b g => some (opBarbytes a b g)
  | .barq a b g => some (opBarq a b g)
  | .csend b h => some (opCsend b h)
  | .cstat h => some (opCstat h)
  | .fenceQ q => some (opFenceQ q)
  | .fenceSys => some (opFenceSys)
  | .fenceHost => some (opFenceHost)
  | .harv a => some (opHarv a)
  | .xinval a z => some (opXinval a z)
  | .engineNop => some (opNop)
  | .lit e v => some (opLit e v)
  | .litx e v => some (opLitx e v)
  | .commonNop => some (opNop)
  | .dup e => some (opDup e)
  | .drop e => some (opDrop e)
  | .swap e => some (opSwap e)
  | .tokenOnly e tk => some (opTokenOnly e tk)
  | .lda tk t => some (opLda tk t)
  | .ldac tk i t => some (opLdac tk i t)
  | .mma tk t => some (opMma tk t)
  | .mmaz tk t => some (opMmaz tk t)
  | .drain tk fe f => some (opDrain tk fe f)
  | .drainq tk n s0 => some (opDrainq tk n s0)
  | .nest tk => some (opNest tk)
  | .zacc tk => some (opZacc tk)
  | .msync tk take => some (opMsync tk take)
  | .mstat tk clr => some (opMstat tk clr)
  | .g2s c tk path fe => some (opG2s c tk path fe)
  | .s2g c tk path fe => some (opS2g c tk path fe)
  | .s2s c tk path fe => some (opS2s c tk path fe)
  | .s2w c tk => some (opS2w c tk)
  | .g2w c tk path => some (opG2w c tk path)
  | .g2g c tk path fe => some (opG2g c tk path fe)
  | .circ c tk fe => some (opCirc c tk fe)
  | .cflag c tk fe => some (opCflag c tk fe)
  | .cnest c tk path fe => some (opCnest c tk path fe)
  | .cbar c tk g => some (opCbar c tk g)
  | .channelCstat c tk => some (opChannelCstat c tk)
  | _ => none

/-- R50: the operations of a bundle in slot order, each with its place; a NOP is none. -/
def bundleOps (b : Bundle) : List (Nat × Op) :=
  ([(0, b.s), (1, b.v), (2, b.a), (3, b.upper), (4, b.lower)].filter fun x => !x.2.isNop).filterMap fun x => (opOf x.2).map fun o => (x.1, o)
/-- R51, R372: the part of an illegal bundle that ILLEGAL_OP names. R52 does not order several illegal parts: the first in
slot order is named, and S for a `trap` or `rft` that is not alone (DESIGN CHOICE, log entry 93). -/
def illegalPlace (w : Nat) : Nat :=
  match decode .s (bits w 0 32) with
  | .error _ => 0
  | .ok _ => match decode .v (bits w 32 32) with
    | .error _ => 1
    | .ok _ => match decode .a (bits w 64 32) with
      | .error _ => 2
      | .ok _ => match decode .e (bits w 112 16) with
        | .error _ => 3
        | .ok _ => match decode .e (bits w 96 16) with
          | .error _ => 4
          | .ok _ => 0
/-- R51: a bundle that decodes to nothing raises ILLEGAL_OP with its bits. -/
def illegalTrap (w : BitVec 128) : Trap := trapOf tIllegal (illegalPlace w.toNat) (w.truncate 64) ((w >>> 64).truncate 64)
/-- R51, R52, R91: what the fetched bundle of slot k does when it is presented: a trap, or its operations' runs. -/
inductive Shown where
  | miss
  | trap (t : Trap)
  | runs (rs : List OpRun)
def shownBundle (s : State) (k : Nat) (t : Thread) : Shown :=
  match fetchBundle s k t with
  | .miss => .miss
  | .trap tr => .trap tr
  | .word w =>
    match decodeBundle w.toNat with
    | .error _ => .trap (illegalTrap w)
    | .ok b => .runs (runOps k s (bundleOps b) t)

end Sys2Proof.Machine
end

