-- ==== Sys2Proof/Machine/Sched.lean ====
section
/-! DEFINITION. Pushes, the issue of bundles, the switch of slots, and the traps and waits of threads: R71, R73, R74,
R91, R201, R202, R297, R322, R330, R331, R363, R364, R370, R373. -/

namespace Sys2Proof.Machine

/-! Lockstep cohorts (R330, R331). -/

/-- R329: a membership that counts toward the L of a cohort. -/
def countsFor (cid : Nat) (t : Thread) : Bool :=
  (match t.cohort with | some c => decide (c.id = cid) && c.counts | none => false) || t.leaving.any fun c => decide (c.id = cid) && c.counts
/-- R331: the threads that count toward L of a cohort. -/
def countedMembers (s : State) (cid : Nat) : List (Nat × Thread) :=
  s.threads.filter fun x => countsFor cid x.2
def isLock (s : State) (cid : Nat) : Bool := match look s.cohorts cid with | some c => c.lock | none => false
def minOf : List Nat → Option Nat
  | [] => none
  | x :: xs => match minOf xs with | none => some x | some y => some (min x y)
/-- R331: L as news of the cc before this one gives it: a member that has ceased to count in this cc still counts. -/
def earlierL (s : State) (cid : Nat) : Option Nat :=
  minOf (((countedMembers s cid).map fun x => vcBefore s x.2) ++ (s.departed.filter fun d => decide (d.1 = cid)).map Prod.snd)
def slack : Nat := 32
/-- R331: a member more than SLACK ahead is held. -/
def lockstepHeld (s : State) (t : Thread) : Bool :=
  !t.system && (countedIn t).any fun c => isLock s c && (match earlierL s c with | some l => decide (l + slack < t.vc) | none => false)

/-! Pushes (R71, R73, R211). -/

/-- R330: the memberships that a push makes count. -/
def newlyCounted (t u : Thread) : List Nat := (countedIn u).filter fun c => !(countedIn t).contains c
/-- R330: the thread created the cohort, so that it keeps its clock. -/
def founded (cid : Nat) (t : Thread) : Bool := (t.cohort.toList ++ t.leaving).any fun m => decide (m.id = cid) && m.founder
/-- R330: a thread that joins a lockstep cohort with other members takes L, its results keeping their latency; those of a
handler are counted by its own clock (R373). -/
def takeClock (s : State) (k cid : Nat) (t : Thread) : Thread :=
  if ¬ isLock s cid ∨ founded cid t then t
  else match minOf (((countedMembers s cid).filter fun x => decide (x.1 ≠ k)).map fun x => x.2.vc) with
    | none => t
    | some l =>
      let move := fun (i : Item) => { i with due := i.due + l - t.vc, issued := i.issued + l - t.vc }
      { t with
        vc := l
        flight := if t.system then t.flight else t.flight.map move
        saved := t.saved.map fun v => { v with t := l, pending := v.pending.map move } }
/-- The results due may be pushed: they have arrived. -/
def pushReady (s : State) (t : Thread) : Bool :=
  !(dueItems t).isEmpty && arrived (dueItems t) && (dueItems t).all fun i => decide (i.notBefore ≤ s.cc)
/-- R71, R73, R211: the results due are pushed; a late one is pushed as at the end of this cc. -/
def pushResults (k : Nat) (s : State) : State :=
  match getThread s k with
  | none => s
  | some t =>
    if ¬ pushReady s t then s
    else
      let u := pushDue t
      let u := (newlyCounted t u).foldl (fun u c => takeClock s k c u) u
      setThread s k (if (dueItems t).any fun i => i.late then { u with noIssueBefore := max u.noIssueBefore (s.cc + 1) } else u)
def anyLate (s : State) (k : Nat) : Bool := match getThread s k with | some t => (dueItems t).any fun i => i.late | none => false
def evResultPush (k : Nat) (s : State) : State := if anyLate s k then s else pushResults k s
def evLateItemArrival (k : Nat) (s : State) : State := if anyLate s k then pushResults k s else s

/-! Readiness and the choice of slots (R322). -/

/-- R322: nothing but the core's choice holds the bundle of slot k back. -/
def mayPresent (s : State) (t : Thread) : Bool := presentable t && !lockstepHeld s t && decide (t.noIssueBefore ≤ s.cc)
/-- R322: the next bundle of slot k could issue in this cc; a fetch that misses is no pause (DEDUCED, log entry 41). -/
def ready (s : State) (k : Nat) : Bool :=
  match getThread s k with
  | none => false
  | some t =>
    mayPresent s t && (match shownBundle s k t with
      | .miss => true
      | .trap _ => true
      | .runs rs => !(bundleTraps t rs).isEmpty || !anyHold s k rs || startsWait rs)
def coreSlots (c : Nat) : List Nat := (List.range 4).map fun i => 4 * c + i
def currentSlot (s : State) (c : Nat) : Nat := 4 * c + (getCore s c).current
def waitedFor (s : State) (k : Nat) : Nat := match getThread s k with | some t => s.cc - t.readySince | none => 0
def lockMember (s : State) (k : Nat) : Bool :=
  match getThread s k with
  | some t => (match t.cohort with | some c => isLock s c.id | none => false)
  | none => false
def nextVc (s : State) (k : Nat) : Nat := match getThread s k with | some t => t.vc | none => 0
/-- The first element with the least key. -/
def leastBy (f : Nat → Nat) : List Nat → Option Nat
  | [] => none
  | x :: xs => match leastBy f xs with | none => some x | some y => if f y < f x then some y else some x
/-- The first element with the greatest key. -/
def greatestBy (f : Nat → Nat) : List Nat → Option Nat
  | [] => none
  | x :: xs => match greatestBy f xs with | none => some x | some y => if f x < f y then some y else some x
/-- R322: the slot a core switches to. -/
def chooseSlot (s : State) (c : Nat) : Option Nat :=
  let rs := (coreSlots c).filter fun k => decide (k ≠ currentSlot s c) && ready s k
  match greatestBy (waitedFor s) (rs.filter fun k => decide (24576 ≤ waitedFor s k)) with
  | some k => some k
  | none => match leastBy (nextVc s) (rs.filter (lockMember s)) with
    | some k => some k
    | none => greatestBy (waitedFor s) rs
/-- R322: a switch takes 4 cc in which the core issues nothing. -/
def switchTo (c k : Nat) (s : State) : State :=
  let done := s.cc + if (getCore s c).lastIssue = some s.cc then 5 else 4
  modCore c (fun x => { x with current := k % 4, since := done, switchEnd := done, expired := false })
    (modThread (currentSlot s c) (fun t => { t with readySince := s.cc }) s)
def switching (s : State) (c : Nat) : Bool := decide (s.cc < (getCore s c).switchEnd)
def evSlotSwitch (c : Nat) (s : State) : State :=
  if switching s c || ready s (currentSlot s c) then s
  else match chooseSlot s c with
    | some k => switchTo c k s
    | none => s
/-- R322, R372: the quantum of 8192 cc, which `yield` ends. -/
def quantumOver (s : State) (c : Nat) : Bool := (getCore s c).expired || decide ((getCore s c).since + 8192 ≤ s.cc)
def evQuantumExpiry (c : Nat) (s : State) : State :=
  if switching s c || !quantumOver s c then s
  else match chooseSlot s c with
    | some k => switchTo c k s
    | none => s

/-! The issue of the current slot of a core. -/

/-- R404: while throttled a core issues in at most 3 of every 4 cc: not in the last one of each four (DESIGN CHOICE, log entry
112). -/
def issueAllowed (s : State) (c : Nat) : Bool :=
  decide (s.service = .running) && !switching s c && decide ((getCore s c).lastIssue ≠ some s.cc) && !(s.throttled && decide (s.cc % 4 = 3))
/-- R91: a fetch that misses starts a walk. -/
def startFetchWalk (k : Nat) (t : Thread) (s : State) : State :=
  if s.walks.any fun w => decide (w.slot = k) && w.fetch then s
  else { s with
    walks := s.walks ++ [{ slot := k, tag := s.fresh, asid := spaceOf t t.pc, va := t.pc, fetch := true, tile := tileOf k }]
    fresh := s.fresh + 1 }
/-- R51, R52, R91: the bundle at the PC of the slot whose turn it is is presented. -/
def presentBundle (s : State) : Host.Outcome State Fault Refusal :=
  match getThread s s.turn with
  | none => .next s
  | some t =>
    if ¬ mayPresent s t then .next s
    else match fetchBundle s s.turn t with
      | .miss => .next (startFetchWalk s.turn t s)
      | .trap tr => .next (raiseTrap s.turn tr s)
      | .word w =>
        match decodeBundle w.toNat with
        | .error _ => .next (raiseTrap s.turn (illegalTrap w) s)
        | .ok b => issueOps s.turn (bundleOps b) s
/-- R322, R372: a core presents the bundle of its current slot, once in a cc. A quantum that `yield` ended before, for which no other
slot was ready, goes on. -/
def issueCore (c : Nat) (s : State) : Host.Outcome State Fault Refusal :=
  if ¬ issueAllowed s c then .next s
  else presentBundle (fetchSoft (currentSlot s c) { modCore c (fun x => { x with lastIssue := some s.cc, expired := false }) s with turn := currentSlot s c })

/-! Traps. -/

def evBundleFetchFault (k : Nat) (s : State) : State :=
  match getThread s k with
  | none => s
  | some t =>
    if ¬ mayPresent s t then s
    else match fetchBundle s k t with
      | .trap tr => raiseTrap k tr s
      | .miss => s
      | .word _ => s
/-- R51: the bundle of the slot whose turn it is decodes to nothing. -/
def evIllegalOp (s : State) : State :=
  match getThread s s.turn with
  | none => s
  | some t =>
    if ¬ mayPresent s t then s
    else match fetchBundle s s.turn t with
      | .word w => (match decodeBundle w.toNat with
          | .error _ => raiseTrap s.turn (illegalTrap w) s
          | .ok _ => s)
      | .trap _ => s
      | .miss => s
/-- R370. -/
def watchLimit (t : Thread) : Nat := bits t.sys.wdlimit.toNat 0 32 * 65536
def evWatchdogExpiry (k : Nat) (s : State) : State :=
  match getThread s k with
  | none => s
  | some t =>
    if watchLimit t = 0 ∨ t.watch < watchLimit t then s
    else addBoundary k (trapOf tWatchdog 0xA t.sys.wdlimit) (setThread s k { t with watch := 0 })
def evTrapEntry (k : Nat) (s : State) : State := enterTrap k s
/-- R199: a remote full/empty action of the thread has been performed and its answer is on the way. -/
def feUnderway (s : State) (k : Nat) : Bool :=
  s.accesses.any fun a => decide (a.2.owner = .thread k) && a.2.performed && (match a.2.op with | .fe _ _ => true | _ => false)
/-- R364, R365: the oldest pending boundary trap is raised at the first bundle boundary in user mode; a bundle whose action
has been performed issues first. -/
def evBoundaryTrap (k : Nat) (s : State) : State :=
  match getThread s k with
  | none => s
  | some t =>
    match t.boundary with
    | [] => s
    | tr :: ts => if atBoundary t && !t.system && !feDone t && !feUnderway s k then raiseTrap k tr (setThread s k { t with boundary := ts }) else s

/-! Waits. -/

def evVgathPass (k : Nat) (s : State) : State :=
  match getThread s k with
  | some t => (match t.gather with | some g => if g.last < s.cc then gatherPass k s else s | none => s)
  | none => s
/-- Notes the cc of an action at a word, so that the next waiter acts in the next cc (R201). -/
def noteWord (word : Nat) (s : State) : State := { s with woken := put s.woken word s.cc }
/-- The access answers and turns back toward its master. R136, R137: the answer of another device to an ORD frame is an ORD
frame of that device, with the next number of its sequence (log entry 113). -/
def answerAccess (id : Nat) (r : Answer) (s : State) : State :=
  match look s.accesses id with
  | none => s
  | some a =>
    if a.device = s.cfg.device ∨ a.host then { s with accesses := put s.accesses id { joinQueue s a (replyPlace s a) with performed := true, answer := some r } }
    else
      let n := (peerAt s a.device).ordBack
      let u : State := { s with accesses := put s.accesses id { joinQueue s a .back with performed := true, answer := some r, backSeq := n } }
      if classOf a = .ord then modPeer a.device (fun p => { p with ordBack := (n + 1) % 2 ^ 32 }) u else u
/-- R376: the poison of an uncorrectable error in the line of a physical address. -/
def eccPoison (cause pa : Nat) : Trap := poisoned tMemUncorrectable cause (BitVec.ofNat 64 (pa / 64 * 64)) 0
/-- R286: the load that a fault status of a chain wakes traps at its bundle and performs nothing. -/
def chainEnds (s : State) (k : Nat) (fk : FeKind) (pa : Nat) : Bool :=
  match getThread s k with
  | some t => consumesChain fk && t.chains.any fun c => decide (c.2.state = .faulted) && decide (scratchPa s (coreOf k) c.2.stat = pa)
  | none => false
/-- R201: a waiter performs its action at its word. -/
def waiterAct (word : Nat) (w : Waiter) (s : State) : State :=
  let pa := 8 * word
  match w with
  | .thread k fk data _ =>
    if chainEnds s k fk pa then modThread k (fun t => { t with wait := none }) s
    else
    let r := feAct fk data pa s
    answerWait k r.1 (if fePushes fk && lineBad s pa 8 then some (eccPoison 1 pa) else none) r.2
  | .remote id _ =>
    (match look s.accesses id with
    | some a => (match a.op with
        | .fe fk data =>
          let r := feAct fk data pa s
          answerAccess id (if fePushes fk && lineBad s pa 8 then .uncorrectable else .data (bytes64 r.1) .none) r.2
        | _ => s)
    | none => s)
  | .msync k take _ => modRun k .m (fun r => { r with sent := true, waiting := false }) (if take then setFull pa false s else s)
/-- R202: the deadline of a waiter, and whether it has passed. -/
def Waiter.deadline : Waiter → Option Nat
  | .thread _ _ _ d => d
  | .remote _ d => d
  | .msync _ _ d => d
def passed (s : State) : Option Nat → Bool
  | some d => decide (d ≤ s.cc)
  | none => false
def expireWait (k : Nat) (s : State) : State := modThread k (fun t => { t with wait := t.wait.map fun w => { w with expired := true } }) s
/-- R202, R265: the word answers "timed out" and removes the waiter. -/
def evFeTimeout (word i : Nat) (s : State) : State :=
  match ((look s.waiters word).getD [])[i]? with
  | none => s
  | some w =>
    if ¬ passed s w.deadline then s
    else
      let s := dropWaiter word i s
      match w with
      | .thread k _ _ _ => expireWait k s
      | .remote id _ => answerAccess id .timedOut s
      | .msync k _ _ => deferFault k .m (trapOf tFeTimeout 6 (BitVec.ofNat 64 (8 * word % 2 ^ 20))) s
/-- R297: the deadline of a `barwait` passes; a global one leaves its object. -/
def evBarwaitTimeout (k : Nat) (s : State) : State :=
  match getThread s k with
  | none => s
  | some t =>
    match t.wait with
    | none => s
    | some w =>
      if w.kind = .bar ∧ passed s w.deadline ∧ ¬ w.answered then expireWait k (removeWaiters k false s) else s
/-- R363: LNCHLIM passes without a resolution. -/
def evShapewTimeout (k : Nat) (s : State) : State :=
  match getThread s k with
  | none => s
  | some t =>
    match t.sWait with
    | none => s
    | some w => if w.kind = .shape ∧ passed s w.deadline then modThread k (fun t => { t with sWait := t.sWait.map fun w => { w with expired := true } }) s else s

end Sys2Proof.Machine
end

