-- ==== Sys2Proof/Machine/Records.lean ====
section
/-! DEFINITION. Hub time, the lanes and paths of the fabric as this device numbers them (R128, R134), and fault
records: how one is made, who owns it, how it enters a fault queue (R144 to R149). -/

namespace Sys2Proof.Machine

/-- 1 cc is 0.625 ns: the cc in n microseconds. -/
def usCc (n : Nat) : Nat := 1600 * n
/-- R145: hub time in ns. -/
def hubNs (s : State) : Nat := s.cc * 5 / 8

/-! Lanes and paths. -/

/-- R128: group and member of a device. -/
def groupOf (d : Nat) : Nat := d / 32
def memberOf (d : Nat) : Nat := d % 32
/-- R128: the transmit lane of device a toward device b, as 32e + λ. -/
def txLane (a b : Nat) : Nat := 32 * groupOf b + (memberOf b + 32 - memberOf a) % 32
/-- R128: the device a transmit lane of this device reaches, and the device a receive lane hears. -/
def txPeer (own lane : Nat) : Nat := 32 * (lane / 32) + (memberOf own + lane % 32) % 32
def rxPeer (own lane : Nat) : Nat := 32 * (lane / 32) + (memberOf own + 32 - lane % 32) % 32
def laneAt (s : State) (i : Nat) : Lane := (look s.lanes i).getD {}
def modLane (i : Nat) (f : Lane → Lane) (s : State) : State := { s with lanes := put s.lanes i (f (laneAt s i)) }
/-- R130: a member of the domain whose tag agrees. -/
def isMember (s : State) (d : Nat) : Bool := s.dommap.contains d && (peerAt s d).tagOk
/-- R134: the RLYTAB word of a destination, a relay of it, and whether the relay path is enabled. -/
def rlyWord (s : State) (d : Nat) : W64 := (look s.rlytab d).getD 0
def relayOf (w : W64) (k : Nat) : Nat := bits w.toNat (10 * k) 10
def relayOn (w : W64) (k : Nat) : Bool := flag w.toNat (43 + k)
def txUp (s : State) (d : Nat) : Bool := decide ((laneAt s (txLane s.cfg.device d)).tx = 2)
/-- R128: the receive lane by which this device hears device d. -/
def rxLane (own d : Nat) : Nat := 32 * groupOf d + (memberOf own + 32 - memberOf d) % 32
/-- R17, R129: the loopback lane of a device, the lane of its own group with wavelength index 0, carries no traffic. -/
def loopLane (own : Nat) : Nat := 32 * groupOf own
/-- R141: the lane from a relay to a destination, as a number. -/
def hopKey (c d : Nat) : Nat := 1024 * c + d
/-- R134: the device a path leaves this device toward: the destination, or its relay. -/
def firstHop (s : State) (d p : Nat) : Nat := if p = 0 then d else relayOf (rlyWord s d) p
/-- R141: both hops of the way to a destination over a first device are in service; of a second hop the source knows
what the relay's notices say (R144). -/
def wayUp (s : State) (d c : Nat) : Bool := txUp s c && (decide (c = d) || !memSet s.secondDown (hopKey c d))
/-- R134, R141: an enabled path with both hops in service. -/
def pathUsable (s : State) (d p : Nat) : Bool :=
  if p = 0 then txUp s d else decide (p ≤ 3) && relayOn (rlyWord s d) p && wayUp s d (relayOf (rlyWord s d) p)
def usablePaths (s : State) (d : Nat) : List Nat := (List.range 4).filter (pathUsable s d)
/-- R143: since when each member has had no usable path. -/
def notePaths (s : State) : State :=
  s.dommap.foldl (fun s d =>
    if d = s.cfg.device then s
    else modPeer d (fun p => { p with lostAt := if (usablePaths s d).isEmpty then some (p.lostAt.getD s.cc) else none }) s) s

/-- R134: the relays of destination b from device a, by the devices that count as members. -/
def defaultRelays (a b : Nat) (has : Nat → Bool) : List Nat :=
  (((List.range 31).map fun j => (groupOf b + 8 * ((j + 1) % 4) + (j + 1) / 4) % 32).filterMap fun g =>
    if g = groupOf a then none
    else if has (32 * g + memberOf b) then some (32 * g + memberOf b)
    else ((List.range 32).map fun m => 32 * g + m).find? has).take 3
/-- R134: the RLYTAB word of a list of relays. -/
def relayWord (rs : List Nat) : W64 :=
  BitVec.ofNat 64 (rs.getD 0 0 * 2 ^ 10 + rs.getD 1 0 * 2 ^ 20 + rs.getD 2 0 * 2 ^ 30 + (2 ^ rs.length - 1) * 2 ^ 44)
/-- R134: RLYTAB by DefaultRelays for the destinations chosen. -/
def fillRelays (has : Nat → Bool) (choose : Nat → Bool) (s : State) : State :=
  notePaths ((s.dommap.filter fun d => decide (d ≠ s.cfg.device) && choose d).foldl
    (fun s d => { s with rlytab := put s.rlytab d (relayWord (defaultRelays s.cfg.device d has)) }) s)
/-- R134, R383, R385: the members that count for DefaultRelays: those not treated as absent since they were lost or evicted. -/
def present (s : State) (d : Nat) : Bool := isMember s d && !(peerAt s d).absent
/-- R134: a device counts again: the destinations whose default relays change with it. -/
def relaysWith (old : Nat → Bool) (s : State) : State :=
  fillRelays (present s) (fun d => decide (relayWord (defaultRelays s.cfg.device d old) ≠ relayWord (defaultRelays s.cfg.device d (present s)))) s
/-- R383, R385: a device counts no longer: the destinations whose relays include it. -/
def relaysWithout (l : Nat) (s : State) : State :=
  fillRelays (present s) (fun d => [1, 2, 3].any fun k => relayOn (rlyWord s d) k && decide (relayOf (rlyWord s d) k = l)) s

/-! Records. -/

/-- R144: event classes. -/
def clCombLoss := 1
def clCombRelock := 2
def clTuneLoss := 3
def clExcursion := 4
def clLaneDown := 5
def clLaneUp := 6
def clCodeChange := 7
def clPathChange := 8
def clPeerLost := 9
def clPeerBack := 10
def clCircFail := 11
def clCircFixed := 12
def clAccessDrop := 13

/-- R145: word 0 from its fields as (value, lowest bit); word 2 and W are given whole. -/
def makeRecord (s : State) (cls cause : Nat) (more : List (Nat × Nat)) (w2 : W64) (w : W32) : RecordWords :=
  { w0 := word64 ([(cls, 56), (cause, 52)] ++ more), w1 := BitVec.ofNat 64 (hubNs s), w2 := w2
    w3 := word64 [(w.toNat, 32), (s.seq % 2 ^ 16, 16)] }
/-- R145: word 2 of an event of this device: the members of a group that it affects. -/
def peersWord (s : State) (relay group mask : Nat) : W64 := word64 [(s.cfg.device, 54), (relay, 44), (group, 39), (mask, 0)]
def recClass (r : RecordWords) : Nat := bits r.w0.toNat 56 8
/-- R145: the devices of PMASK. -/
def recPeers (r : RecordWords) : List Nat :=
  ((List.range 32).filter fun m => flag r.w2.toNat m).map fun m => 32 * bits r.w2.toNat 39 5 + m

/-- R146: the thread of slot k, or one of its engines, has a frame unacknowledged to or from one of the devices: one of this
device's, or the answer of such a device on its way here. -/
def framesWith (s : State) (k : Nat) (ds : List Nat) : Bool :=
  (match getThread s k with
    | some t => s.frames.any fun f => decide (f.2.who = some t.dispatched) && ds.contains f.2.peer
    | none => false)
    || s.accesses.any fun a => decide (ownerSlot a.2.owner = some k) && ds.contains a.2.device && decide (a.2.place = .back)
/-- R146: a member of the cohort of a circuit, or a thread with traffic outstanding on it. -/
def onCircuit (s : State) (k ctx h : Nat) : Bool :=
  (match ctxOf s k with | some c => decide (c.1 = ctx) | none => false)
    || s.ports.any (fun p => p.2.buf.any fun f => decide (f.slot = k) && decide (f.ctx = ctx) && decide (f.h = h))
    || (match getThread s k with
      | some t => [t.c0, t.c1].any fun e => (match e.run with | some r => (match r.route with | .circuit c x _ => decide (c = ctx) && decide (x = h) | .net _ => false | .auto _ _ => false) | none => false)
      | none => false)
/-- R148, R149: a record enters the queue of a thread that owns it. -/
def enterRecord (r : RecordWords) (k : Nat) (t : Thread) (s : State) : State :=
  if ¬ flag t.sys.classen (recClass r) then s
  else if 8 ≤ t.faultQueue.length then setThread s k { t with sys := { t.sys with lost := min 255 (t.sys.lost + 1) } }
  else
    let s := setThread s k { t with faultQueue := t.faultQueue ++ [r] }
    if t.sys.alert then addBoundary k (trapOf tFabricEvent 0xA 0 0 (recClass r)) s else s
/-- R146: a record is logged and goes to every thread that owns its event. -/
def postRecord (r : RecordWords) (owns : Nat → Bool) (s : State) : State :=
  s.threads.foldl (fun s x => if x.2.sys.watch || owns x.1 then enterRecord r x.1 x.2 s else s)
    { s with log := s.log ++ [LogEntry.record r], seq := s.seq + 1 }
/-- A record of a lane, comb or peer event: its owners have frames with a device of PMASK. -/
def postPeers (r : RecordWords) (s : State) : State := postRecord r (fun k => framesWith s k (recPeers r)) s
def laneRecord (cls cause : Nat) (more : List (Nat × Nat)) (w2 : W64) (w : W32) (s : State) : State :=
  postPeers (makeRecord s cls cause more w2 w) s
/-- R144: a CTRL frame can go to another device: a reachable member over a usable path. -/
def ctrlReaches (s : State) (d : Nat) : Bool :=
  decide (d ≠ s.cfg.device) && isMember s d && (peerAt s d).reachable && !(usablePaths s d).isEmpty
/-- R143, R144: a CTRL notice of a record goes to each of the devices that can be reached; one for a peer that has been silent
for 50 µs is held, since only keepalives go there. -/
def sendNotice (r : RecordWords) (ds : List Nat) (s : State) : State :=
  let told := (ds.filter (ctrlReaches s)).map fun d => (d, r)
  { s with
    notices := s.notices ++ told.filter fun x => !(peerAt s x.1).silent
    heldNotices := s.heldNotices ++ told.filter fun x => (peerAt s x.1).silent }
/-- R145: word 0 of an event of one lane: DIR, its engine and wavelength, and the code after it; the code before it
belongs to CODE_CHANGE alone. -/
def laneFields (cls lane : Nat) (rx : Bool) (old new : Nat) : List (Nat × Nat) :=
  [(bit rx, 51), (1, 50), (lane / 32, 44), (lane % 32, 39), (if cls = clCodeChange then old else 0, 37), (new, 35)]
/-- R144: an event of one lane is recorded; the device at its other end gets a notice, and every member gets one of a
transmit lane, which may be the second hop of its relay paths. The ends of a change of code each record it themselves
(R132). -/
def oneLane (cls cause lane : Nat) (rx : Bool) (old new peer : Nat) (w : W32) (s : State) : State :=
  let r := makeRecord s cls cause (laneFields cls lane rx old new) (peersWord s 0 (groupOf peer) (2 ^ memberOf peer)) w
  let s := postPeers r s
  if cls = clCodeChange then s else sendNotice r (if rx then [peer] else s.dommap) s
/-- R145: ACCESS_DROP of an access of a master to a local offset; cause 8 read, 9 write, 0xA atomic. -/
def dropRecord (master pa : Nat) (right : Right) (s : State) : State :=
  let cause := if right = rightR then 8 else if right = rightW then 9 else 10
  postRecord (makeRecord s clAccessDrop cause [(paTile pa, 44)] (word64 [(master, 42), (paOffset pa, 0)]) 0) (fun _ => false) s
/-- R145, R168: the CAUSE of a record for the cause of a circuit's failure: tuning of a mesh or a ring, or a comb. -/
def recordCause (cause : Nat) : Nat := if cause = 1 ∨ cause = 2 ∨ cause = 3 then 1 else if cause = 4 then 2 else 0
/-- R145: a circuit event. -/
def circRecord (cls cause ctx cohort h gen : Nat) (s : State) : State :=
  postRecord (makeRecord s cls cause [(1, 49), (h, 28), (gen % 256, 20), (cohort, 8)] (peersWord s 0 0 0) 0) (fun k => onCircuit s k ctx h) s

end Sys2Proof.Machine
end

