-- ==== Sys2Proof/Machine/Regs.lean ====
section
/-! DEFINITION. The registers of the hub, of a tile and of the L2 control region as memory-mapped words, with the
behaviour of their writes (R6, R87, R104, R106, R110, R113, R130, R133, R134, R390, R397). A register is the unit of an
access: a write of part of one keeps its other bytes; offsets that name no register read as zero and ignore writes
(log entry 34). -/

namespace Sys2Proof.Machine

/-! Lanes (R131 to R133, R141). -/

/-- R133: the register word. -/
def laneWord (l : Lane) : W64 :=
  word64 [(bit l.pin, 63), (l.pcode % 4, 61), (bit l.dis, 60), (l.tx % 4, 58), (l.rx % 4, 56), (l.code % 4, 54), (l.uncorr % 2 ^ 16, 32), (l.w.toNat, 0)]
/-- R132: a decision for a code; one change at a time is pending, and a decision waits for it to complete. -/
def requestCode (i c : Nat) (s : State) : State :=
  modLane i (fun l => match l.pending with
    | some p => { l with decided := if p = c then none else some c }
    | none => if l.code = c then l else { l with pending := some c, requestedAt := s.cc }) s
/-- R131, R133: the code a pinned lane keeps. -/
def pinnedCode (l : Lane) : Nat := min l.pcode 2
/-- R131, R133: a pinned lane in service goes to its pinned code when it is not there, or is about to leave it. -/
def keepPin (i : Nat) (s : State) : State :=
  let l := laneAt s i
  if l.rx = 2 ∧ l.pin then requestCode i (pinnedCode l) s else s
/-- R133: a write of PIN or PCODE to a lane in service starts the handshake when the code must change. -/
def setPin (i : Nat) (pin : Bool) (pcode : Nat) (s : State) : State := keepPin i (modLane i (fun l => { l with pin := pin, pcode := pcode }) s)
/-- R141: a receive lane leaves service. -/
def rxDown (i cls cause : Nat) (w : W32) (s : State) : State :=
  let l := laneAt s i
  if l.rx ≠ 2 then s
  else oneLane cls cause i true l.code 3 (rxPeer s.cfg.device i) w
    (notePaths (modLane i (fun l => { l with rx := 0, code := 3, pending := none, decided := none, good := 0 }) s))
/-- R141: a transmit lane leaves service; the frames on it are covered by R139. -/
def txDown (i cls cause : Nat) (s : State) : State :=
  let l := laneAt s i
  if l.tx ≠ 2 then s
  else oneLane cls cause i false l.txCode 3 (txPeer s.cfg.device i) 0
    (notePaths (modLane i (fun l => { l with tx := 0, txCode := 3, marker := none, replay := [] }) s))
/-- R17, R133: the state of a lane that begins to train: the loopback is calibrated at once (log entry 84), one toward a
member trains, any other stays dark. -/
def laneStart (own i peer : Nat) (member : Bool) : Nat := if i = loopLane own then 3 else if member && decide (peer ≠ own) then 1 else 0
/-- R133: DIS takes the lane out of service; clearing it lets it retrain. -/
def setDis (i : Nat) (dis : Bool) (s : State) : State :=
  let l := laneAt s i
  let s := modLane i (fun l => { l with dis := dis }) s
  let peer := rxPeer s.cfg.device i
  if dis then (if l.rx = 2 then rxDown i clLaneDown 5 0 s else modLane i (fun l => { l with rx := 0 }) s)
  else if l.dis ∧ l.rx = 0 then modLane i (fun l => { l with rx := laneStart s.cfg.device i peer (isMember s peer) }) s else s
def writeLane (i : Nat) (v : W64) (s : State) : State :=
  let s := setPin i (flag v.toNat 63) (bits v.toNat 61 2) s
  let s := setDis i (flag v.toNat 60) s
  modLane i (fun l => { l with uncorr := bits v.toNat 32 16 }) s

/-! The hub. -/

/-- R390: LOGN outside 4 to 12 behaves as 4. -/
def ringLog (c : W64) : Nat := if 4 ≤ bits c.toNat 8 4 ∧ bits c.toNat 8 4 ≤ 12 then bits c.toNat 8 4 else 4
def ringOn (s : State) : Bool := flag s.cmdring.toNat 0
/-- R390: a write with EN = 1 while EN reads 1 is ignored whole; setting EN resets the slot index and the pass count. -/
def writeCmdring (v : W64) (s : State) : State :=
  let v := v &&& 0xFFFFFFFFFFFFFF01
  if flag v.toNat 0 then
    if ringOn s then s else { s with cmdring := v, ringIndex := 0, ringPass := 0, consumed := 0 }
  else { s with cmdring := v }
/-- R106: COUNT above 512 reads as 512. -/
def poolOf (s : State) (t : Nat) : W64 := (look s.migpool t).getD 0
def poolCount (w : W64) : Nat := min 512 (bits w.toNat 0 10)
def poolRead (w : W64) : W64 := (w &&& ~~~0x3FF) + BitVec.ofNat 64 (poolCount w)
/-- R110: half h of entry i of a table. -/
def readTable (s : State) (t : TableId) (i h : Nat) : W64 := if h = 0 then (tableEntry s t i).truncate 64 else (tableEntry s t i >>> 64).truncate 64
def setTable (t : TableId) (i : Nat) (e : BitVec 128) (s : State) : State := { s with tables := put s.tables (tableKey t i) e }
def writeTable (t : TableId) (i h : Nat) (v : W64) (s : State) : State :=
  let e := (tableEntry s t i).toNat
  setTable t i (BitVec.ofNat 128 (if h = 0 then e / 2 ^ 64 * 2 ^ 64 + v.toNat else v.toNat * 2 ^ 64 + e % 2 ^ 64)) s
def packMembers (l : List Nat) (i : Nat) : W64 := word64 (((List.range 64).filter fun m => l.contains (64 * i + m)).map fun m => (1, m))

/-- What the hub register at an 8-byte offset reads. -/
def readHub (s : State) (o : Nat) : W64 :=
  if o < 0x400 then readTable s ⟨16, 0⟩ (o / 16) (o % 16 / 8)
  else if 0x100000 ≤ o ∧ o < 0x102000 then laneWord (laneAt s ((o - 0x100000) / 8))
  else if 0x102000 ≤ o ∧ o < 0x104000 then rlyWord s ((o - 0x102000) / 8)
  else if 0x104000 ≤ o ∧ o < 0x104080 then packMembers s.dommap ((o - 0x104000) / 8)
  else if o = 0x104080 then BitVec.ofNat 64 s.domtag
  else if o = 0x200000 then s.cmdring
  else if o = 0x200010 then s.tvecdef
  else if o = 0x200020 then s.asidtab
  else if 0x200100 ≤ o ∧ o < 0x200180 then poolRead (poolOf s ((o - 0x200100) / 8))
  else 0
/-- R6: the write of the hub register at an 8-byte offset by a master. -/
def writeHub (o m : Nat) (v : W64) (s : State) : State :=
  if o < 0x400 then (if isFirmware s m then writeTable ⟨16, 0⟩ (o / 16) (o % 16 / 8) v s else s)
  else if 0x100000 ≤ o ∧ o < 0x102000 then writeLane ((o - 0x100000) / 8) v s
  else if 0x102000 ≤ o ∧ o < 0x104000 then notePaths { s with rlytab := put s.rlytab ((o - 0x102000) / 8) (v &&& 0x000070FFFFFFFC00) }
  else if o = 0x200000 then writeCmdring v s
  else if o = 0x200010 then (if isFirmware s m then { s with tvecdef := v &&& ~~~0xE } else s)
  else if o = 0x200020 then (if isFirmware s m then { s with asidtab := v &&& 0x80FFFFFFFFF80000 } else s)
  else if 0x200100 ≤ o ∧ o < 0x200180 then
    (if isFirmware s m then { s with migpool := put s.migpool ((o - 0x200100) / 8) (v &&& 0x00FFFFFFFFFFF3FF) } else s)
  else s

/-! Tile registers and counter words. -/

/-- R110: the table of a tile at an offset, if one lies there. -/
def tileTable (tile o : Nat) : Option TableId := if o < 0xA400 then some ⟨tile, o / 0x400 * 0x400⟩ else none
def readTile (s : State) (tile o : Nat) : W64 :=
  match tileTable tile o with
  | some t => readTable s t (o % 0x400 / 16) (o % 16 / 8)
  | none => 0
def writeTile (tile o m : Nat) (v : W64) (s : State) : State :=
  match tileTable tile o with
  | some t => if isFirmware s m then writeTable t (o % 0x400 / 16) (o % 16 / 8) v s else s
  | none => s
/-- R104: the granule whose counter word lies at an L2 control offset of a tile. -/
def granuleAt (pa : Nat) : Nat := (paOf (paDevice pa) (paTile pa) 0) / 65536 + (paOffset pa - 0x10000000000) / 8
def writeGranule (g : Nat) (v : W64) (s : State) : State :=
  let x := (look s.granules g).getD {}
  { s with granules := put s.granules g { x with loc := bits v.toNat 48 16, pkg := bits v.toNat 32 16, peer := bits v.toNat 16 16, g := flag v.toNat 15 } }

/-- The word of a register region at an 8-byte-aligned physical address. -/
def readReg (s : State) (pa : Nat) : W64 :=
  match regionOf pa with
  | .l2ctl => granuleWord ((look s.granules (granuleAt pa)).getD {})
  | .tileReg o => readTile s (paTile pa) o
  | .hub o => readHub s o
  | .hbm => 0 | .scratch _ _ => 0 | .weight _ _ _ => 0 | .unassigned => 0
def writeReg (m pa : Nat) (v : W64) (s : State) : State :=
  match regionOf pa with
  | .l2ctl => writeGranule (granuleAt pa) v s
  | .tileReg o => writeTile (paTile pa) o m v s
  | .hub o => writeHub o m v s
  | .hbm => s | .scratch _ _ => s | .weight _ _ _ => s | .unassigned => s
/-- A region of registers rather than of bytes. -/
def isReg (pa : Nat) : Bool :=
  match regionOf pa with
  | .l2ctl => true | .tileReg _ => true | .hub _ => true
  | .hbm => false | .scratch _ _ => false | .weight _ _ _ => false | .unassigned => false

/-- n bytes read from a physical address of this package, or of another device's memory. -/
def readAny (s : State) (pa n : Nat) : List Byte :=
  if isReg pa then (List.range n).map fun i => ((bytes64 (readReg s ((pa + i) / 8 * 8))).getD ((pa + i) % 8) 0) else readPa s pa n
/-- The bytes of an 8-byte word that a masked write from pa gives, over its old bytes. -/
def mergeWord (old : List Byte) (w pa : Nat) (d : List (Option Byte)) : List Byte :=
  (List.range 8).map fun i => if pa ≤ w + i then ((d.getD (w + i - pa) none).getD (old.getD i 0)) else old.getD i 0
/-- A masked write to a physical address; each register it touches is written once. -/
def writeAny (m pa : Nat) (d : List (Option Byte)) (s : State) : State :=
  if isReg pa then
    (List.range ((pa % 8 + d.length + 7) / 8)).foldl (fun s i =>
      let w := pa / 8 * 8 + 8 * i
      writeReg m w (nat64 (mergeWord (bytes64 (readReg s w)) w pa d)) s) s
  else { s with mem := s.mem.storeMasked pa d }

/-! Writes as events of their own. -/

def evAsidregWrite (k : Nat) (v : W64) (s : State) : State := noteOwner k (writeAsid k v s)
def evSrseedWrite (k : Nat) (v : W64) (s : State) : State := writeSrseed k v s
def evFrecpop (k : Nat) (s : State) : State := popRecord k s
def evLandwinWrite (k : Nat) (v : W64) (s : State) : State :=
  match getThread s k with
  | none => s
  | some t => if (writeTraps t 0x066 v).isEmpty && !t.spec then writeLandwin k v s else s
def evChdrop (k : Nat) (v : W64) (s : State) : State := writeChdrop k v s
def evMnest1Drop (k : Nat) (s : State) : State := dropMatrix k s
def evWdlimitWrite (k : Nat) (v : W64) (s : State) : State := writeWdlimit k v s
def evLanePinWrite (i : Nat) (pin : Bool) (pcode : Nat) (s : State) : State := setPin i pin pcode s
def evLaneDisWrite (i : Nat) (dis : Bool) (s : State) : State := setDis i dis s
def evCmdringEnable (v : W64) (s : State) : State := writeCmdring (v ||| 1) s
def evCmdringDisable (v : W64) (s : State) : State := writeCmdring (v &&& ~~~1) s
/-- R113: `table` is the tile (16 the hub) times 2^20 plus the table's offset. -/
def evAccessTableWrite (table index : Nat) (v : BitVec 128) (s : State) : State :=
  if index < 64 then setTable ⟨table / 0x100000, table % 0x100000⟩ index v s else s
/-- R6, R371: a write of a thread's register, within the checks its write makes, or of a hub register by a master that
the hub's table allows. -/
def evRegisterWrite (r : RegRef) (v : W64) (s : State) : State :=
  match r with
  | .thread k n => (match getThread s k with
      | some t => if (writeTraps t n v).isEmpty then writeSys k n v s else s
      | none => s)
  | .hub o m => if (refuse s m (hubPa s + o / 8 * 8) 8 rightW).isNone then writeHub (o / 8 * 8) m v s else s

end Sys2Proof.Machine
end

