-- ==== Sys2Proof/Machine/Home.lean ====
section
/-! DEFINITION. What happens at a home slice, an engine port, a register region or the host adapter: line accesses,
atomics, barrier actions, walks, and the migration of pages (R89, R104 to R106, R111, R112, R191, R200, R201, R276 to
R279, R294, R297, R301 to R304, R318, R319). -/

namespace Sys2Proof.Machine

/-! The order of performance (R302, R319). -/

/-- The owner an access was made for, though it may wait no longer. -/
def madeFor (a : Access) : Owner := match a.owner, a.keeps with | .gone, some o => o.1 | o, _ => o
def isShapepub : AccOp → Bool
  | .shapepub _ _ => true
  | .read _ => false | .write _ => false | .amo _ _ _ => false | .cas _ _ _ => false | .cas2 _ _ => false | .fe _ _ => false | .bar _ _ _ => false
  | .chain _ => false
/-- Two accesses, the first made earlier, whose performance keeps the order in which they were made: of one thread, its device
and its host accesses each, and both before a `shapepub` (R361); of one peer, its ORD frames. -/
def sameQueue (a b : Access) : Bool :=
  match madeFor a, madeFor b with
  | .thread j, .thread k => decide (j = k) && decide (a.keeps.map Prod.snd = b.keeps.map Prod.snd) && (decide (a.host = b.host) || isShapepub b.op)
  | .peer j _, .peer k _ => decide (j = k) && a.buffered && b.buffered
  | .host, .host => true
  | _, _ => false
/-- R201: an access is in the list of waiters of its word. -/
def isWaiting (s : State) (id pa : Nat) : Bool :=
  ((look s.waiters (pa / 8)).getD []).any fun w => match w with
    | .remote j _ => decide (j = id)
    | .thread _ _ _ _ => false
    | .msync _ _ _ => false
/-- An earlier access of its queue has not performed, or an earlier gather or scatter still has passes to run; a launch reads
its descriptor before later accesses perform. An access that waits at its word or object for its condition keeps back those of
its own master alone, since another's may be what it waits for (R305). -/
def mustWait (s : State) (id : Nat) (a : Access) : Bool :=
  s.accesses.any (fun b => decide (b.1 < id) && sameQueue b.2 a && !b.2.performed && b.2.answer.isNone
      && (decide (b.2.master = a.master) || !(b.2.watching || isWaiting s b.1 b.2.pa)))
    || (match a.owner with
      | .thread k => s.hubReqs.any fun r => decide (r.slot = k) && decide (r.tag < id) && !a.host && r.kept.isNone && (match r.ask with | .launch _ _ _ _ => true | .join _ _ _ => false | .leave _ => false | .query _ => false)
          || (!a.host && (match getThread s k with | some t => t.gather.isSome | none => false))
      | .engine _ _ _ => false | .chain _ _ => false | .host => false | .peer _ _ => false | .gone => false)
/-- An access that stands at its target and may perform now. -/
def atTarget (s : State) (id : Nat) (a : Access) : Bool :=
  decide (a.place = .target) && !a.performed && !a.watching && !mustWait s id a && !heldBySpec s a

/-- An access answers at its target with its new clock. -/
def answerAt (id clock : Nat) (r : Answer) (s : State) : State :=
  answerAccess id r { s with accesses := s.accesses.map fun x => if x.1 = id then (x.1, { x.2 with clock := clock }) else x }

/-! Denials (R112). -/

def isHostOrPeer (s : State) (m : Nat) : Bool := decide (m / 4096 ≠ s.cfg.device) || decide (m % 4096 = 3084)
/-- R112: a refused access is not performed; one of the host or of another device is logged. -/
def denyAccess (id : Nat) (a : Access) (table : Nat) (s : State) : State :=
  let s := answerAccess id (.denied (BitVec.ofNat 64 table)) s
  if isHostOrPeer s a.master then dropRecord a.master a.pa (opRight a.op) s else s

/-! Line accesses. -/

/-- R106: where a line of a page in migration stands now. -/
def movedPa (s : State) (pa : Nat) : Option Nat :=
  s.migrations.findSome? fun m => if m.src ≤ pa ∧ pa < m.src + 64 * m.moved then some (m.dst + (pa - m.src)) else none
/-- R121: the accesses forwarded by a home slice that have not performed. -/
def forwarded (s : State) (slice : Nat) : Nat := (s.accesses.filter fun a => decide (a.2.forward = some slice) && !a.2.performed).length
/-- R106, R121: an access to a moved line goes on to its new home, or back to its master as a bounce. -/
def forwardAccess (id : Nat) (a : Access) (new : Nat) (s : State) : State :=
  let out : Access :=
    if forwarded s (sliceNo a.pa) < 16 then
      { joinQueue s a (.out a.dst.1 a.dst.2 0 false) with pa := new, forward := some (sliceNo a.pa), dst := targetRouter new a.dst.2 }
    else joinQueue s a (.out a.dst.1 a.dst.2 0 true)
  { s with accesses := put s.accesses id out }

/-- R103, R197, R204: a read or write of one line performs. -/
def performLine (id : Nat) (a : Access) (s : State) : State :=
  match a.op with
  | .read n =>
    if a.host then answerAt id (a.clock + 1) (.data (readHost s a.pa n) .none) s
    else if lineBad s a.pa n then answerAt id a.clock .uncorrectable s
    else
      let b := readAny s a.pa n
      let r := leaseRead a.pa a.clock s
      answerAt id r.1 (.data b .none) r.2
  | .write d =>
    if a.host then answerAt id (a.clock + 1) .ack { s with hostMem := s.hostMem.storeMasked a.pa d }
    else
      let r := grantWrite a.pa a.master a.clock s
      answerAt id r.1 .ack (writeAny a.master a.pa d r.2)
  | .amo _ _ _ => s | .cas _ _ _ => s | .cas2 _ _ => s | .fe _ _ => s | .bar _ _ _ => s | .shapepub _ _ => s | .chain _ => s

/-- R202: the deadline of a full/empty access or `barwait` that begins to wait at its target. -/
def accessDeadline (s : State) (a : Access) : Option Nat :=
  match a.owner with
  | .thread k => (match getThread s k with | some t => feDeadline s t | none => none)
  | .engine _ _ _ => none | .chain _ _ => none | .host => none | .peer _ _ => none | .gone => none
/-- R199 to R201: a full/empty access acts when its condition holds and otherwise joins the waiters of its word. -/
def performFe (id : Nat) (a : Access) (k : FeKind) (data : W64) (s : State) : State :=
  if isWaiting s id a.pa then s
  else if feCond k (isFull s a.pa) then
    let r := feAct k data a.pa s
    answerAt id a.clock (if fePushes k && lineBad s a.pa 8 then .uncorrectable else .data (bytes64 r.1) .none) r.2
  else addWaiter a.pa (.remote id (accessDeadline s a)) s

/-- R104: an access that a home slice receives counts at its granule; a forwarded one was counted there before. -/
def countAccess (a : Access) (s : State) : State :=
  if a.host then s
  else countLine a.pa (a.master / 4096) (masterTile a.master) (if (movedPa s a.pa).isSome then s else fixSoft a.pa (opBytes a.op) s)
/-- R103, R104, R106, R112: a line access or full/empty access at its target. -/
def homeLine (id : Nat) (a : Access) (s : State) : State :=
  match a.denied with
  | some t => denyAccess id a t s
  | none =>
    match (if a.host then none else movedPa s a.pa) with
    | some new => forwardAccess id a new (countAccess a s)
    | none =>
      match a.op with
      | .read _ => performLine id a (countAccess a s)
      | .write _ => performLine id a (countAccess a s)
      | .fe k d => performFe id a k d s
      | .amo _ _ _ => s | .cas _ _ _ => s | .cas2 _ _ => s | .bar _ _ _ => s | .shapepub _ _ => s | .chain _ => s
/-- R112, R161, R313: what keeps an access at its target from acting: nothing of a discarded one is left to do; host memory
is out of reach while the Erard link is down; and the host may refuse an access (`ok` false), which is a denial. -/
def stopped (id : Nat) (a : Access) (ok : Bool) (s : State) : Option State :=
  if a.void then some (answerAccess id .ack s)
  else if a.host && !s.linkUp then some (answerAccess id .unreachable s)
  else if a.host && !ok then some (denyAccess id a 0 s)
  else none

/-! Atomics (R276 to R279). -/

/-- R125, R126: every request that this one absorbed, on any way. -/
def absorbedBy (s : State) : Nat → Nat → List Nat
  | 0, _ => []
  | n + 1, id => match look s.accesses id with
    | some a => a.merged.flatMap fun m => m.1 :: absorbedBy s n m.1
    | none => []
def markPerformed (ids : List Nat) (s : State) : State :=
  { s with accesses := s.accesses.map fun a => if ids.contains a.1 then (a.1, { a.2 with performed := true }) else a }
/-- R277, R279: one action; an uncorrectable old value writes nothing. -/
def atomicAct (id : Nat) (a : Access) (s : State) : State :=
  if a.host then
    let r := performAtomic a.op a.pa { s with mem := s.hostMem }
    markPerformed (absorbedBy s 16 id) (answerAt id (a.clock + 1) (.data r.1 r.2.1) { s with hostMem := r.2.2.mem })
  else if lineBad s a.pa (opBytes a.op) then answerAt id a.clock .uncorrectable (countAccess a s)
  else
    let g := grantWrite a.pa a.master a.clock (countAccess a s)
    let r := performAtomic a.op a.pa g.2
    markPerformed (absorbedBy s 16 id) (answerAt id g.1 (.data r.1 r.2.1) r.2.2)
def isAtomic : AccOp → Bool
  | .amo _ _ _ => true | .cas _ _ _ => true | .cas2 _ _ => true
  | .read _ => false | .write _ => false | .fe _ _ => false | .bar _ _ _ => false | .shapepub _ _ => false | .chain _ => false
def atomicAt (id : Nat) (a : Access) (s : State) : State :=
  match a.denied with
  | some t => denyAccess id a t s
  | none =>
    match (if a.host then none else movedPa s a.pa) with
    | some new => forwardAccess id a new (countAccess a s)
    | none => atomicAct id a s

/-! Barrier operations (R293 to R298). -/

/-- R297: a `barwait` that waits takes its deadline at its first evaluation. -/
def startBarWait (a : Access) (s : State) : State :=
  match a.owner with
  | .thread k => modThread k (fun t => { t with wait := t.wait.map fun w => { w with deadline := match w.deadline with | some d => some d | none => accessDeadline s a } }) s
  | .engine _ _ _ => s | .chain _ _ => s | .host => s | .peer _ _ => s | .gone => s
/-- R292, R294: an action on an object of this package; host memory holds no object. -/
def barrierAt (id : Nat) (a : Access) (k : BarKind) (v : W64) (n : Nat) (s : State) : State :=
  match (if a.host then some 0 else a.denied) with
  | some t => denyAccess id a t s
  | none =>
    match movedPa s a.pa with
    | some new => forwardAccess id a new (countAccess a s)
    | none =>
      let keep := decide (k = .query) || decide (k = .wait)
      let g := if keep then leaseRead a.pa a.clock s else grantBytes a.pa 32 a.master a.clock s
      let r := barPerform k a.pa v n g.2
      match r.1 with
      | .blocked => startBarWait a (setAccess id { a with watching := true } (countAccess a s))
      | .done => answerAt id g.1 .ack (countAccess a r.2)
      | .stale c => answerAt id g.1 (.stale c) (countAccess a r.2)
      | .value w => answerAt id g.1 (if lineBad s a.pa 32 then .uncorrectable else .data (bytes64 w) .none) (countAccess a r.2)
/-- R297: a `barwait` that watches its object ends with a change that ends it. -/
def wakeRemote (s : State) : State :=
  (s.accesses.filter fun x => x.2.watching && !x.2.performed && !heldBySpec s x.2).foldl (fun s x => match x.2.op with
    | .bar _ v _ =>
      if x.2.void then answerAccess x.1 .ack s
      else (match barSeen s ((movedPa s x.2.pa).getD x.2.pa) v with
      | .done => answerAccess x.1 .ack s
      | .stale c => answerAccess x.1 (.stale c) s
      | .blocked => s | .value _ => s)
    | .read _ => s | .write _ => s | .amo _ _ _ => s | .cas _ _ _ => s | .cas2 _ _ => s | .fe _ _ => s | .shapepub _ _ => s | .chain _ => s) s
/-- R297: after a change every `barwait` that waits is evaluated. -/
def wakeBarriers (s : State) : State := wakeRemote (wakeLocal s)

/-! Walks (R89, R91, R94). -/

/-- R94: a walk answers the `xlat` result that awaits it. -/
def answerWalk (w : Walk) (f : Found) (s : State) : State :=
  let go := fun (sys : Bool) (i : Item) =>
    if i.tag ≠ w.tag then i
    else match i.form with
      | .walk h va req =>
        let x := handleFrom va req w.asid sys f
        { i with value := some (.scalar (.val (handleWord x))), post := .handle h x, late := i.late }
      | .load _ => i | .vector _ => i | .old _ _ => i | .barq _ => i | .status => i
  let s := modThread w.slot (fun t => { t with
    flight := t.flight.map (go t.system)
    saved := t.saved.map fun v => { v with pending := v.pending.map (go false) } }) s
  modItems w.slot w.tag id s
/-- R89 to R91: a walk ends: the table reads count, a leaf fills the TLBs, a fault goes to who asked. -/
def evPageWalkComplete (slot tag : Nat) (s : State) : State :=
  match s.walks.find? fun w => decide (w.slot = slot) && decide (w.tag = tag) with
  | none => s
  | some w =>
    let r := walkTables s (threadMaster s w.slot) w.asid w.va
    let s1 := countReads s.cfg.device w.tile r.2 { r.2.foldl (fun s a => fixSoft a 8 s) s with walks := s.walks.filter fun x => !(decide (x.slot = slot) && decide (x.tag = tag)) }
    let s2 := match r.1 with
      | .leaf l n => tlbFill slot w.asid w.va l n s1
      | .fault _ _ => s1
    if w.fetch then
      match r.1 with
      | .leaf _ _ => s2
      | .fault c n => modThread slot (fun t => if t.pc = w.va then { t with fetchFault := some (c, n) } else t) s2
    else answerWalk w r.1 s2

/-! Migration (R105, R106). -/

/-- The numbers below n of the 8-byte entries of a table that are not zero. -/
def presentEntries (s : State) (table n : Nat) : List Nat :=
  ((s.mem.filter fun c => decide (table ≤ c.1) && decide (c.1 < table + 8 * n)).map fun c => (c.1 - table) / 8).eraseDups
/-- The 2 MiB pages of device memory that a root maps: their virtual address and frame. -/
def largePages (s : State) (root : Nat) : List (Nat × Nat) :=
  (presentEntries s root (2 ^ 14)).flatMap fun i0 =>
    let p0 := (nat64 (readPa s (root + 8 * i0) 8)).toNat
    if ¬ flag p0 0 ∨ flag p0 7 then []
    else (presentEntries s (bits p0 8 48 * 256) (2 ^ 13)).flatMap fun i1 =>
      let p1 := (nat64 (readPa s (bits p0 8 48 * 256 + 8 * i1) 8)).toNat
      if ¬ flag p1 0 ∨ flag p1 7 then []
      else (presentEntries s (bits p1 8 48 * 256) (2 ^ 9)).filterMap fun i2 =>
        let p2 := nat64 (readPa s (bits p1 8 48 * 256 + 8 * i2) 8)
        let va := i0 * 2 ^ 43 + i1 * 2 ^ 30 + i2 * 2 ^ 21
        if flag p2.toNat 0 && flag p2.toNat 7 && !badLeaf p2 (2 ^ 21) && decide (bits p2.toNat 62 2 = 0) && ownHbm s (bits p2.toNat 16 40 * 2 ^ 16) then
          some (if flag va 56 then va + 127 * 2 ^ 57 else va, bits p2.toNat 16 40 * 2 ^ 16)
        else none
/-- R105: the address spaces whose migration the hub decides, with their roots. -/
def hubSpaces (s : State) : List (Nat × Nat) :=
  if ¬ flag s.asidtab.toNat 63 then []
  else
    let t := bits s.asidtab.toNat 19 37 * 2 ^ 19
    (presentEntries s t 65536).filterMap fun a =>
      let e := (nat64 (readPa s (t + 8 * a) 8)).toNat
      if flag e 63 && !flag e 62 && decide (bits e 56 6 = 0) && decide (bits e 0 17 = 0) then some (a, bits e 17 39 * 2 ^ 17) else none
def pageGranules (frame : Nat) : List Nat := (List.range 32).map fun i => frame / 65536 + i
def granuleOf (s : State) (g : Nat) : Granule := (look s.granules g).getD {}
def sumNat (l : List Nat) : Nat := l.foldl (· + ·) 0
/-- R105: the tile a page goes to, if it migrates. The most-accessed granule is the one with the largest sum of its three
counts, the first of several (DESIGN CHOICE, log entry 94). -/
def migrateTo (s : State) (frame : Nat) : Option Nat :=
  let gs := (pageGranules frame).map (granuleOf s)
  let pkg := sumNat (gs.map Granule.pkg)
  let loc := sumNat (gs.map Granule.loc)
  if pkg < 4096 ∨ pkg < 4 * loc then none
  else match greatestBy (fun g => (granuleOf s g).loc + (granuleOf s g).pkg + (granuleOf s g).peer) (pageGranules frame) with
    | some g => if (granuleOf s g).lastTile ≠ paTile frame then some (granuleOf s g).lastTile else none
    | none => none
def poolBase (w : W64) : Nat := bits w.toNat 12 44 * 4096
/-- R106: the frames that migrations in progress will push onto the pool of a tile. -/
def poolDue (s : State) (t : Nat) : Nat := (s.migrations.filter fun m => decide (paTile m.src = t)).length
/-- R354: a 2 MiB page holds buffered lines of speculative blocks. -/
def holdsLines (s : State) (frame : Nat) : Bool := s.specLines.any fun l => decide (frame ≤ l.pa) && decide (l.pa < frame + 2 ^ 21)
/-- R106, step 1: the destination frame is popped, unless its pool is empty or the source's pool is full. The reads of the pool
and of the tables count as line accesses of the hub (R104). A page with buffered lines stays (R354). -/
def startMigration (asid va frame dst : Nat) (s : State) : State :=
  let d := poolOf s dst
  let n := poolCount d
  let e := poolBase d + 8 * (n - 1)
  if n = 0 ∨ 512 ≤ poolCount (poolOf s (paTile frame)) + poolDue s (paTile frame) ∨ (s.migrations.any fun m => decide (m.src = frame)) ∨ holdsLines s frame then s
  else
    let w := walkTables s (firmwareMaster s) asid (BitVec.ofNat 64 va)
    let f := (nat64 (readPa s e 8)).toNat
    let s := (w.2 ++ [e]).foldl (fun s a => countLine a s.cfg.device none s) s
    { s with
      migpool := put s.migpool dst (poolRead d - 1)
      migrations := s.migrations ++ [{ asid := asid, va := va, leafPa := w.2.getLast?.getD 0, src := frame, dst := f, moved := 0 }] }
def clearCounts (gs : List Nat) (s : State) : State :=
  { s with granules := s.granules.map fun g => if gs.contains g.1 then (g.1, { g.2 with loc := 0, pkg := 0, peer := 0 }) else g }
/-- R105, R106: the pages that migrate by a root: those whose leaf the walk of the hub reaches. -/
def walkedPage (s : State) (asid va frame : Nat) : Bool :=
  match (walkTables s (firmwareMaster s) asid (BitVec.ofNat 64 va)).1 with
  | .leaf w l => decide (l = 2) && decide (bits w.toNat 16 40 * 2 ^ 16 = frame)
  | .fault _ _ => false
/-- R105: the hub evaluates, and clears, the granules of the 2 MiB pages of the address spaces with MIG = 0, since only such
pages migrate (DESIGN CHOICE, log entry 94). -/
def evMigrationEvaluation (s : State) : State :=
  if s.cc % usCc 1000 ≠ 0 then s else
  let pages := (hubSpaces s).flatMap fun a => ((largePages s a.2).filter fun p => walkedPage s a.1 p.1 p.2).map fun p => (a.1, p.1, p.2)
  let s1 := pages.foldl (fun u p => match migrateTo s p.2.2 with | some d => startMigration p.1 p.2.1 p.2.2 d u | none => u) s
  clearCounts (pages.flatMap fun p => pageGranules p.2.2) s1
/-- The bytes, directory entries and full bits of n bytes move from one frame to another. -/
def moveBytes (src dst n : Nat) (m : Memory) : Memory :=
  let out := (m.filter fun c => decide (src ≤ c.1) && decide (c.1 < src + n)).map fun c => (c.1 - src + dst, c.2)
  out.foldl (fun m c => m.write c.1 c.2) ((m.clear dst n).clear src n)
def moveDir (src dst n : Nat) (d : List (Nat × Dir)) : List (Nat × Dir) :=
  let inside := fun (b : Nat) (x : Nat × Dir) => decide (b / 64 ≤ x.1) && decide (x.1 < (b + n) / 64)
  let out := (d.filter (inside src)).map fun x => (x.1 - src / 64 + dst / 64, x.2)
  out.foldl (fun d x => put d x.1 x.2) ((d.filter fun x => !inside dst x).filter fun x => !inside src x)
/-- R107: G goes with the page, and is set where the ownership of a line goes, so that a harvest still finds its writes
(DEDUCED, log entry 120). -/
def moveFlags (src dst n : Nat) (d : List (Nat × Dir)) (gs : List (Nat × Granule)) : List (Nat × Granule) :=
  (List.range (n / 65536)).foldl (fun gs i =>
    let old := (look gs (src / 65536 + i)).getD {}
    let new := (look gs (dst / 65536 + i)).getD {}
    let owned := d.any fun x => decide (x.1 / 1024 = src / 65536 + i) && x.2.owner.isSome
    if old.g || owned then put (put gs (src / 65536 + i) { old with g := false }) (dst / 65536 + i) { new with g := true } else gs) gs
def mibs2 : Nat := 2 ^ 21
/-- R106: steps 2 to 4: the page moves with the ownership of its lines, its leaf names the new frame, and it is shot
down; while accesses under the old translation remain the old home forwards them. Then step 5. -/
def evPageMigrationComplete (k : Nat) (s : State) : State :=
  match s.migrations[k]? with
  | none => s
  | some m =>
    let r : PageRange := ⟨m.asid, m.va, mibs2⟩
    if m.moved = 0 ∧ holdsLines s m.src then s
    else if m.moved = 0 then
      let leaf := nat64 (readPa s m.leafPa 8)
      let new := (leaf &&& ~~~0x00FFFFFFFFFF0000) ||| BitVec.ofNat 64 m.dst
      let s := { s with mem := moveBytes m.src m.dst mibs2 s.mem, dir := moveDir m.src m.dst mibs2 s.dir
                        granules := moveFlags m.src m.dst mibs2 s.dir s.granules
                        migrations := s.migrations.set k { m with moved := mibs2 / 64 } }
      invalidate r (tableWrite (firmwareMaster s) m.leafPa (bytes64 new) s)
    else if (coveredAccesses r s).isEmpty ∧ poolCount (poolOf s (paTile m.src)) < 512 then
      let p := poolOf s (paTile m.src)
      let s := tableWrite (firmwareMaster s) (poolBase p + 8 * poolCount p) (bytes64 (BitVec.ofNat 64 m.src)) s
      { s with migpool := put s.migpool (paTile m.src) (poolRead p + 1), migrations := s.migrations.eraseIdx k }
    else s

end Sys2Proof.Machine
end

