-- ==== Sys2Proof/Machine/Copy.lean ====
section
/-! DEFINITION. The copy channels at work: routes, lines, chunks, the delivered prefix, nests, flags, arrivals and status
records, and their deferred faults (R163, R169 to R188, R190, R253, R303). A channel runs one word at a time and at most
8 lines of it (log entry 37). -/

namespace Sys2Proof.Machine

def runThread (s : State) (k : Nat) (e : Eng) : Option (Thread × Run) :=
  match getThread s k with
  | some t => (getEngine t e).run.map fun r => (t, r)
  | none => none

/-! Faults of a channel (R175, R178, R366). -/

/-- R366: the address that names byte o of an operand. -/
def spotAddr (w : QWord) (sp : Spot) : W64 :=
  match sp with
  | .own a => BitVec.ofNat 64 a
  | .far pa _ (some c) => BitVec.ofNat 64 (c.va + (pa - c.pa))
  | .far _ _ none => w.params.getD 1 0
  | .weights => BitVec.ofNat 64 (2 ^ 63 + nthNat w.params 0 % 65536)
/-- R366: the slice offset that names a byte of a weight store. -/
def weightAddr (pa : Nat) : W64 :=
  match regionOf pa with
  | .weight _ sl o => BitVec.ofNat 64 (2 ^ 63 + (if sl = 96 then 2 ^ 62 else 0) + o)
  | .hbm => 0 | .scratch _ _ => 0 | .l2ctl => 0 | .tileReg _ => 0 | .hub _ => 0 | .unassigned => 0
/-- An engine fault at line i, whose failing operand is `sp` at the start of its chunk. -/
def chunkFault (cause : Nat) (w : QWord) (sp : Spot) (i : Nat) : Trap := engineFaultOf cause (spotAddr w sp) (BitVec.ofNat 64 (i / chunkLines w))
def chunkStart (w : QWord) (i : Nat) : Nat := i / chunkLines w * chunkLines w

/-! Routes (R162, R163, R176). -/

/-- The tile of this package that a place lies on. -/
def spotTile (s : State) (k : Nat) (sp : Spot) : Option Nat :=
  match sp with
  | .own _ => some (tileOf k)
  | .far pa host _ => if host ∨ paDevice (redirect s pa) ≠ s.cfg.device then none else some (paTile (redirect s pa))
  | .weights => some (tileOf k)
/-- R155: a circuit of a program holds the source, or the sink. -/
def portTaken (s : State) (p : Nat) : Bool := s.ctxs.any fun c => c.2.handles.any fun h => h.2.placed && decide (h.2.src = p)
def sinkTaken (s : State) (p : Nat) : Bool := s.ctxs.any fun c => c.2.handles.any fun h => h.2.placed && decide (h.2.sink = p)
/-- R155, R162: a circuit of a program or an automatic circuit has the source. -/
def portUsed (s : State) (p : Nat) : Bool := portTaken s p || s.autos.any fun x => decide (x.src = p)
/-- R162: an automatic circuit is established between two tiles when both have a free side. -/
def requestAuto (a b : Nat) (s : State) : State :=
  let free := fun (t : Nat) (used : Nat → Bool) => ((List.range 8).map fun i => 8 * t + i).find? fun p => !used p
  match free a (portUsed s), free b (fun p => sinkTaken s p || s.autos.any fun x => decide (x.dst = p)) with
  | some p, some q => { s with autos := s.autos ++ [{ src := p, dst := q, srcTile := a, dstTile := b, since := s.cc, used := s.cc }] }
  | _, _ => s
/-- R162: an automatic circuit is LIVE 240 cc after its request, as long as a handle takes to settle: the spec gives no time
for it (DESIGN CHOICE, log entry 96). -/
def autoLive (s : State) (a : Auto) : Bool := decide (a.since + 240 ≤ s.cc)
/-- R176: the handles of a context that join two places. -/
def joins (c : Ctx) (src dst : Option Nat) (dev : Option Nat) : List Nat :=
  (c.handles.filter fun h => decide (h.2.state = .live) && decide (some (h.2.src / 8) = src)
    && (match dev with
      | none => decide (h.2.sink < 128) && decide (some (h.2.sink / 8) = dst)
      | some d => decide (h.2.sink = 128 + groupOf d))).map Prod.fst
/-- R176. -/
def chooseRoute (s : State) (k : Nat) (t : Thread) (w : QWord) (total : Nat) : Route × State :=
  let thresh := bits t.sys.circmin.toNat 12 20
  let src := spotTile s k (srcSpot s w 0)
  let dst := dstSpot w 0
  let dev : Option Nat := match dst with
    | .far pa host _ => if !host && decide (paDevice (redirect s pa) ≠ s.cfg.device) then some (paDevice (redirect s pa)) else none
    | .own _ => none
    | .weights => none
  let dest := spotTile s k dst
  if isCirc w then
    (match ctxOf s k with
    | some c => (.circuit c.1 (nthNat w.params 0) (handleAt c.2 (nthNat w.params 0)).gen, s)
    | none => (.circuit 16 (nthNat w.params 0) 0, s))
  else if pathSelOf w ≠ .basic then (.net (pathSelOf w), s)
  else if thresh = 0 ∨ total < thresh * 4096 ∨ isSingle w then (.net .basic, s)
  else match ctxOf s k with
    | some c => (match joins c.2 src dest dev with
      | h :: _ => (.circuit c.1 h (handleAt c.2 h).gen, s)
      | [] => (.net .basic, s))
    | none => match src, dest with
      | some a, some b =>
        if a = b then (.net .basic, s)
        else match s.autos.find? fun x => decide (x.srcTile = a) && decide (x.dstTile = b) with
          | some x => if autoLive s x then (.auto x.src x.dst, s) else (.net .basic, s)
          | none => (.net .basic, requestAuto a b s)
      | _, _ => (.net .basic, s)

/-- R156, R177: the handle of a circuit route while it carries: LIVE in its generation, with no tear performed. -/
def routeHandle (s : State) (ctx h gen : Nat) : Option CHandle :=
  match look s.ctxs ctx with
  | some c => let x := handleAt c h; if x.state = .live ∧ x.gen = gen ∧ ¬ x.draining then some x else none
  | none => none
/-- R163, R177: the route a word has now; a circuit that it took by the basic rule and that no longer carries gives way
to the packet net. -/
def routeNow (s : State) (r : Run) : Route :=
  match r.route with
  | .net p => .net p
  | .circuit c h g => if (routeHandle s c h g).isSome || isCirc r.word then r.route else .net .basic
  | .auto a b => if s.autos.any fun x => decide (x.src = a) && decide (x.dst = b) then r.route else .net .basic
/-- A line on this route lands through ports of the package; off-package lines leave as frames. -/
def landsHere (s : State) (rt : Route) (sp : Spot) : Bool :=
  match sp with
  | .own _ => true
  | .weights => true
  | .far pa host _ => !host && decide (paDevice (redirect s pa) = s.cfg.device) && (match rt with | .net _ => false | .circuit _ _ _ => true | .auto _ _ => true)

/-! The start and the resumption of a word. -/

/-- R178: what refuses a `circ` when the chunk of line i starts. -/
def circTraps (s : State) (k : Nat) (t : Thread) (w : QWord) (i : Nat) : List Trap :=
  if ¬ isCirc w then []
  else
    let h := nthNat w.params 0
    match ctxOf s k with
    | none => [tCirc tCircuitNone 0 7 h 0 0]
    | some c =>
      let x := handleAt c.2 h
      if x.state ≠ .live ∨ tornFrom x t.vc then [tCirc tCircuitNone 0 (circCode x.state) h x.gen 0]
      else match dstSpot w (chunkStart w i) with
        | .far pa host cap =>
          let p := redirect s pa
          let ok := if host then false else if x.sink < 128 then decide (paDevice p = s.cfg.device) && decide (paTile p = x.sink / 8)
            else decide (paDevice p ≠ s.cfg.device) && decide (groupOf (paDevice p) = x.sink - 128)
          if ok then [] else [chunkFault eWrongSink w (.far pa host cap) i]
        | .own _ => []
        | .weights => []
/-- R175: the word's translations are captured afresh for the extent left, by checks 1 to 6 of R97. -/
def recapture (t : Thread) (w : QWord) (done : Nat) : Except GCap (List GCap) :=
  let ext := copyExtent w.instr w.params
  let ok := fun (c : GCap) => (handleChecks t 0 (Fin.ofNat 16 c.hnd) (c.off + BitVec.ofNat 64 done) (ext - done) (globalAlign w.instr) c.perm).isEmpty
  match w.caps.find? fun c => !ok c with
  | some c => .error c
  | none => .ok (w.caps.map fun c =>
    let h := t.handles.getD c.hnd {}
    let x := h.origin + c.off
    { c with va := x.toNat, pa := h.frame + x.toNat - h.base, host := h.host, asid := h.asid, base := h.base, size := h.size.bytes, cleared := false })
/-- R175, R366: the fault of a translation that was cleared or cannot be captured again, at the chunk of line i. -/
def revokedFault (w : QWord) (i : Nat) (c : GCap) : Trap := chunkFault eRevoked w (.far (c.pa + 64 * chunkStart w i) c.host (some c)) i
def setRun (k : Nat) (e : Eng) (r : Run) (s : State) : State := modEngine k e (fun x => { x with run := some r }) s
/-- R186: the segment a nest is at, checked as a word. -/
def segmentOf (t : Thread) (r : Run) : Except Trap QWord :=
  let w := segWord r.desc r.word r.seg
  match paramTraps 0 (paramForms w.instr) w.params ++ copyTraps 0 t w.instr w.params with
  | tr :: _ => .error tr
  | [] => .ok { w with caps := (gOperands w.instr w.params).map fun g => captureG t g.1 g.2 }
/-- No line of the word is under way in the net. -/
def noneFlying (r : Run) : Bool := r.lines.all fun l => match l.2 with | .reading id => decide (id = 0) | .have _ => true | .writing _ => false
/-- The word's lines run from the first chunk not performed. -/
def goLive (k : Nat) (e : Eng) (t : Thread) (r : Run) (w : QWord) (s : State) : State :=
  let rt := if r.seg = 0 ∧ r.prefixLen = 0 ∨ isCirc w then chooseRoute s k t w (copyExtent w.instr w.params * r.segs) else (r.route, s)
  setRun k e { r with route := rt.1, lines := [], next := chunkStart w r.prefixLen, total := lineCount w, chunks := [], live := true } (forgetLoss k e rt.2)
/-- R353: a word, or a segment of a nest, that a speculative block may not run yet: it writes outside its own windows, or reads another
device or host memory. -/
def specHeld (s : State) (t : Thread) (w : QWord) : Bool :=
  t.spec && (match w.instr with
    | .circ _ _ _ => true
    | .cflag _ _ _ => true
    | .cbar _ _ g => g
    | .cnest _ _ _ _ => false
    | _ =>
      (match dstSpot w 0 with | .far _ _ _ => true | .own _ => false | .weights => false)
        || (match srcSpot s w 0 with
          | .far pa host _ => host || decide (paDevice (redirect s pa) ≠ s.cfg.device)
          | .own _ => false
          | .weights => false))
/-- R353: a word in a queue that may not start yet; of a nest, as its descriptor stands. -/
def wordHeld (s : State) (k : Nat) (t : Thread) (w : QWord) : Bool :=
  if isNestWord w then
    let d := nestDesc s k w
    let x := segWord d w 0
    copyNestOk d && specHeld s t { x with caps := (gOperands x.instr x.params).map fun g => captureG t g.1 g.2 }
  else specHeld s t w
/-- R175, R178, R185, R186: the checks of a word that starts or resumes. A nest's descriptor is read first. -/
def startRun (k : Nat) (e : Eng) (s : State) : State :=
  match runThread s k e with
  | none => s
  | some (t, r) =>
    if isNestWord r.word ∧ r.desc = [] then setRun k e { r with waiting := true } s
    else
      let r := if isNestWord r.word then { r with segs := nestSegs r.desc } else r
      match (if isNestWord r.word ∧ r.eff = none then (segmentOf t r).map some else .ok r.eff) with
      | .error tr => deferFault k e tr (setRun k e r s)
      | .ok eff =>
        let r := { r with eff := eff }
        let w := effWord r
        if specHeld s t w then setRun k e r s
        else match circTraps s k t w r.prefixLen with
        | tr :: _ => deferFault k e tr (setRun k e r s)
        | [] =>
          if w.revoked then
            if ¬ r.sent then
              (match w.caps.find? GCap.cleared with
              | some c => deferFault k e (revokedFault w r.prefixLen c) (setRun k e { r with sent := true } s)
              | none => s)
            else match recapture t w (64 * chunkStart w r.prefixLen) with
              | .error c => deferFault k e (revokedFault w r.prefixLen c) (setRun k e r s)
              | .ok cs =>
                let w := { w with caps := cs, revoked := false }
                let r := { r with sent := false, eff := r.eff.map fun _ => w, word := if r.eff = none then w else { r.word with revoked := false } }
                goLive k e t r w s
          else goLive k e t r w s

/-- R112, R185, R253, R376: what stops a nest at its descriptor. -/
def descStop (s : State) (k : Nat) (e : Eng) (a : Nat) : Option Trap :=
  let pa := scratchPa s (coreOf k) a
  if (refuse s (engineMaster s k e) pa 128 rightR).isSome then some (engineFaultOf eDenied (BitVec.ofNat 64 a) 0)
  else match (lineStarts pa 128).find? fun x => memSet s.eccBad (x / 64) with
    | some x => some (eccPoison 3 x)
    | none => if copyNestOk (readPa s pa 128) then none else some (engineFaultOf eBadDesc (BitVec.ofNat 64 a) 0)

/-! Lines. -/

def lineOwner (k : Nat) (e : Eng) (i : Nat) : Owner := .engine k e i
/-- The chunk of line i that has begun. -/
def chunkOf (r : Run) (i : Nat) : ChunkStart := (look r.chunks (i / chunkLines (effWord r))).getD {}
/-- R111, R175: an access of a channel for line i; the tables of another device allow a chunk whole, by its free value. -/
def lineAccess (s : State) (k : Nat) (e : Eng) (i : Nat) (r : Run) (pa : Nat) (host : Bool) (cap : Option GCap) (p : PathSel) (op : AccOp) : Access :=
  let a := newAccess s k (lineOwner k e i) (engineMaster s k e) op pa host
  let w := effWord r
  let c := chunkOf r i
  let side := match op with | .read _ => c.asked | _ => c.asked + 1
  { a with denied := if host ∨ a.device = s.cfg.device then none else otherDenies side
           path := p, asid := (cap.map GCap.asid).getD 65536, va := BitVec.ofNat 64 ((cap.map fun c => c.va + (pa - c.pa)).getD 0)
           tag := match w.instr with | .cflag _ _ _ => 1 | _ => 0 }
/-- R176, R178: the path of the frames of a line; those of a circuit to an engine go direct. -/
def netPath (r : Route) : PathSel := match r with | .net p => p | .circuit _ _ _ => .direct | .auto _ _ => .basic
/-- R174: [src, src + n) and [dst, dst + n) of one memory overlap; what that does. -/
inductive Overlap where
  | none | down | up
  deriving DecidableEq, Repr
def spotPa (s : State) (k : Nat) (sp : Spot) : Option (Nat × Bool) :=
  match sp with
  | .own a => some (scratchPa s (coreOf k) a, false)
  | .far pa h _ => some (if h then pa else redirect s pa, h)
  | .weights => Option.none
def overlapOf (s : State) (k : Nat) (w : QWord) : Overlap :=
  match spotPa s k (srcSpot s w 0), spotPa s k (dstSpot w 0) with
  | some a, some b =>
    let n := copyExtent w.instr w.params
    if a.2 ≠ b.2 then .none else if a.1 < b.1 ∧ b.1 < a.1 + n then .up else if b.1 < a.1 ∧ a.1 < b.1 + n then .down else .none
  | _, _ => .none
/-- R174: the bytes of a line as they are written; those of an upward overlap are unspecified (log entry 20). -/
def lineBytes (s : State) (k : Nat) (w : QWord) (b : List Byte) : List Byte × State :=
  if overlapOf s k w = .up then ((List.range b.length).map fun i => Config.overlapByte (s.freeCount + i), { s with freeCount := s.freeCount + b.length })
  else (b, s)
/-- R174: a line of a downward overlap is written only when the lines before it have been read. -/
def writeReady (s : State) (k : Nat) (r : Run) (i : Nat) : Bool :=
  decide (overlapOf s k (effWord r) ≠ .down) || r.lines.all fun l => decide (i ≤ l.1) || (match l.2 with | .reading _ => false | .have _ => true | .writing _ => true)

/-- What the one access of a single word does. -/
def singleOp (w : QWord) : AccOp :=
  match w.instr with
  | .cflag _ _ _ => .write ((bytes64 (w.params.getD 1 0)).map some)
  | .cbar _ _ _ => .bar .cbar (w.params.getD 1 0) (nthNat w.params 2)
  | _ => .read 0
/-- Replaces or removes the entry of a line. -/
def setLine (i : Nat) (l : Line) (r : Run) : Run := { r with lines := put r.lines i l }
def dropLine (i : Nat) (r : Run) : Run := { r with lines := erase r.lines i }
/-- R179, R180: the delivered prefix grows over the lines that have performed; FE sets their full bits. -/
def deliver (k : Nat) (e : Eng) (s : State) : State :=
  match runThread s k e with
  | none => s
  | some (_, r) =>
    let w := effWord r
    let p := max r.prefixLen (match r.lines with | [] => r.next | l :: _ => l.1)
    let new := (List.range (p - r.prefixLen)).map fun i => r.prefixLen + i
    let s := new.foldl (fun s i =>
      if ¬ feOf w then s
      else match spotPa s k (dstSpot w i) with
        | some (pa, false) => (match regionOf pa with
          | .scratch _ _ => setFulls true pa (if isSingle w then 1 else 8) s
          | .hbm => s | .l2ctl => s | .weight _ _ _ => s | .tileReg _ => s | .hub _ => s | .unassigned => s)
        | some (_, true) => s
        | none => s) s
    modEngine k e (fun x => { x with wptr := (x.wptr + sumNat (new.map (lineWptr w))) % 2 ^ 64, run := x.run.map fun y => { y with prefixLen := p } }) s

/-- The lines of a word that are being read or written. -/
def underWay (r : Run) : Nat := (r.lines.filter fun l => match l.2 with | .have _ => false | .reading _ => true | .writing _ => true).length
/-- R376: the lines of the chunk of line i have all been read, so that none of them is written when one cannot be. -/
def chunkRead (r : Run) (i : Nat) : Bool :=
  let w := effWord r
  decide (min r.total (chunkStart w i + chunkLines w) ≤ r.next)
    && r.lines.all fun l => decide (chunkStart w l.1 ≠ chunkStart w i) || (match l.2 with | .reading _ => false | .have _ => true | .writing _ => true)
/-- R117: one request reads two lines of another scratchpad of the package that lie in an aligned 128 bytes of one chunk. -/
def pairRead (s : State) (k : Nat) (r : Run) (i pa : Nat) (host : Bool) : Bool :=
  let w := effWord r
  let p := redirect s pa
  !host && decide (paDevice p = s.cfg.device) && decide (p % 128 = 0) && decide (i + 1 < min r.total (chunkStart w i + chunkLines w))
    && decide (underWay r < 7) && decide (overlapOf s k w = .none)
    && (match regionOf p with
      | .scratch _ _ => true
      | .hbm => false | .l2ctl => false | .weight _ _ _ => false | .tileReg _ => false | .hub _ => false | .unassigned => false)
/-- Starts line i: its read goes out, or waits for a port. -/
def startLine (k : Nat) (e : Eng) (i : Nat) (r : Run) (s : State) : Option State :=
  let w := effWord r
  let mark := fun (l : Line) (s : State) => modRun k e (fun r => { setLine i l r with next := i + 1 }) s
  if isSingle w then
    match dstSpot w 0 with
    | .far pa host cap =>
      if respRoom s (lineOwner k e i) 1 then
        some (mark (.writing s.fresh) (sendAccess (lineAccess s k e i r pa host cap .basic (singleOp w)) s))
      else none
    | .own _ => some (mark (.have []) s)
    | .weights => none
  else match srcSpot s w i with
    | .own _ => some (mark (.reading 0) s)
    | .far pa host cap =>
      if landsHere s r.route (.far pa host cap) then some (mark (.reading 0) s)
      else if ¬ respRoom s (lineOwner k e i) 1 then none
      else if pairRead s k r i pa host then
        some (modRun k e (fun r => { setLine (i + 1) (.reading s.fresh) (setLine i (.reading s.fresh) r) with next := i + 2 })
          (sendAccess (lineAccess s k e i r pa host cap (netPath r.route) (.read 128)) s))
      else some (mark (.reading s.fresh) (sendAccess (lineAccess s k e i r pa host cap (netPath r.route) (.read 64)) s))
    | .weights => none
/-- Sends the write of a line that has been read and whose target is reached over the net or the fabric. -/
def flushLine (k : Nat) (e : Eng) (r : Run) (i : Nat) (b : List Byte) (s : State) : State :=
  let w := effWord r
  match dstSpot w i with
  | .far pa host cap =>
    if landsHere s r.route (.far pa host cap) || isSingle w || !chunkRead r i || !writeReady s k r i || !respRoom s (lineOwner k e i) 1 then s
    else
      let b := lineBytes s k w b
      modRun k e (setLine i (.writing b.2.fresh)) (sendAccess (lineAccess b.2 k e i r pa host cap (netPath r.route) (.write (b.1.map some))) b.2)
  | .own _ => s
  | .weights => s

/-! Chunks (R111, R112, R175). -/

/-- R111: the tables of this package refuse a channel n bytes of a place. -/
def spotRefused (s : State) (k : Nat) (e : Eng) (sp : Spot) (n : Nat) (r : Right) : Bool :=
  match spotPa s k sp with
  | some (pa, false) => decide (paDevice pa = s.cfg.device) && (refuse s (engineMaster s k e) pa n r).isSome
  | some (_, true) => false
  | none => false
/-- The bytes that a chunk writes and the right it needs. -/
def chunkWrites (w : QWord) (lines : Nat) : Nat × Right :=
  match w.instr with
  | .cflag _ _ _ => (8, rightW)
  | .cbar _ _ _ => (32, rightA)
  | .channelCstat _ _ => (16, rightW)
  | _ => (64 * lines, rightW)
/-- R111, R184, R195: the table in front of the own weight store does not let the channel write there. -/
def weightRefused (s : State) (k : Nat) (e : Eng) (pa : Nat) : Bool :=
  !tableAllows s (weightTable pa (coreOf k % 12)) (engineMaster s k e) (paOffset pa) rightW
/-- R112, R175: a table of this package refuses the chunk from line i: the fault, and how many writes are dropped by it. -/
def chunkRefusal (s : State) (k : Nat) (e : Eng) (w : QWord) (i : Nat) : Option (Trap × Nat) :=
  let n := min (lineCount w) (i + chunkLines w) - i
  let x := chunkWrites w n
  if !isSingle w && spotRefused s k e (srcSpot s w i) (64 * n) rightR then some (chunkFault eDenied w (srcSpot s w i) i, 0)
  else match dstSpot w i with
    | .weights =>
      let ps := weightPlaces s k w i n
      (match ps.find? (weightRefused s k e) with
      | some pa => some (engineFaultOf eDenied (weightAddr pa) (BitVec.ofNat 64 (i / chunkLines w)), (ps.map (· / 64)).eraseDups.length)
      | none => none)
    | sp => if spotRefused s k e sp x.1 x.2 then some (chunkFault eDenied w sp i, n) else none
/-- Why the chunk that line i begins may not start, with the dropped writes. -/
def chunkStop (s : State) (k : Nat) (e : Eng) (t : Thread) (r : Run) (i : Nat) : Option (Trap × Nat) :=
  match circTraps s k t r.word i with
  | tr :: _ => some (tr, 0)
  | [] => chunkRefusal s k e (effWord r) i
/-- The chunk that begins with the next line, with two free values of its own. -/
def beginChunk (k : Nat) (e : Eng) (r : Run) (s : State) : Run × State :=
  let w := effWord r
  let kept := r.chunks.filter fun c => r.lines.any fun l => decide (l.1 / chunkLines w = c.1)
  let r := { r with chunks := kept ++ [(r.next / chunkLines w, { since := s.cc, asked := s.freeCount })] }
  (r, setRun k e r { s with freeCount := s.freeCount + 2 })
/-- R112, R175, R178: lines start while there is room; a chunk that is refused starts none, and halts the word when the
chunks before it have performed. -/
def startLines (k : Nat) (e : Eng) : Nat → State → State
  | 0, s => s
  | n + 1, s =>
    match runThread s k e with
    | none => s
    | some (t, r) =>
      let first := decide (r.next = chunkStart (effWord r) r.next)
      if ¬ (r.next < r.total ∧ underWay r < 8) ∨ (first ∧ t.stopping) then s
      else match (if first then chunkStop s k e t r r.next else none) with
        | some x => if r.lines.isEmpty then deferFault k e x.1 (noteLoss k e s.cfg.device x.2 false s) else s
        | none =>
          let b := if first then beginChunk k e r s else (r, s)
          match startLine k e b.1.next b.1 b.2 with
          | some u => startLines k e n u
          | none => s
/-- R169: the lines of a word that runs are sent as there is room; a revoked translation stops it; a nest goes on to
its next segment. -/
def pumpChannel (k : Nat) (e : Eng) (s : State) : State :=
  match runThread s k e with
  | none => s
  | some (t, r0) =>
    if ¬ r0.live ∨ ¬ engineFree t e then s
    else if r0.waiting then s
    else if (effWord r0).revoked then startRun k e (modRun k e (fun r => { r with live := false }) s)
    else if r0.next = r0.total ∧ r0.lines = [] ∧ r0.seg + 1 < r0.segs ∧ ¬ t.stopping then
      startRun k e (modRun k e (fun r => { r with live := false, seg := r.seg + 1, eff := none, prefixLen := 0, next := 0, total := 0 }) s)
    else
      let r := { r0 with route := routeNow s r0 }
      let s := setRun k e r s
      let s := r.lines.foldl (fun s l => match l.2 with
        | .have b => (match runThread s k e with | some (_, r) => flushLine k e r l.1 b s | none => s)
        | .reading _ => s
        | .writing _ => s) s
      startLines k e 8 s

/-! Events of a channel. -/

/-- R169, R173, R176: the word at the head starts and pops its tokens, or a halted word resumes; then its lines run. -/
def evCopyWordStart (k : Nat) (c : Chan) (s : State) : State :=
  let e := c.eng
  match getThread s k with
  | none => s
  | some t =>
    let x := getEngine t e
    if ¬ engineFree t e then s
    else match x.run with
      | some r => if r.live then pumpChannel k e s else if noneFlying r ∧ ¬ r.waiting then pumpChannel k e (startRun k e s) else s
      | none => match x.queue with
        | [] => s
        | w :: _ => if tokensReady s.cc t e w && !t.stopping && !wordHeld s k t w then pumpChannel k e (startRun k e (takeHead k e (fun w => { word := w }) s)) else s

/-- A line of a channel fails: the word halts at it with a deferred fault. -/
def failLine (k : Nat) (e : Eng) (i : Nat) (tr : Trap) (s : State) : State :=
  deferFault k e tr (modRun k e (setLine i (.reading 0)) s)
/-- R112, R143, R174, R175, R187, R376: the answer of a line's access reaches its channel. -/
def lineAnswer (k : Nat) (e : Eng) (i : Nat) (a : Access) (ans : Answer) (s : State) : State :=
  match runThread s k e with
  | none => s
  | some (t, r) =>
    let w := effWord r
    let writing := match look r.lines i with | some (.writing _) => true | some (.reading _) => false | some (.have _) => false | none => false
    let sp := if writing then dstSpot w (chunkStart w i) else srcSpot s w (chunkStart w i)
    let fail := fun (tr : Trap) (s : State) => failLine k e i tr (if opBytes a.op = 128 then modRun k e (setLine (i + 1) (.reading 0)) s else s)
    let first := (getEngine t e).fault.isNone
    let chunk := min (lineCount w) (chunkStart w i + chunkLines w) - chunkStart w i
    let drop := fun (n : Nat) (s : State) => if writing && first then noteLoss k e a.device n a.host s else s
    let gone := fun (s : State) => if writing && first then modThread k (fun t => { t with dropDev := some (t.dropDev.getD a.device) }) s else s
    match ans with
    | .data b _ =>
      let s := modRun k e (setLine i (.have (b.take 64))) s
      pumpChannel k e (if b.length ≤ 64 then s else modRun k e (setLine (i + 1) (.have (b.drop 64))) s)
    | .ack => pumpChannel k e (deliver k e (modRun k e (dropLine i) s))
    | .denied _ => fail (chunkFault eDenied w sp i) (drop chunk s)
    | .unreachable => fail (chunkFault ePeer w sp i) (gone s)
    | .uncorrectable => fail (eccPoison 3 a.pa) s
    | .stale c => fail (staleTrap 0 c (spotAddr w sp) (w.params.getD 1 0) .cbar) s
    | .timedOut => s
    | .launchFault _ _ => s
    | .chained _ _ => s

/-! Lines that the own engine port or the ends of a circuit serve (R163, R167, R184, R187, R190). -/

def unpackInto (k : Nat) (w : QWord) (f j : Nat) (b : List Byte) (s : State) : State :=
  (unpackRecord w f j b fun i o => s.mem.read (weightPa s (coreOf k) i o)).foldl (fun s x => writePa (weightPa s (coreOf k) x.1 x.2.1) [x.2.2] s) s
def haveBytes (r : Run) (i : Nat) : Option (List Byte) := match look r.lines i with | some (.have b) => some b | _ => none
/-- R184: the lines of a unit, all read and next in order, are unpacked into the weight store. -/
def unpackUnit (k : Nat) (e : Eng) (r : Run) (f i : Nat) (s : State) : State :=
  let w := effWord r
  let u := unitLines w
  let first := i / u * u
  let parts := (List.range u).filterMap fun j => haveBytes r (first + j)
  if parts.length < u ∨ (r.lines.map Prod.fst).head? ≠ some first ∨ ¬ chunkRead r i then s
  else
    let b := parts.flatMap id
    let recs : List (Nat × List Byte) := if f = 0 then [(2 * (first / 3), b.take 96), (2 * (first / 3) + 1, b.drop 96)] else if f = 1 then [(first / 3, b)] else [(first, b)]
    let s := recs.foldl (fun s x => unpackInto k w f x.1 x.2 s) s
    pumpChannel k e (deliver k e (modRun k e (fun r => (List.range u).foldl (fun r j => dropLine (first + j) r) r) s))
/-- R188: the status record of a channel. -/
def statusRecord (x : Engine) : List Byte := leBytes 8 x.wptr ++ leBytes 8 (x.lastCode % 256 * 2 ^ 56 + x.words % 2 ^ 32)
/-- R187, R188: a single word that acts on the own scratchpad. -/
def singleLocal (k : Nat) (e : Eng) (x : Engine) (w : QWord) (a : Nat) (s : State) : State :=
  let pa := scratchPa s (coreOf k) a
  let done := fun (s : State) => deliver k e (modRun k e (dropLine 0) s)
  match w.instr with
  | .cbar _ _ _ =>
    if lineBad s pa 32 then failLine k e 0 (eccPoison 3 pa) s else
    let r := barPerform .cbar pa (w.params.getD 1 0) (nthNat w.params 2) s
    (match r.1 with
    | .stale c => failLine k e 0 (staleTrap 0 c (BitVec.ofNat 64 a) (w.params.getD 1 0) .cbar) r.2
    | .done => done r.2
    | .blocked => done r.2
    | .value _ => done r.2)
  | .channelCstat _ _ => done (setFulls true pa 2 (writePa pa (statusRecord x) s))
  | _ => s
/-- R106: where a line stands now. -/
def lineHome (s : State) (pa : Nat) : Nat := (movedPa s pa).getD pa
/-- R104: a line counts at its home, and of a moved page at both. -/
def countAt (pa m : Nat) (s : State) : State :=
  let one := fun (a : Nat) (s : State) => countLine a (m / 4096) (masterTile m) s
  match movedPa s pa with
  | some new => one new (one pa s)
  | none => one pa s
/-- R318: a speculative block's window keeps a channel's line out. -/
def lineHeld (s : State) (k : Nat) (pa : Nat) : Bool := closedTo s (some k) pa 64
/-- R167: vectors that their landing side holds, since no thread claims it, keep back a chunk of their circuit that began later. -/
def behindVectors (s : State) (rt : Route) (since : Nat) : Bool :=
  match rt with
  | .circuit c h g =>
    (match look s.ctxs c with | some x => (look s.claims (handleAt x h).sink).isNone | none => false)
      && s.ports.any fun p => p.2.buf.any fun f => decide (f.ctx = c) && decide (f.h = h) && decide (f.gen = g) && decide (f.since ≤ since)
  | .net _ => false
  | .auto _ _ => false
/-- R163: the automatic circuit of a route has been used. -/
def useAuto (rt : Route) (s : State) : State :=
  match rt with
  | .auto p q => { s with autos := s.autos.map fun x => if x.src = p ∧ x.dst = q then { x with used := s.cc } else x }
  | .net _ => s
  | .circuit _ _ _ => s
/-- R185: the descriptor of a nest has come to its channel. -/
def takeDesc (k : Nat) (e : Eng) (r : Run) (s : State) : State :=
  let a := nthNat r.word.params 0
  match descStop s k e a with
  | some tr => deferFault k e tr s
  | none => pumpChannel k e (startRun k e (setRun k e { r with desc := nestDesc s k r.word, waiting := false } (fixSoft (scratchPa s (coreOf k) a) 128 s)))
/-- A line is written by the own engine port, or lands from a circuit. -/
def landLine (k : Nat) (e : Eng) (r : Run) (i : Nat) (b : List Byte) (s : State) : State :=
  let w := effWord r
  match spotPa s k (dstSpot w i) with
  | some (pa, false) =>
    let b := lineBytes s k w b
    let m := engineMaster s k e
    let s := countAt pa m (useAuto r.route b.2)
    pumpChannel k e (deliver k e (modRun k e (dropLine i) ((grantWrite (lineHome s pa) m 0 (writeAny m (lineHome s pa) (b.1.map some) s)).2)))
  | some (_, true) => s
  | none => s
/-- A line is read by the own engine port, or by the port at the source of a circuit. -/
def portRead (k : Nat) (e : Eng) (r : Run) (i : Nat) (s : State) : State :=
  let w := effWord r
  match spotPa s k (srcSpot s w i) with
  | some (pa, false) =>
    let s := countAt pa (engineMaster s k e) s
    if lineBad s (lineHome s pa) 64 then failLine k e i (eccPoison 3 pa) s
    else pumpChannel k e (modRun k e (setLine i (.have (readPa s (lineHome s pa) 64))) (leaseRead (lineHome s pa) 0 (fixSoft (lineHome s pa) 64 s)).2)
  | some (_, true) => s
  | none => s
/-- What a line waits for at a port: nothing of its chunk lands when its translation has been cleared (R98, R175). -/
def lineReady (s : State) (k : Nat) (r : Run) (i : Nat) : Bool :=
  let w := effWord r
  let free : Spot → Bool := fun sp => match spotPa s k sp with | some (pa, false) => !lineHeld s k (lineHome s pa) | some (_, true) => false | none => true
  r.live && !w.revoked && (match look r.lines i with
    | some (.reading 0) => free (srcSpot s w i)
    | some (.reading _) => false
    | some (.have _) =>
      if isSingle w then (match dstSpot w 0 with | .own _ => true | .far _ _ _ => false | .weights => false)
      else match unpackFmt w with
        | some _ =>
          let first := i / unitLines w * unitLines w
          ((List.range (unitLines w)).all fun j => (haveBytes r (first + j)).isSome) && decide ((r.lines.map Prod.fst).head? = some first) && chunkRead r i
        | none => landsHere s r.route (dstSpot w i) && chunkRead r i && writeReady s k r i && free (dstSpot w i) && !behindVectors s r.route (chunkOf r i).since
    | some (.writing _) => false
    | none => false)
/-- The line at a port is read, written, unpacked or acted on. -/
def servePort (k : Nat) (e : Eng) (x : Engine) (r : Run) (i : Nat) (s : State) : State :=
  let w := effWord r
  match look r.lines i with
  | some (.reading 0) => portRead k e r i s
  | some (.have b) =>
    if isSingle w then (match dstSpot w 0 with | .own a => singleLocal k e x w a s | .far _ _ _ => s | .weights => s)
    else match unpackFmt w with
      | some f => unpackUnit k e r f i s
      | none => landLine k e r i b s
  | some (.reading _) => s
  | some (.writing _) => s
  | none => s

/-- R173: a word whose every line has performed finishes. -/
def copyDone (r : Run) : Bool := r.live && decide (r.next = r.total) && r.lines.isEmpty && decide (r.seg + 1 = r.segs ∨ r.segs = 0)

/-- R163: an automatic circuit unused for 20 µs is torn; its copies go on over the net. -/
def evAutoCircuitIdleTear (src : Nat) (s : State) : State :=
  { s with autos := s.autos.filter fun a => !(decide (a.src = src) && decide (a.used + usCc 20 ≤ s.cc)) }

end Sys2Proof.Machine
end

