-- ==== Sys2Proof/Machine/Sequencer.lean ====
section
/-! DEFINITION. The fabric sequencer: circuit programs, the states of circuit handles, tears and landings (R67, R68,
R150 to R161, R163, R165, R167). -/

namespace Sys2Proof.Machine

/-! Circuit programs as words (R67, R68). -/

/-- R67: a circuit word, or nothing when it is refused. -/
def circuitWord (w : W64) : Option CWord :=
  let n := w.toNat
  let op := bits n 59 5
  let h := bits n 52 7
  let v := bits n 0 52
  if op = 1 then (if v % 2 ^ 37 = 0 ∧ bits n 37 8 < 160 then some (.est h (bits n 45 7) (bits n 37 8)) else none)
  else if op = 2 then (if v = 0 then some (.hold h) else none)
  else if op = 3 then (if v = 0 then some (.tear h) else none)
  else if op = 4 then (if h = 0 ∧ v < 2 ^ 40 then some (.step v) else none)
  else if op = 5 then (if v ≤ 1 then some (.rpol h (decide (v = 1))) else none)
  else if op = 6 then (if h = 0 ∧ 1 ≤ bits n 32 20 ∧ 1 ≤ bits n 0 32 then some (.rpt (bits n 32 20) (bits n 0 32)) else none)
  else if op = 7 then (if h = 0 ∧ v < 2 ^ 16 then some (.jmpc v) else none)
  else if op = 8 then (if h = 0 ∧ v < 2 ^ 32 ∧ 1 ≤ bits n 16 16 then some (.loopc (bits n 16 16) (bits n 0 16)) else none)
  else if op = 9 then (if v ≤ 4 then some (.waitc h v) else none)
  else if op = 10 then (if h = 0 ∧ v = 0 then some .endc else none)
  else none
/-- R68: a word that `rpt` may repeat. -/
def repeatable : CWord → Bool
  | .est _ _ _ => true | .hold _ => true | .tear _ => true | .rpol _ _ => true | .waitc _ _ => true
  | .step _ => false | .rpt _ _ => false | .jmpc _ => false | .loopc _ _ => false | .endc => false
/-- R68, R150: a word that stands in a program of n words before the word `next`. -/
def circuitWordOk (n : Nat) (w : CWord) (next : Option CWord) : Bool :=
  match w with
  | .est _ src sink => if 128 ≤ sink then decide (src / 8 = (sink - 128) / 2) else decide (src / 8 ≠ sink / 8)
  | .jmpc t => decide (t < n)
  | .loopc _ t => decide (t < n)
  | .rpt _ _ => (match next with | some x => repeatable x | none => false)
  | .hold _ => true | .tear _ => true | .step _ => true | .rpol _ _ => true | .waitc _ _ => true | .endc => true
/-- R68: the program of a list of circuit words, or nothing when it is refused. -/
def circuitProgram (ws : List W64) : Option (List CWord) :=
  match ws.mapM circuitWord with
  | none => none
  | some p =>
    if p.getLast? = some .endc ∧ (List.range p.length).all (fun i => match p[i]? with | some w => circuitWordOk p.length w p[i + 1]? | none => true)
    then some p else none

/-! Handles. -/

def getCtx (s : State) (c : Nat) : Option Ctx := look s.ctxs c
def modCtx (c : Nat) (f : Ctx → Ctx) (s : State) : State :=
  { s with ctxs := s.ctxs.map fun x => if x.1 = c then (x.1, f x.2) else x }
def ctxVcs (s : State) (x : Ctx) : List Nat := (countedMembers s x.cohort).map fun m => m.2.vc
/-- R153, R156: the leading member has issued its bundle of vc v. -/
def leaderAt (s : State) (x : Ctx) (v : Nat) : Bool := (ctxVcs s x).any fun y => decide (v < y)
/-- R154: every member has issued its bundle of vc v. -/
def trailerAt (s : State) (x : Ctx) (v : Nat) : Bool := (ctxVcs s x).all fun y => decide (v < y)

/-- R161, R165, R312: the vectors of a circuit that have not landed are discarded; their threads learn of it. -/
def discardVectors (c h : Nat) (x : CHandle) (s : State) : State :=
  let mine : Flying → Bool := fun f => decide (f.ctx = c) && decide (f.h = h) && decide (f.gen = x.gen)
  let lost := fun (k : Nat) (t : Thread) => sumNat (s.ports.map fun p => (p.2.buf.filter fun f => mine f && decide (f.slot = k) && decide (f.who = t.dispatched)).length)
  let hit := s.threads.filter fun t => decide (0 < lost t.1 t.2)
  let s1 := { s with ports := s.ports.map fun p => (p.1, { p.2 with buf := p.2.buf.filter fun f => !mine f }) }
  hit.foldl (fun u t => addBoundary t.1 (tCirc tCircuitDown 0xA x.cause h x.gen (circWord x)) (countDrop t.1 s.cfg.device (6 * lost t.1 t.2) false u)) s1
/-- R161, R177: the writes of a copy by the basic rule that have not been acknowledged are discarded, and made again by the
packet net. -/
def resendLines (k : Nat) (e : Eng) (s : State) : State :=
  voidAccesses k e (modRun k e (fun r => { r with lines := r.lines.map fun l => (l.1, match l.2 with
    | .writing id => (match look s.accesses id with
      | some a => (match a.op with | .write d => .have (d.map fun b => b.getD 0) | _ => l.2)
      | none => l.2)
    | .reading _ => l.2
    | .have _ => l.2) }) s)
/-- R161, R177, R178, R312: the lines of a `circ` that have not landed are discarded and never perform; its channel halts. -/
def discardCirc (k : Nat) (e : Eng) (t : Thread) (c h : Nat) (x : CHandle) (s : State) : State :=
  match (getEngine t e).run with
  | some r =>
    if r.route ≠ .circuit c h x.gen then s
    else if ¬ isCirc r.word then resendLines k e s
    else if r.live ∨ r.lines ≠ [] then
      let read := (r.lines.filter fun l => match l.2 with | .have _ => true | .reading _ => false | .writing _ => false).length
      let sent := s.accesses.filter fun a => match a.2.owner with
        | .engine j f _ => decide (j = k) && decide (f = e) && !a.2.performed
        | .thread _ => false | .chain _ _ => false | .host => false | .peer _ _ => false | .gone => false
      let dev := match sent with | a :: _ => a.2.device | [] => s.cfg.device
      let s := modRun k e (fun r => { r with lines := [], next := r.prefixLen }) (noteLoss k e dev (read + sent.length) false (voidAccesses k e s))
      if r.live then deferFault k e (tCirc tCircuitDown 0 x.cause h x.gen (circWord x)) s else s
    else s
  | none => s
/-- R161, R165, R178: what is under way in a generation of a handle is discarded. -/
def discardOn (c h : Nat) (x : CHandle) (s : State) : State :=
  let s := discardVectors c h x s
  s.threads.foldl (fun s t => [Eng.c0, Eng.c1].foldl (fun s e => discardCirc t.1 e t.2 c h x s) s) s
/-- R152, R155, R159: a handle enters DOWN. -/
def downHandle (c h cause : Nat) (repair : Bool) (s : State) : State :=
  match getCtx s c with
  | none => s
  | some x =>
    let y := { handleAt x h with state := .down, cause := cause, repairable := repair, since := s.cc }
    discardOn c h y (modHandle c h (fun _ => y) s)
/-- R158: a circuit of this program that is being torn still has the source or the sink. -/
def estHeld (s : State) (c h src sink : Nat) : Bool :=
  match getCtx s c with
  | some x => x.handles.any fun y => y.2.placed && decide (y.1 ≠ h) && (decide (y.2.src = src) || decide (y.2.sink = sink)) && y.2.tearFrom.isSome
  | none => false
/-- R152, R154, R163: an `est` performs; an automatic circuit on its ports is torn. -/
def estPerform (c h src sink : Nat) (s : State) : State :=
  let s := modHandle c h (fun y => { y with
    state := .settling, gen := (y.gen + 1) % 256, src := src, sink := sink, retained := false, sent := 0, landed := 0
    since := s.cc, tearFrom := none, draining := false, placed := true, repairable := true }) s
  { s with autos := s.autos.filter fun a => !(decide (a.src = src) || decide (a.dst = sink)) }
/-- R154, R155, R160: the program ends; the handles not retained are torn from the current step. -/
def endProgram (c : Nat) (s : State) : State := dropEnded (modCtx c (fun x => { tearHandles false x with pendingEst := [] }) s)
/-- R155: an `est` met a conflict. -/
def stopProgram (c h : Nat) (s : State) : State := endProgram c (downHandle c h 7 false s)

/-- The program goes on at a word, in its present group or as a group of the next cc. -/
inductive After where
  | next | pause
  deriving DecidableEq, Repr

/-- R154, R158: an `est` as the sequencer reaches it; whether the program goes on. One that waits for its ports lets the
program go on meanwhile (DESIGN CHOICE, log entry 97), and another `est` of a handle that waits so is a conflict. -/
def doEst (c h src sink : Nat) (s : State) : Bool × State :=
  match getCtx s c with
  | none => (false, s)
  | some x =>
    if estStops s c x h src sink then (false, stopProgram c h s)
    else if estHeld s c h src sink then
      (true, modCtx c (fun x => { x with pendingEst := x.pendingEst ++ [h] })
        (modHandle c h (fun y => { y with src := src, sink := sink }) s))
    else (true, estPerform c h src sink s)
/-- R154: the waitc conditions. -/
def condHolds (s : State) (x : Ctx) (h cond : Nat) : Bool :=
  if cond < 4 then stateHolds (handleAt x h).state cond else trailerAt s x x.cur
/-- R154: performs the word at the index of the program; says whether the group goes on. -/
def doWord (c : Nat) (w : CWord) (s : State) : After × State :=
  let on := modCtx c fun x => { x with idx := x.idx + 1 }
  let jumpTo := fun (t : Nat) => modCtx c fun x => { x with base := x.cur, idx := t, mode := .group, notBefore := s.cc + 1 }
  match w with
  | .est h src sink => let r := doEst c h src sink s; if r.1 then (.next, on r.2) else (.pause, r.2)
  | .hold h => (.next, on (modHandle c h (fun y => if y.state = .idle then y else { y with retained := true }) s))
  | .tear h =>
    let cur := match getCtx s c with | some x => x.cur | none => 0
    (.next, on (modHandle c h (fun y => if y.state = .idle then y else { y with tearFrom := some (min cur (y.tearFrom.getD cur)), retained := false }) s))
  | .rpol h p => (.next, on (modHandle c h (fun y => { y with expert := p }) s))
  | .step _ => (.pause, modCtx c (fun x => { x with mode := .atStep }) s)
  | .rpt n i => (.pause, modCtx c (fun x => { x with idx := x.idx + 1, mode := .repeating 0 n i }) s)
  | .jmpc t => (.pause, jumpTo t s)
  | .loopc n t =>
    (match getCtx s c with
    | none => (.pause, s)
    | some x =>
      let left := (look x.counters x.idx).getD n - 1
      if left = 0 then (.next, on (modCtx c (fun x => { x with counters := erase x.counters x.idx }) s))
      else (.pause, jumpTo t (modCtx c (fun x => { x with counters := put x.counters x.idx left }) s)))
  | .waitc h cond =>
    (match getCtx s c with
    | none => (.pause, s)
    | some x => if condHolds s x h cond then (.next, on s) else (.pause, modCtx c (fun x => { x with mode := .waiting }) s))
  | .endc => (.pause, endProgram c s)
/-- R153: the sequencer performs a group in order. -/
def runGroup (c : Nat) : Nat → State → State
  | 0, s => s
  | n + 1, s =>
    match getCtx s c with
    | none => s
    | some x =>
      match x.prog[x.idx]? with
      | none => s
      | some w => match doWord c w s with
        | (.next, s) => runGroup c n s
        | (.pause, s) => s
def groupNow (c : Nat) (x : Ctx) (s : State) : State := runGroup c (x.prog.length + 1) s

/-! Events of the sequencer. -/

/-- R153, R154: a group performs, after its step if it has one. -/
def evStep (c : Nat) (s : State) : State :=
  match getCtx s c with
  | none => s
  | some x =>
    match x.mode with
    | .group => if s.cc < x.notBefore then s else groupNow c x s
    | .atStep =>
      (match x.prog[x.idx]? with
      | some (.step t) =>
        if leaderAt s x (x.base + t) then groupNow c x (modCtx c (fun x => { x with cur := x.base + t, idx := x.idx + 1, mode := .group }) s) else s
      | _ => s)
    | .repeating _ _ _ => s
    | .waiting => s
    | .ended => s
/-- R154: the next repetition of the word after `rpt`. -/
def evRptRepetition (c : Nat) (s : State) : State :=
  match getCtx s c with
  | none => s
  | some x =>
    match x.mode with
    | .repeating k n i =>
      let v := if k = 0 then x.cur else x.cur + i
      if k ≠ 0 ∧ ¬ leaderAt s x v then s
      else match x.prog[x.idx]? with
        | none => s
        | some w =>
          let at_ := modCtx c (fun x => { x with cur := v }) s
          (match w with
          | .waitc h cond => if ¬ condHolds s { x with cur := v } h cond then s
            else modCtx c (fun y => { y with cur := v, idx := if k + 1 = n then x.idx + 1 else x.idx, mode := if k + 1 = n then .group else .repeating (k + 1) n i }) s
          | _ =>
            let r := doWord c w at_
            match r.1 with
            | .pause => r.2
            | .next => modCtx c (fun y => { y with idx := if k + 1 = n then x.idx + 1 else x.idx, mode := if k + 1 = n then .group else .repeating (k + 1) n i }) r.2)
    | .group => s
    | .atStep => s
    | .waiting => s
    | .ended => s
/-- R154: the condition of a `waitc` holds and the group goes on. -/
def evWaitc (c : Nat) (s : State) : State :=
  match getCtx s c with
  | none => s
  | some x =>
    match x.mode, x.prog[x.idx]? with
    | .waiting, some (.waitc h cond) =>
      if condHolds s x h cond then groupNow c x (modCtx c (fun x => { x with idx := x.idx + 1, mode := .group }) s) else s
    | _, _ => s

/-- R152, R159: 240 cc after a path is set its handle is LIVE; after a repair a CIRC_FIXED record is made. -/
def evCircuitSettled (c h : Nat) (s : State) : State :=
  match getCtx s c with
  | none => s
  | some x =>
    let y := handleAt x h
    if s.cc < y.since + 240 then s
    else if y.state = .settling then modHandle c h (fun y => { y with state := .live }) s
    else if y.state = .repairing ∧ ¬ y.repairable then
      circRecord clCircFixed 0 c x.cohort h y.gen (modHandle c h (fun y => { y with state := .live, repairable := true }) s)
    else s
/-- R152, R159, R163: the path of a circuit fails; `c` above 15 names the automatic circuit from port h. -/
def evCircuitFailure (c h cause : Nat) (s : State) : State :=
  if 16 ≤ c then { s with autos := s.autos.filter fun a => decide (a.src ≠ h) }
  else match getCtx s c with
  | none => s
  | some x =>
    let y := handleAt x h
    let fits := decide (1 ≤ cause ∧ cause ≤ 2) || (decide (cause = 3) && decide (y.sink < 128)) || (decide (cause = 4) && decide (128 ≤ y.sink) && s.combsFailed.contains (y.sink - 128))
    if fits ∧ (y.state = .settling ∨ y.state = .live) then downHandle c h cause (!y.expert) (circRecord clCircFail (recordCause cause) c x.cohort h y.gen s) else s
/-- R154, R159: the sequencer starts a repair of a handle whose policy was basic when it failed. -/
def evCircuitRepairStart (c h : Nat) (s : State) : State :=
  match getCtx s c with
  | none => s
  | some x =>
    let y := handleAt x h
    if y.state = .down ∧ y.repairable then
      modHandle c h (fun y => { y with state := .repairing, gen := (y.gen + 1) % 256, sent := 0, landed := 0, since := s.cc }) s
    else s
/-- R159: the route search ends; after a failure of the source ring a free transmit side of the tile replaces the port. -/
def evCircuitRepairSearchEnd (c h : Nat) (found : Bool) (src : Nat) (s : State) : State :=
  match getCtx s c with
  | none => s
  | some x =>
    let y := handleAt x h
    if y.state ≠ .repairing ∨ ¬ y.repairable then s
    else
      let port := if y.cause = 2 then src else y.src
      let free := decide (y.cause ≠ 2) || (decide (src / 8 = y.src / 8) && decide (src ≠ y.src) && !portUsed s src)
      let lit := decide (y.cause ≠ 4) || !s.combsFailed.contains (y.sink - 128)
      if found ∧ free ∧ lit ∧ s.cc ≤ y.since + usCc 2 then
        modHandle c h (fun y => { y with src := port, since := s.cc, repairable := false }) s
      else modHandle c h (fun y => { y with state := .down, cause := 6, repairable := false, since := s.cc }) s

/-- R158: each `est` of the program that waited for ports that are free now performs. -/
def pendingNow (c : Nat) (s : State) : State :=
  match getCtx s c with
  | none => s
  | some x => x.pendingEst.foldl (fun s p =>
      match getCtx s c with
      | none => s
      | some x =>
        let y := handleAt x p
        if ¬ x.pendingEst.contains p ∨ estHeld s c p y.src y.sink then s
        else if estConflict s c p y.src y.sink then stopProgram c p s
        else estPerform c p y.src y.sink (modCtx c (fun x => { x with pendingEst := x.pendingEst.filter fun q => decide (q ≠ p) }) s)) s
/-- R156: the handle is IDLE. -/
def tornNow (c h : Nat) (s : State) : State :=
  dropEnded (pendingNow c (modHandle c h (fun y => { y with state := .idle, tearFrom := none, draining := false, retained := false, placed := false }) s))
/-- R156: the tear performs in the cc after every member has issued its bundle of vc T − 1; one of a DOWN handle
completes in the same cc (R159). -/
def evTearPerform (c h : Nat) (s : State) : State :=
  match getCtx s c with
  | none => s
  | some x =>
    let y := handleAt x h
    match y.tearFrom with
    | none => s
    | some t =>
      let past : Bool := x.ceased || (match earlierL s x.cohort with | some l => decide (t ≤ l) | none => true)
      if y.draining ∨ ¬ past ∨ y.state = .idle then s
      else if y.state = .down then tornNow c h s
      else modHandle c h (fun y => { y with draining := true }) s
/-- R156: something accepted by the handle's circuit has not landed. -/
def onItsWay (s : State) (c h gen : Nat) : Bool :=
  s.ports.any (fun p => p.2.buf.any fun f => decide (f.ctx = c) && decide (f.h = h))
    || s.threads.any fun t => [t.2.c0, t.2.c1].any fun e => match e.run with
      | some r => (r.live && !r.lines.isEmpty || !noneFlying r) && decide (r.route = .circuit c h gen)
      | none => false
def evTearComplete (c h : Nat) (s : State) : State :=
  match getCtx s c with
  | none => s
  | some x => let y := handleAt x h; if y.draining ∧ ¬ onItsWay s c h y.gen then tornNow c h s else s

/-- R167: a vector lands in a slot of the ring: its words, their full bits, word 0's last. -/
def landVector (k base : Nat) (v : Vec) (s : State) : State :=
  let pa := scratchPa s (coreOf k) base
  setFull pa true (setFulls true (pa + 8) 47 (writePa pa (vecBytes v) s))
end Sys2Proof.Machine
end

