-- ==== Sys2Proof/Machine/Port.lean ====
section
/-! DEFINITION. Where a packet stands on its way (R114 to R116, R126), and the engine ports of the scratchpad banks: who asks
for a bank, the rotating grants, and what happens at a target by way of them (R167, R190, R191, R253, R285). An access of several lines performs in the cc in which the last of its
lines is granted (log entry 101). -/

namespace Sys2Proof.Machine

/-! Where a packet stands (R114 to R116, R126). -/

/-- R114, R116: the router and input port after (x, y) on the way to a router: along X first, then along Y. -/
def nextHop (x y : Nat) (d : Nat × Nat) : Option (Nat × Nat × Nat) :=
  if x < d.1 then some (x + 1, y, 4) else if d.1 < x then some (x - 1, y, 2)
  else if y < d.2 then some (x, y + 1, 1) else if d.2 < y then some (x, y - 1, 3) else none
/-- R116: no packet stands before this one in its input buffer. -/
def atHead (s : State) (id : Nat) (a : Access) : Bool :=
  !s.accesses.any fun b => decide (slotAt b.2 = slotAt a) && (decide (b.2.order < a.order) || (decide (b.2.order = a.order) && decide (b.1 < id)))
/-- R115: where a request that has come to its router goes: into the hub, into the engine, or nowhere further. -/
def exitLink (s : State) (a : Access) (x y : Nat) : Option (Nat × Nat × Nat) := if exitPort s a = 0 then none else some (x, y, exitPort s a)
/-- R126: a response goes first to the router that merged its request last, then to its master. -/
def mergedAt (a : Access) : Option (Nat × Nat) :=
  match a.answer, a.merged.getLast? with
  | some _, some m => some m.2.2
  | _, _ => none
def responseGoal (a : Access) : Nat × Nat := (mergedAt a).getD a.src
/-- R114 to R116: the link that a packet leaves its queue over, as the input at the other end; none where it has come to its
end, or enters a router from that router's own part. -/
def outLink (s : State) (a : Access) : Option (Nat × Nat × Nat) :=
  match a.place with
  | .request x y p false => if 6 ≤ p then none else (match nextHop x y a.dst with | some h => some h | none => exitLink s a x y)
  | .response x y p false =>
    if 6 ≤ p then none
    else (match nextHop x y (responseGoal a) with
      | some h => some h
      | none => if (mergedAt a).isSome ∨ entryPort a.owner = 0 then none else some (x, y, entryPort a.owner))
  | .out x y p _ => if p = 0 then none else some (x, y, p - 2)
  | .request _ _ _ true => none | .response _ _ _ true => none
  | .waiting => none | .target => none | .back => none | .fabric => none | .absorbed => none
/-- The packet stands as a response where it is bound for: at a router that merged its request, or at its master's part. -/
def returned (s : State) (id : Nat) (a : Access) : Bool :=
  match a.place with
  | .response x y p false => atHead s id a && decide ((x, y) = responseGoal a) && (outLink s a).isNone && decide ((mergedAt a).isSome ∨ entryPort a.owner = 0 ∨ p = entryPort a.owner)
  | .response _ _ _ true => false | .request _ _ _ _ => false | .out _ _ _ _ => false | .waiting => false | .target => false | .back => false
  | .fabric => false | .absorbed => false

/-! What a packet answers (R284). -/

def csDone := 1
def csTrans := 2
def csPerm := 3
def csAlign := 4
def csTarget := 5
def csHops := 6
def csDenied := 7
def csUncorr := 8
def csPeer := 9
def chainStatus (code : Nat) (p : ChainPacket) : W64 := word64 [(code, 60), (p.step, 57), (bits p.cur.toNat 0 57, 0)]
def packetOf (a : Access) : Option ChainPacket :=
  match a.op with
  | .chain p => some p
  | .read _ => none | .write _ => none | .amo _ _ _ => none | .cas _ _ _ => none | .cas2 _ _ => none | .fe _ _ => none | .bar _ _ _ => none
  | .shapepub _ _ => none
/-- R284: the status word and data of a chain's answer. -/
def chainAnswer (p : ChainPacket) : Answer → Option (W64 × List Byte)
  | .chained w b => some (w, b)
  | .unreachable => some (chainStatus csPeer p, [])
  | .denied _ => some (chainStatus csDenied p, [])
  | .uncorrectable => some (chainStatus csUncorr p, [])
  | .data _ _ => none | .ack => none | .stale _ => none | .timedOut => none | .launchFault _ _ => none

/-! Requesters. -/

/-- R190: a requester of the banks of a core and the lines of its scratchpad that it asks for, by their offset: 0 to 11
the engines, 12 to 19 the landing sides of the tile, 20 the packet-net interface. -/
structure Want where
  who : Nat
  lines : List Nat
  deriving DecidableEq, Repr

def engineRequester (slot : Nat) (e : Eng) : Nat := 3 * (slot % 4) + engineNo e
def landingRequester (port : Nat) : Nat := 12 + port % 8
def netRequester : Nat := 20
def lineBank (l : Nat) : Nat := bits l 6 4
/-- The core and the offsets of the lines of n bytes of a scratchpad of this package. -/
def scratchLines (s : State) (pa n : Nat) : Option (Nat × List Nat) :=
  if paDevice pa ≠ s.cfg.device then none
  else match regionOf pa with
    | .scratch c o => some (12 * paTile pa + c, lineStarts o n)
    | .hbm => none | .l2ctl => none | .weight _ _ _ => none | .tileReg _ => none | .hub _ => none | .unassigned => none
/-- The landing side through which a route reaches this package. -/
def routeSink (s : State) (rt : Route) : Option Nat :=
  match rt with
  | .net _ => none
  | .auto _ q => some q
  | .circuit c h _ => (look s.ctxs c).map fun x => (handleAt x h).sink
/-- The engine port that line i of a channel acts through: core, requester and line. A circuit's line lands by its landing
side; a source that is not the own scratchpad is read by its core's packet-net interface (DEDUCED, log entry 115). -/
def linePort (s : State) (k : Nat) (e : Eng) (r : Run) (i : Nat) : Option (Nat × Nat × Nat) :=
  let w := effWord r
  let own := fun (a : Nat) => some (coreOf k, engineRequester k e, a)
  let at_ := fun (sp : Spot) (land : Bool) => match sp with
    | .weights => none
    | .own a => (match (if land then routeSink s r.route else none) with
      | some q => some (coreOf k, landingRequester q, a)
      | none => own a)
    | .far pa _ _ => (match (if land then routeSink s r.route else none), scratchLines s (redirect s pa) 64 with
      | some q, some (c, l :: _) => some (c, landingRequester q, l)
      | none, some (c, l :: _) => if land then none else some (c, netRequester, l)
      | _, _ => none)
  match look r.lines i with
  | some (.reading 0) => at_ (srcSpot s w i) false
  | some (.have _) => if isSingle w then at_ (dstSpot w i) false else at_ (dstSpot w i) true
  | some (.reading _) => none
  | some (.writing _) => none
  | none => none
/-- The lines of the channels, and the descriptors of their nests, that wait for the ports of a core. -/
def channelWants (s : State) (core : Nat) : List Want :=
  s.threads.flatMap fun x => [Eng.c0, Eng.c1].flatMap fun e =>
    if ¬ engineFree x.2 e then []
    else match (getEngine x.2 e).run with
      | some r => (if r.waiting ∧ coreOf x.1 = core then [⟨engineRequester x.1 e, lineStarts (nthNat r.word.params 0) 128⟩] else []) ++ r.lines.filterMap fun l =>
          (match linePort s x.1 e r l.1 with
          | some (c, who, a) => if c = core ∧ lineReady s x.1 r l.1 then some ⟨who, [a]⟩ else none
          | none => none)
      | none => []
/-- R164 to R167: the vector that may land from a transmit side: the claiming slot and the address of its ring slot. A
landing side that no thread claims, or whose slot is full, holds it. -/
def landingOf (s : State) (p : Nat) : Option (Flying × Nat × Nat) :=
  match (portOf s p).buf with
  | [] => none
  | f :: _ =>
    match getCtx s f.ctx with
    | none => none
    | some x =>
      let y := handleAt x f.h
      match look s.claims y.sink with
      | none => none
      | some k => (match getThread s k with
        | none => none
        | some t =>
          let w := t.sys.landwin.toNat
          let base := bits w 0 20 + 384 * (t.sys.landed % (bits w 32 8 + 1))
          let pa := scratchPa s (coreOf k) base
          if y.state ≠ .live ∨ y.gen ≠ f.gen ∨ isFull s pa ∨ (refuse { s with tables := f.tables } (threadMaster s f.slot) pa 384 rightW).isSome then none
          else some (f, k, base))
def landingPort (s : State) (f : Flying) : Nat := match getCtx s f.ctx with | some x => (handleAt x f.h).sink | none => 0
def vectorWants (s : State) (core : Nat) : List Want :=
  s.ports.filterMap fun p => match landingOf s p.1 with
    | some (f, k, base) => if coreOf k = core then some ⟨landingRequester (landingPort s f), lineStarts base 384⟩ else none
    | none => none
/-- R277: the lines of a scratchpad that an access at its target needs. -/
def accessPort (s : State) (a : Access) : Option (Nat × List Nat) :=
  if a.host || a.denied.isSome || a.void then none else scratchLines s a.pa (opBytes a.op)
def accessWants (s : State) (core : Nat) : List Want :=
  s.accesses.filterMap fun a => match accessPort s a.2 with
    | some (c, ls) => if c = core ∧ atTarget s a.1 a.2 ∧ ¬ isWaiting s a.1 a.2.pa then some ⟨netRequester, ls⟩ else none
    | none => none
/-- R285: the lines that the answer of a chain writes in the issuer's scratchpad, when its entry still waits for it. -/
def chainLanding (s : State) (a : Access) : Option (Nat × List Nat) :=
  match a.owner, packetOf a, a.answer with
  | .chain k i, some p, some r =>
    (match chainAnswer p r, getThread s k with
    | some x, some t => (match look t.chains i with
      | some c =>
        if c.state ≠ .pending ∨ c.gen ≠ a.part ∨ a.part ≠ t.windowGen then none
        else some (coreOf k, (if x.1.toNat / 2 ^ 60 = csDone then lineStarts c.dest c.flen else []) ++ lineStarts c.stat 8)
      | none => none)
    | _, _ => none)
  | _, _, _ => none
def chainWants (s : State) (core : Nat) : List Want :=
  s.accesses.filterMap fun a => match (if returned s a.1 a.2 then chainLanding s a.2 else none) with
    | some (c, ls) => if c = core then some ⟨netRequester, ls⟩ else none
    | none => none

/-! M's part (R253, R267, R268). -/

def mnCount (d : List Byte) (l : Nat) : Nat := fieldAt d (32 + 16 * l) 2
def mnLevels (d : List Byte) : Nat := fieldAt d 2 1
/-- A base plus the strides of n bytes at o, at an index tuple. -/
def nestSum (d : List Byte) (base o n : Nat) (ix : List Nat) : Int :=
  (List.range (mnLevels d)).foldl (fun a l => a + (ix.getD l 0 : Int) * signedOf (8 * n) (fieldAt d (o + 16 * l) n)) (base : Int)
/-- R268: the pop of an iteration is there, or was taken before. -/
def nestToken (cc : Nat) (t : Thread) (r : Run) : Bool := !flag (fieldAt r.desc 16 1) 0 || t.mx.popped || decide (0 < upReady cc t .m)
/-- R253: the extents of the own scratchpad that M's word in progress, or its nest's next iteration, reads or writes. -/
def mExtents (t : Thread) (r : Run) : List (Nat × Nat) :=
  let p := nthNat r.word.params
  match r.word.instr with
  | .lda _ u => [(p 0, 96 * u.rowBytes)]
  | .drain _ _ f => [(p 0, p 2 * f.pitch)]
  | .drainq _ _ _ => [(p 0, 6144 * ((p 3 + 95) / 96))]
  | .mstat _ _ => [(p 0, 16)]
  | .msync _ _ => [(p 0, 8)]
  | .nest _ =>
    if ¬ r.live then [(if t.mx.act then t.mx.desc else p 0, 128)]
    else
      let a := nestSum r.desc (fieldAt r.desc 8 4) 36 4 t.mx.index
      if t.mx.prevA = some a ∨ a < 0 ∨ (2 ^ 20 : Int) ≤ a then [] else [(a.toNat, 96 * (MType.ofCode (fieldAt r.desc 0 1)).rowBytes)]
  | _ => []
def mLines (t : Thread) (r : Run) : List Nat := ((mExtents t r).flatMap fun x => lineStarts x.1 x.2).filter fun l => decide (l < 2 ^ 20)
/-- M's word in progress has something to do at its ports. -/
def mActive (cc : Nat) (t : Thread) (r : Run) : Bool :=
  engineFree t .m && !r.sent && !r.waiting && (match r.word.instr with | .nest _ => !r.live || (!t.stopping && nestToken cc t r) | _ => true)
def matrixWants (s : State) (core : Nat) : List Want :=
  s.threads.filterMap fun x => if coreOf x.1 ≠ core then none else match x.2.me.run with
    | some r => if mActive s.cc x.2 r then some ⟨engineRequester x.1 .m, mLines x.2 r⟩ else none
    | none => none
/-- R201: the waiter of a word that acts now. -/
def waiterNow (s : State) (word : Nat) : Option (Nat × Waiter) :=
  if (match look s.woken word with | some c => decide (s.cc ≤ c) | none => false) then none
  else (firstWaiter s word).bind fun i => match ((look s.waiters word).getD [])[i]? with
    | some w => if passed s w.deadline then none else some (i, w)
    | none => none
/-- R190, R191: a waiter that reaches its word by an engine port: the requester. A thread of the core has the core port. -/
def waiterPort (w : Waiter) : Option Nat :=
  match w with
  | .thread _ _ _ _ => none
  | .remote _ _ => some netRequester
  | .msync k _ _ => some (engineRequester k .m)
def waiterWants (s : State) (core : Nat) : List Want :=
  s.waiters.filterMap fun x => match waiterNow s x.1, scratchLines s (8 * x.1) 8 with
    | some (_, w), some (c, ls) => if c = core then (waiterPort w).map fun who => ⟨who, ls⟩ else none
    | _, _ => none
/-- Every requester of a core's banks that could go on now. -/
def wants (s : State) (core : Nat) : List Want :=
  channelWants s core ++ vectorWants s core ++ accessWants s core ++ chainWants s core ++ matrixWants s core ++ waiterWants s core

/-! Grants. -/

/-- R190: the bank of a line is free in this cc, and of its requesters the next in turn is this one. At reset requester 0 counts
as granted last, so 1 is first (DESIGN CHOICE, log entry 10). -/
def bankGrant (s : State) (ws : List Want) (core who line : Nat) : Bool :=
  let c := getCore s core
  let last := (look c.bankLast (lineBank line)).getD 0
  let asks := fun (w : Want) => w.lines.any fun l => decide (lineBank l = lineBank line) && !c.served.contains (w.who, l)
  decide (last / 32 < s.cc + 1)
    && decide (leastBy (fun x => (x + 21 - (last % 32 + 1) % 21) % 21) ((ws.filter asks).map Want.who) = some who)
def noteGrant (core who line : Nat) (s : State) : State :=
  modCore core (fun c => { c with bankLast := put c.bankLast (lineBank line) ((s.cc + 1) * 32 + who) }) s
/-- A requester takes the grants it gets in this cc for its lines. -/
def takeGrants (ws : List Want) (core who : Nat) (ls : List Nat) (s : State) : State :=
  ls.foldl (fun s l =>
    if (getCore s core).served.contains (who, l) || !bankGrant s ws core who l then s
    else noteGrant core who l (modCore core (fun c => { c with served := c.served ++ [(who, l)] }) s)) s
def allServed (core who : Nat) (ls : List Nat) (s : State) : Bool := ls.all fun l => (getCore s core).served.contains (who, l)
def dropServed (core who : Nat) (ls : List Nat) (s : State) : State :=
  modCore core (fun c => { c with served := c.served.filter fun x => !(decide (x.1 = who) && ls.contains x.2) }) s
/-- An act that goes through the ports of a core performs once each of its lines has been granted. -/
def throughPort (core who : Nat) (ls : List Nat) (act : State → State) (s : State) : State :=
  let u := takeGrants (wants s core) core who ls s
  if allServed core who ls u then act (dropServed core who ls u) else u

/-- A grant lapses with the cc when what it was given for no longer waits. -/
def lapseGrants (s : State) : State :=
  { s with cores := s.cores.map fun c =>
      if c.2.served.isEmpty then c
      else
        let ws := wants s c.1
        (c.1, { c.2 with served := c.2.served.filter fun x => ws.any fun w => decide (w.who = x.1) && w.lines.contains x.2 }) }

/-! Events at the ports. -/

/-- R169, R190, R253: a line of a channel is served at a port. -/
def evEnginePortAccess (k : Nat) (e : Eng) (i : Nat) (s : State) : State :=
  match runThread s k e with
  | none => s
  | some (t, r) =>
    if decide (e = .m) || !engineFree t e then s
    else if r.waiting then throughPort (coreOf k) (engineRequester k e) (lineStarts (nthNat r.word.params 0) 128) (takeDesc k e r) s
    else if !lineReady s k r i then s
    else
      let act := servePort k e (getEngine t e) r i
      match linePort s k e r i with
      | none => act s
      | some (c, who, a) => throughPort c who [a] act s
/-- R201, R202: in the cc after a change, the earliest waiter whose condition holds acts. -/
def evFeWaiterPerform (word : Nat) (s : State) : State :=
  match waiterNow s word with
  | none => s
  | some (i, w) =>
    let act := fun (s : State) => noteWord word (waiterAct word w (dropWaiter word i s))
    match waiterPort w, scratchLines s (8 * word) 8 with
    | some who, some (c, ls) => throughPort c who ls act s
    | _, _ => act s
/-- R164 to R167: the oldest vector of a transmit side lands at its sink. -/
def evCsendLanding (p : Nat) (s : State) : State :=
  match landingOf s p with
  | none => s
  | some (f, k, base) =>
    throughPort (coreOf k) (landingRequester (landingPort s f)) (lineStarts base 384) (fun s =>
      let s := landVector k base f.data { s with ports := put s.ports p ⟨(portOf s p).buf.drop 1, (portOf s p).accepted⟩ }
      modHandle f.ctx f.h (fun y => { y with landed := y.landed + 1 }) (modSys k (fun z => { z with landed := (z.landed + 1) % 2 ^ 32 }) s)) s
/-- R190, R277: what an access does at its target, by way of the packet-net interface if that is a scratchpad. -/
def netPort (a : Access) (act : State → State) (s : State) : State :=
  match accessPort s a with
  | some (c, ls) => throughPort c netRequester ls act s
  | none => act s
/-- R103, R104, R112, R313: a line access or full/empty access performs; for host memory `ok` says that the host allows it. -/
def evHomeLineAccess (id : Nat) (ok : Bool) (s : State) : State :=
  match look s.accesses id with
  | none => s
  | some a =>
    if ¬ atTarget s id a then s
    else
      let act := fun (s : State) => match stopped id a ok s with | some u => u | none => netPort a (homeLine id a) s
      match a.op with
      | .read _ => act s
      | .write _ => act s
      | .fe _ _ => if isWaiting s id a.pa then s else act s
      | .amo _ _ _ => s | .cas _ _ _ => s | .cas2 _ _ => s | .bar _ _ _ => s | .shapepub _ _ => s | .chain _ => s
/-- R276 to R279: an atomic performs at its target. -/
def evAtomicPerform (id : Nat) (ok : Bool) (s : State) : State :=
  match look s.accesses id with
  | none => s
  | some a =>
    if ¬ atTarget s id a ∨ ¬ isAtomic a.op then s
    else match stopped id a ok s with
      | some u => u
      | none => netPort a (atomicAt id a) s
/-- R292, R294: a barrier operation acts at its target. -/
def evBarrierAction (id : Nat) (s : State) : State :=
  match look s.accesses id with
  | none => s
  | some a =>
    match a.op with
    | .bar k v n =>
      if ¬ atTarget s id a then s
      else if a.void then answerAccess id .ack s
      else netPort a (barrierAt id a k v n) s
    | .read _ => s | .write _ => s | .amo _ _ _ => s | .cas _ _ _ => s | .cas2 _ _ => s | .fe _ _ => s | .shapepub _ _ => s | .chain _ => s

end Sys2Proof.Machine
end

