-- ==== Sys2Proof/Machine/Fabric.lean ====
section
/-! DEFINITION. The off-package fabric: frames and their order of application, acknowledgements and credits, relays,
peers, lanes, codes and combs (R128 to R144). The access of a frame of this device performs at the memory of the device
it goes to; the frames of a peer become accesses of this package, and those it relays pass through. -/

namespace Sys2Proof.Machine

def getFrame (s : State) (id : Nat) : Option Frame := look s.frames id
def modFrame (id : Nat) (f : Frame → Frame) (s : State) : State :=
  match look s.frames id with
  | some x => { s with frames := put s.frames id (f x) }
  | none => s
def bump (l : List Nat) (i : Nat) : List Nat := l.set i ((l.getD i 0 + 1) % 2 ^ 32)
/-- R143: any frame from a peer ends the silence, and the notices held for it go out while a path to it is usable. -/
def hear (d : Nat) (s : State) : State :=
  let s := modPeer d (fun p => { p with lastHeard := s.cc, silent := false }) s
  if ctrlReaches s d then
    { s with notices := s.notices ++ s.heldNotices.filter fun x => decide (x.1 = d), heldNotices := s.heldNotices.filter fun x => decide (x.1 ≠ d) }
  else s

/-! Sending (R135 to R138, R183). -/

/-- R131: the net rate of a code. -/
def codeRate (c : Nat) : Nat := if c = 0 then 218 else if c = 1 then 211 else if c = 2 then 196 else 0
/-- R138: own frames in the buffer of a relay. -/
def atRelay (s : State) (c : Nat) : Nat := (s.frames.filter fun f => f.2.atRelay && decide (f.2.hop = c)).length
/-- R135: the free capacity of a path: the rate of its first lane times the frames that the lane's replay buffer still takes. -/
def freeCapacity (s : State) (d p : Nat) : Nat :=
  let l := laneAt s (txLane s.cfg.device (firstHop s d p))
  if p ≠ 0 ∧ 16 ≤ atRelay s (firstHop s d p) then 0 else codeRate l.txCode * (64 - l.replay.length)
/-- R135: the basic choice: of the usable paths one with the greatest free capacity, so that the frames of a pair spread in
proportion to it (log entry 36). -/
def basicPath (s : State) (d : Nat) : Option Nat := greatestBy (freeCapacity s d) (usablePaths s d)
def namedPath : PathSel → Option Nat
  | .basic => none | .net => none | .direct => some 0 | .relay1 => some 1 | .relay2 => some 2 | .relay3 => some 3
/-- R135: the path of a frame and whether a named path fell back. -/
def choosePath (s : State) (d : Nat) (p : PathSel) : Option Nat × Bool :=
  match namedPath p with
  | some n => if pathUsable s d n then (some n, false) else (basicPath s d, true)
  | none => (basicPath s d, false)
/-- R138, R140: a path takes one more frame: room in the replay buffer of its first lane and in its relay's buffer. -/
def pathRoom (s : State) (d p : Nat) : Bool :=
  decide ((laneAt s (txLane s.cfg.device (firstHop s d p))).replay.length < 64) && (decide (p = 0) || decide (atRelay s (firstHop s d p) < 16))
/-- R138: a credit of a class for a new frame, and room on its path. -/
def frameRoom (s : State) (d p : Nat) (c : FrameClass) : Bool :=
  let x := peerAt s d
  decide (0 < (if c = .ord then x.ordCredits else x.bulkCredits)) && pathRoom s d p
/-- R143, R383: new frames for a peer are held while it is silent or being evicted. -/
def peerHeld (s : State) (d : Nat) : Bool := (peerAt s d).silent || s.peerEvicts.any fun e => decide (e.1 = d)
/-- A frame takes the next number of the lane its path starts on. -/
def takeLaneNo (d p id : Nat) (s : State) : Nat × State :=
  let i := txLane s.cfg.device (firstHop s d p)
  let l := laneAt s i
  (l.frameNo, modLane i (fun l => { l with frameNo := l.frameNo + 1, replay := l.replay ++ [(l.frameNo, id)] }) s)
/-- R383: the redirect of an eviction by which a physical address of a device was reached: its pair's numbers count. -/
def carriedBy (s : State) (pa : Nat) : Option Redirect :=
  s.redirects.find? fun r => r.carry && r.ranges.any fun m => decide (m.dst ≤ pa) && decide (pa < m.dst + m.len)
def modCarried (e : Nat) (f : Redirect → Redirect) (s : State) : State :=
  { s with redirects := s.redirects.map fun r => if r.carry ∧ r.dev = e then f r else r }
/-- R137, R383: the number of the next ORD frame for a device, counted with the device or carried over. -/
def nextOrd (s : State) (d : Nat) (pair : Option Redirect) : Nat :=
  match pair with
  | some r => r.ordSend
  | none => (peerAt s d).ordSend
/-- What a new frame is for: its class, the access it carries or answers, the thread it serves, the path its copy names. -/
structure FrameUse where
  cls : FrameClass
  access : Nat
  who : Option Nat
  sel : PathSel
  deriving DecidableEq, Repr
/-- R136 to R138, R183, R383: a frame for a device enters the fabric on a path. -/
def frameOut (d p : Nat) (pair : Option Redirect) (w : FrameUse) (s : State) : State :=
  let x := peerAt s d
  let n := takeLaneNo d p s.fresh s
  let f : Frame := { peer := d, cls := w.cls, seq := nextOrd s d pair, flagSeq := x.flagSend, firstPath := p, path := p, hop := firstHop s d p, carried := x.sent
                     access := w.access, laneNo := n.1, entered := s.cc, sentAt := s.cc, atRelay := decide (p ≠ 0)
                     pair := pair.map Redirect.dev, who := w.who, sel := w.sel }
  let s := modPeer d (fun x => match w.cls with
    | .ord => { x with ordSend := if pair.isNone then (x.ordSend + 1) % 2 ^ 32 else x.ordSend, ordCredits := x.ordCredits - 1 }
    | .bulk => { x with sent := bump x.sent p, bulkCredits := x.bulkCredits - 1 }
    | .flagged => { x with sent := bump x.sent p, bulkCredits := x.bulkCredits - 1, flagSend := x.flagSend + 1 }) n.2
  let s := match w.cls, pair with
    | .ord, some r => modCarried r.dev (fun r => { r with ordSend := (r.ordSend + 1) % 2 ^ 32 }) s
    | _, _ => s
  { s with frames := put s.frames s.fresh f, fresh := s.fresh + 1 }
/-- R136: the frame of an access enters the fabric on a path. -/
def sendOn (id : Nat) (a : Access) (p : Nat) (s : State) : State :=
  frameOut a.device p (carriedBy s a.pa) ⟨classOf a, id, servedBy s a, a.path⟩ { s with accesses := put s.accesses id { a with place := .fabric, frame := s.fresh } }
/-- An access that can no longer reach its target is answered at the part by which it would have left (R143, R314). -/
def answerLost (id : Nat) (s : State) : State :=
  match look s.accesses id with
  | some a => { s with accesses := put s.accesses id { joinQueue s a (replyPlace s a) with answer := some .unreachable } }
  | none => s
/-- R135: a named path fell back to the basic choice. Its relay is the device the path goes to first (DESIGN CHOICE, log
entry 99: for the direct path that is the destination); each frame that falls back, sent or sent again, makes a record of
its own (DESIGN CHOICE, log entry 106). -/
def fellBack (d : Nat) (p : PathSel) (s : State) : State :=
  laneRecord clPathChange 0 [] (peersWord s (firstHop s d ((namedPath p).getD 0)) (groupOf d) (2 ^ memberOf d)) 0 s
/-- R300, R302: an earlier access of the same queue that has not performed and is not in the fabric toward the same
device: nothing of another device may overtake it. -/
def behindOther (s : State) (id : Nat) (a : Access) : Bool :=
  s.accesses.any (fun b => decide (b.1 < id) && sameQueue b.2 a && !b.2.performed && b.2.answer.isNone
    && !(decide (b.2.device = a.device) && (decide (b.2.place = .fabric) || decide (b.2.place = .target))))
/-- R284: the fabric hops of a chain's packet with those of one more path, if that path takes it into no 17th device. -/
def hopOn (op : AccOp) (p : Nat) : Except ChainPacket AccOp :=
  match op with
  | .chain c => let n := c.hops + (if p = 0 then 1 else 2); if 16 < n then .error c else .ok (.chain { c with hops := n })
  | .read _ => .ok op | .write _ => .ok op | .amo _ _ _ => .ok op | .cas _ _ _ => .ok op | .cas2 _ _ => .ok op | .fe _ _ => .ok op
  | .bar _ _ _ => .ok op | .shapepub _ _ => .ok op
/-- An access that stands at its optical engine leaves the package when it can; a named path that falls back is
recorded (R135). -/
def enterFabric (id : Nat) (a : Access) (s : State) : State :=
  if a.void then { s with accesses := put s.accesses id { joinQueue s a (replyPlace s a) with answer := some .ack } }
  else if ¬ reachable s a.device then answerLost id s
  else if peerHeld s a.device || behindOther s id a then s
  else match choosePath s a.device a.path with
    | (none, _) => s
    | (some p, fell) =>
      if ¬ frameRoom s a.device p (classOf a) then s
      else match hopOn a.op p with
        | .error c => { s with accesses := put s.accesses id { joinQueue s a (replyPlace s a) with answer := some (.chained (chainStatus csHops c) []) } }
        | .ok op => let u := sendOn id { a with op := op } p s; if fell then fellBack a.device a.path u else u

/-! Application at the other device (R137, R139, R183). -/

/-- R112, R366: the access of a frame that has been applied stands at its target at the other device, whose access tables
decide, of a chunk of an engine whole and when it starts; it performs there in the order of R302. An evicted device answers
for what it did not move as unreachable once it is DRAINED (R383, log entry 118). -/
def applyAt (id : Nat) (a : Access) (s : State) : State :=
  let n := s.freeCount
  let t := { s with freeCount := n + 1 }
  if (s.redirects.any fun r => r.carry && decide (r.dev = a.device)) && Config.drained n then answerAccess id .unreachable t
  else
    let den := match madeFor a with
      | .engine _ _ _ => a.denied
      | .thread _ => otherDenies n | .chain _ _ => otherDenies n | .host => otherDenies n | .peer _ _ => otherDenies n | .gone => otherDenies n
    setAccess id { a with place := .target, denied := den } t
/-- R137, R383: the ORD number that the device a frame goes to waits for; none is waited for once its redirect is cleared. -/
def waitsFor (s : State) (f : Frame) : Nat :=
  match f.pair with
  | none => (peerAt s f.peer).ordThere
  | some e => match s.redirects.find? fun r => r.carry && decide (r.dev = e) with
    | some r => r.ordThere
    | none => f.seq
/-- A frame is applied once. -/
def applyFrame (fid : Nat) (f : Frame) (s : State) : State :=
  let s := modFrame fid (fun x => { x with applied := true, held := false }) s
  let s := match f.cls, f.pair with
    | .ord, some e => modCarried e (fun r => { r with ordThere := (r.ordThere + 1) % 2 ^ 32 }) s
    | .ord, none => modPeer f.peer (fun x => { x with ordThere := (x.ordThere + 1) % 2 ^ 32 }) s
    | .bulk, _ => modPeer f.peer (fun x => { x with appliedThere := bump x.appliedThere f.firstPath }) s
    | .flagged, _ => modPeer f.peer (fun x => { x with appliedThere := bump x.appliedThere f.firstPath, flagThere := x.flagThere + 1 }) s
  match look s.accesses f.access with
  | some a => if a.answer.isNone && !a.performed then applyAt f.access a s else s
  | none => s
/-- R137: the held frames that no gap keeps back any longer. -/
def drainOrd (d : Nat) : Nat → State → State
  | 0, s => s
  | n + 1, s => match s.frames.find? fun f => decide (f.2.peer = d) && decide (f.2.cls = .ord) && f.2.held && decide (f.2.seq = waitsFor s f.2) with
    | some f => drainOrd d n (applyFrame f.1 f.2 s)
    | none => s
/-- R140: a frame of ours that stands before its target, of no more than 50 µs. -/
def arriving (cc : Nat) (f : Frame) : Bool := f.inFlight && !f.atRelay && decide (cc < f.entered + usCc 50)
/-- R139: a frame that has arrived is no longer under way; one that came before is a duplicate, and discarded. -/
def takeIn (id : Nat) (f : Frame) (go : State → State) (s : State) : State :=
  let s := modFrame id (fun x => { x with inFlight := false }) s
  if f.applied || f.held then s else go s
def ordThere (id : Nat) (s : State) : State :=
  match getFrame s id with
  | none => s
  | some f =>
    if f.cls ≠ .ord ∨ ¬ arriving s.cc f then s
    else takeIn id f (fun s => if f.seq = waitsFor s f then drainOrd f.peer 32 (applyFrame id f s) else modFrame id (fun x => { x with held := true }) s) s
def bulkThere (id : Nat) (s : State) : State :=
  match getFrame s id with
  | none => s
  | some f =>
    if f.cls = .ord ∨ ¬ arriving s.cc f then s
    else takeIn id f (fun s => if f.cls = .bulk then applyFrame id f s else modFrame id (fun x => { x with held := true }) s) s
/-- R183: every count has reached its carried count. -/
def countsReached (applied carried : List Nat) : Bool :=
  (List.range 4).all fun p => decide ((applied.getD p 0 + 2 ^ 32 - carried.getD p 0) % 2 ^ 32 < 2 ^ 31)
def flagThere (id : Nat) (s : State) : State :=
  match getFrame s id with
  | none => s
  | some f =>
    let p := peerAt s f.peer
    if f.cls = .flagged ∧ f.held ∧ f.flagSeq = p.flagThere ∧ countsReached p.appliedThere f.carried then applyFrame id f s else s

/-! Frames of a peer. -/

/-- The access that the frame of a peer asks for. -/
def frameOp : FrameOp → AccOp
  | .read n => .read n
  | .write d => .write d
  | .amo o n v => .amo o (if n = 4 then .w4 else .w8) (BitVec.ofNat 64 v)
  | .cas n e v => if n = 16 then .cas2 e v else .cas (if n = 4 then .w4 else .w8) (BitVec.ofNat 64 e) (BitVec.ofNat 64 v)
  | .fe k d => .fe k d
  | .bar k v n => .bar k v n
  | .chain p => .chain p
/-- R136: the line accesses of a frame of up to 256 bytes: offset and what each asks. -/
def frameParts (pa : Nat) (op : FrameOp) : List (Nat × AccOp) :=
  let part := fun (n : Nat) (get : Nat → Nat → AccOp) => (lineStarts pa n).map fun l =>
    let lo := max pa l
    (lo - pa, get (lo - pa) (min (pa + n) (l + 64) - lo))
  match op with
  | .read n => part n fun _ k => .read k
  | .write d => part d.length fun o k => .write ((d.drop o).take k)
  | .amo _ _ _ => [(0, frameOp op)] | .cas _ _ _ => [(0, frameOp op)] | .fe _ _ => [(0, frameOp op)] | .bar _ _ _ => [(0, frameOp op)]
  | .chain _ => [(0, frameOp op)]
/-- The accesses enter the mesh at the engine the frame came by; `part` keeps its first path, tag 1 marks a flag or a chain's
packet, whose address the device it comes from has translated. Once this device is DRAINED they turn back there as
unreachable (R383). -/
def admitFrame (src id : Nat) (b : FrameBody) (s : State) : State :=
  let at_ := engineRouter (groupOf src)
  let drained := decide (s.evstate = 4)
  sendAll ((frameParts b.pa b.op).map fun x =>
    { owner := .peer src id, master := b.master, pa := b.pa + x.1, op := x.2, place := .out at_.1 at_.2 7 drained
      part := b.path, tag := if b.cls = .flagged ∨ isChain x.2 then 1 else 0, buffered := decide (b.cls = .ord), device := s.cfg.device
      answer := if drained then some .unreachable else none, performed := drained
      src := at_, dst := if drained then at_ else targetRouter (b.pa + x.1) at_.2, clock := b.clock }) s
def dropHeld (src id : Nat) (s : State) : State := { s with held := s.held.filter fun h => !(decide (h.src = src) && decide (h.id = id)) }
/-- R383: the redirect by whose numbers a frame from a device for a moved range counts here. -/
def carriedHere (s : State) (pa : Nat) : Option Redirect := (carriedBy s pa).bind fun r => if r.dest = s.cfg.device then some r else none
/-- R137, R383: the number of the next ORD frame of a source for an address here. -/
def hereNo (s : State) (src pa : Nat) : Nat :=
  match carriedHere s pa with
  | some r => (look r.ordHere src).getD 0
  | none => (peerAt s src).ordHere
def passHere (src pa : Nat) (s : State) : State :=
  match carriedHere s pa with
  | some r => modCarried r.dev (fun r => { r with ordHere := put r.ordHere src (((look r.ordHere src).getD 0 + 1) % 2 ^ 32) }) s
  | none => modPeer src (fun x => { x with ordHere := (x.ordHere + 1) % 2 ^ 32 }) s
def drainHeld (d : Nat) : Nat → State → State
  | 0, s => s
  | n + 1, s => match s.held.find? fun h => decide (h.src = d) && decide (h.body.cls = .ord) && decide (h.body.seq = hereNo s d h.body.pa) with
    | some h => drainHeld d n (passHere d h.body.pa (admitFrame d h.id h.body (dropHeld d h.id s)))
    | none => s
/-- n comes d numbers, less than 2^31, after m in a sequence of 32 bits. -/
def seqAfter (n m : Nat) : Nat := (n + 2 ^ 32 - m) % 2 ^ 32
/-- R137: a request of a peer shows a number of its sequence: the answers of that device that are under way and were taken to
bear this number or a later one bear the next (log entry 113). -/
def showsOrd (src n : Nat) (s : State) : State :=
  let later := fun (a : Access) => decide (a.place = .back) && decide (a.device = src) && decide (classOf a = .ord) && decide (seqAfter a.backSeq n < 2 ^ 31)
  let moved := s.accesses.any fun a => later a.2 && decide (a.2.backSeq = n)
  let s : State := { s with accesses := s.accesses.map fun a => (a.1, if moved && later a.2 then { a.2 with backSeq := (a.2.backSeq + 1) % 2 ^ 32 } else a.2) }
  modPeer src (fun p =>
    let next := if moved then (p.ordBack + 1) % 2 ^ 32 else p.ordBack
    { p with ordBack := if seqAfter n next < 2 ^ 31 then (n + 1) % 2 ^ 32 else next }) s
/-- R137: an ORD frame of a peer is applied in pair sequence order; an old number is a duplicate. -/
def ordHere (src id : Nat) (b : FrameBody) (s : State) : State :=
  let n := hereNo s src b.pa
  let shown := fun (s : State) => if (carriedHere s b.pa).isSome then s else showsOrd src b.seq s
  if b.seq = n then drainHeld src 32 (passHere src b.pa (admitFrame src id b (shown s)))
  else if seqAfter b.seq n < 32 ∧ ¬ (s.held.any fun h => decide (h.src = src) && decide (h.body.cls = .ord) && decide (h.body.seq = b.seq)
      && decide (carriedHere s h.body.pa = carriedHere s b.pa)) then
    { shown s with held := s.held ++ [{ src := src, id := id, body := b }] }
  else s
/-- R136, R137: the answer of another device to an ORD frame is applied in that device's sequence. -/
def backInTurn (s : State) (a : Access) : Bool := decide (classOf a ≠ .ord) || decide (a.backSeq = (peerAt s a.device).ordHere)
/-- R136, R137, R143: an answer of another device enters the mesh. -/
def takeBack (id : Nat) (a : Access) (s : State) : State :=
  let s := hear a.device (setAccess id (joinQueue s a (replyPlace s a)) s)
  if classOf a = .ord then drainHeld a.device 32 (modPeer a.device (fun x => { x with ordHere := (x.ordHere + 1) % 2 ^ 32 }) s) else s
/-- R139: a BULK or FLAG frame of a peer; its id tells a duplicate. -/
def bulkHere (src id : Nat) (b : FrameBody) (s : State) : State :=
  if (peerAt s src).idsHere.contains id then s
  else
    let s := modPeer src (fun x => { x with idsHere := x.idsHere ++ [id] }) s
    if b.cls = .flagged then { s with held := s.held ++ [{ src := src, id := id, body := b }] } else admitFrame src id b s
/-- A frame of a peer is heard from a member whose tag agrees, over a lane in service, before its age ends it (R140). -/
def fromPeer (s : State) (f : FrameRef) (b : FrameBody) : Bool :=
  decide (f.src ≠ s.cfg.device) && isMember s f.src && (peerAt s f.src).reachable
    && decide ((laneAt s (rxLane s.cfg.device f.via)).rx = 2) && decide (b.age < usCc 50)
/-- R134, R138: a frame for another member that came over its first hop waits in the buffer of the lane it came by. -/
def relayFrame (f : FrameRef) (b : FrameBody) (s : State) : State :=
  let lane := rxLane s.cfg.device f.src
  let dst := paDevice b.pa
  if f.via ≠ f.src ∨ ¬ isMember s dst ∨ dst = f.src ∨ 16 ≤ (s.relayed.filter fun r => decide (r.2.lane = lane)).length then s
  else { s with relayed := put s.relayed s.fresh ⟨f.src, dst, f.id, lane, s.cc + (usCc 50 - b.age)⟩, fresh := s.fresh + 1 }
def evOrdFrameReceive (f : FrameRef) (s : State) : State :=
  match f.body with
  | none => if f.src = s.cfg.device then ordThere f.id s else s
  | some b =>
    if ¬ fromPeer s f b ∨ b.cls ≠ .ord then s
    else if paDevice b.pa = s.cfg.device then ordHere f.src f.id b (hear f.src s) else relayFrame f b s
def evBulkFrameReceive (f : FrameRef) (s : State) : State :=
  match f.body with
  | none => if f.src = s.cfg.device then bulkThere f.id s else s
  | some b =>
    if ¬ fromPeer s f b ∨ b.cls = .ord then s
    else if paDevice b.pa = s.cfg.device then bulkHere f.src f.id b (hear f.src s) else relayFrame f b s
def evFlagFrameApply (f : FrameRef) (s : State) : State :=
  if f.src = s.cfg.device then flagThere f.id s
  else match s.held.find? fun h => decide (h.src = f.src) && decide (h.id = f.id) && decide (h.body.cls = .flagged) with
    | none => s
    | some h =>
      let p := peerAt s f.src
      if h.body.flagSeq = p.flagHere ∧ countsReached p.appliedHere h.body.carried then
        admitFrame f.src f.id h.body (dropHeld f.src f.id (modPeer f.src (fun x => { x with flagHere := x.flagHere + 1 }) s))
      else s

/-! Acknowledgement, credit, loss and repetition (R138 to R140). -/

def evFrameAckReceive (id : Nat) (s : State) : State :=
  match getFrame s id with
  | some f => if f.applied then hear f.peer { s with frames := erase s.frames id } else s
  | none => s
/-- R138: credits in use and returned never pass the reservation of 32. -/
def inUse (s : State) (d : Nat) (ord : Bool) : Nat :=
  (s.frames.filter fun f => decide (f.2.peer = d) && !f.2.applied && decide (decide (f.2.cls = .ord) = ord)).length
def evEndToEndCredit (d ord bulk : Nat) (s : State) : State :=
  let p := peerAt s d
  if isMember s d && decide (p.ordCredits + ord + inUse s d true ≤ 32) && decide (p.bulkCredits + bulk + inUse s d false ≤ 32) then
    hear d (modPeer d (fun p => { p with ordCredits := p.ordCredits + ord, bulkCredits := p.bulkCredits + bulk }) s)
  else s
/-- R139, R141: a hop of the path that carries a frame is out of service. -/
def pathGone (s : State) (f : Frame) : Bool := !wayUp s f.peer f.hop
/-- R139: the last sending of the frame took the path. -/
def sentOn (s : State) (id path : Nat) : Bool :=
  match getFrame s id with
  | some f => decide (f.path = path)
  | none => false
/-- R135, R139: sent again when its path is gone or after 20 µs: on the named path of its copy while that is usable, else by
the basic choice. -/
def evFrameResendTimeout (id : Nat) (s : State) : State :=
  match getFrame s id with
  | none => s
  | some f =>
    if (peerAt s f.peer).silent ∨ ¬ (f.sentAt + usCc 20 ≤ s.cc ∨ pathGone s f) then s
    else match choosePath s f.peer f.sel with
      | (none, _) => s
      | (some p, fell) =>
        if ¬ pathRoom s f.peer p then s
        else
          let n := takeLaneNo f.peer p id s
          let hop := firstHop s f.peer p
          let s := modFrame id (fun x => { x with path := p, hop := hop, laneNo := n.1, sentAt := s.cc, entered := s.cc, atRelay := decide (p ≠ 0), inFlight := true }) n.2
          if fell then fellBack f.peer f.sel s else s
/-- R140: a frame that has not reached its target 50 µs after it entered the fabric is discarded, at a relay too. -/
def evFrameAgeDiscard (id : Nat) (s : State) : State :=
  let s := { s with relayed := s.relayed.filter fun r => !(decide (r.1 = id) && decide (r.2.deadline ≤ s.cc)) }
  match getFrame s id with
  | some f => if f.entered + usCc 50 ≤ s.cc ∧ f.inFlight then modFrame id (fun x => { x with inFlight := false, atRelay := false }) s else s
  | none => s
/-- R140: a frame still in the lane's buffer goes over the lane once more under its number. -/
def evLaneFrameReplay (id : Nat) (s : State) : State :=
  match getFrame s id with
  | none => s
  | some f =>
    let l := laneAt s (txLane s.cfg.device f.hop)
    if f.inFlight ∧ l.replay.any (fun r => decide (r = (f.laneNo, id))) then modFrame id (fun x => { x with atRelay := decide (x.path ≠ 0) }) s else s
def evLaneFrameAck (lane upTo : Nat) (s : State) : State :=
  modLane lane (fun l => { l with replay := l.replay.filter fun r => decide (upTo < r.1) }) s
/-- R134, R138: a relay sends a frame on over its lane to the destination: another device one of ours, or this device one of
a peer's. -/
def evRelayForward (id : Nat) (s : State) : State :=
  match look s.relayed id with
  | some r => if txUp s r.dst ∧ s.cc < r.deadline then { s with relayed := erase s.relayed id } else s
  | none => modFrame id (fun x => if x.inFlight && wayUp s x.peer x.hop then { x with atRelay := false } else x) s

/-! Peers (R143, R385). -/

def evKeepaliveSend (d : Nat) (s : State) : State :=
  if reachable s d && decide (d ≠ s.cfg.device) && !(usablePaths s d).isEmpty then modPeer d (fun p => { p with keepaliveAt := s.cc }) s else s
def evKeepaliveReceive (d : Nat) (s : State) : State := if isMember s d && decide (d ≠ s.cfg.device) then hear d s else s
def evPeerSilenceHold (d : Nat) (s : State) : State :=
  if (peerAt s d).reachable ∧ (peerAt s d).lastHeard + usCc 50 ≤ s.cc then modPeer d (fun p => { p with silent := true }) s else s
def peerRecord (cls d : Nat) (s : State) : State := laneRecord cls 0 [] (peersWord s 0 (groupOf d) (2 ^ memberOf d)) 0 s
/-- R143: what stands between this device and a lost peer ends as unreachable. -/
def loseAccess (d : Nat) (s : State) : State :=
  let ids := (s.accesses.filter fun a => !a.2.host && decide (a.2.device = d)
    && (decide (a.2.place = .fabric) || decide (a.2.place = .back) || decide (a.2.place = .target))).map Prod.fst
  let s := { s with
    frames := s.frames.filter (fun f => decide (f.2.peer ≠ d))
    heldNotices := s.heldNotices.filter (fun n => decide (n.1 ≠ d))
    held := s.held.filter (fun h => decide (h.src ≠ d))
    waiters := s.waiters.map fun w => (w.1, w.2.filter fun x => match x with
      | .remote id _ => !ids.contains id
      | .thread _ _ _ _ => true
      | .msync _ _ _ => true) }
  ids.foldl (fun s id => answerLost id s) s
def evPeerLost (d : Nat) (s : State) : State :=
  let p := peerAt s d
  let noPath : Bool := match p.lostAt with | some t => decide (t + usCc 100 ≤ s.cc) | none => false
  if p.reachable && (noPath || decide (p.lastHeard + usCc 100 ≤ s.cc)) then
    loseAccess d (modPeer d (fun p => { p with reachable := false, lost := true }) (peerRecord clPeerLost d s))
  else s
/-- R143: credits and sequence numbers start afresh. -/
def freshPeer (cc : Nat) (p : Peer) : Peer :=
  { member := p.member, tagOk := p.tagOk, reachable := true, lastHeard := cc, keepaliveAt := cc }
/-- R134, R143: a peer is reachable again; RLYTAB is filled with it present. -/
def evPeerBack (d : Nat) (s : State) : State :=
  if isMember s d && decide (d ≠ s.cfg.device) && !(peerAt s d).reachable && !(usablePaths s d).isEmpty then
    relaysWith (present s) (peerRecord clPeerBack d (modPeer d (freshPeer s.cc) s))
  else s
/-- R385: RLYTAB is filled with a lost peer treated as absent. -/
def evRelayRefill (d : Nat) (s : State) : State :=
  if isMember s d && (peerAt s d).lost && !(peerAt s d).absent then relaysWithout d (modPeer d (fun p => { p with absent := true }) s) else s

/-! Combs and lanes (R131 to R133, R141, R142, R144). -/

/-- R142, R145: the members of a group in the domain other than this device. -/
def groupMask (s : State) (g : Nat) : Nat :=
  ((List.range 32).filter fun m => s.dommap.contains (32 * g + m) && decide (32 * g + m ≠ s.cfg.device)).foldl (fun a m => a + 2 ^ m) 0
def engineLanes (e : Nat) : List Nat := (List.range 32).map fun l => 32 * e + l
/-- R152, R159: the circuits that lead to an engine go DOWN with its comb. -/
def combCircuits (e : Nat) (s : State) : State :=
  (s.ctxs.flatMap fun c => (c.2.handles.filter fun h => decide (h.2.sink = 128 + e) && (decide (h.2.state = .settling) || decide (h.2.state = .live))).map
      fun h => (c.1, h.1, c.2.cohort, h.2)).foldl
    (fun s x => downHandle x.1 x.2.1 4 (!x.2.2.2.expert) (circRecord clCircFail (recordCause 4) x.1 x.2.2.1 x.2.1 x.2.2.2.gen s)) s
/-- R142, R144: the comb of an engine fails: its 32 transmit lanes leave service, one record is made, and the members learn
of it. -/
def evCombLoss (e : Nat) (s : State) : State :=
  if s.combsFailed.contains e ∨ 32 ≤ e then s
  else
    let s := { s with combsFailed := addSet s.combsFailed e }
    let r := makeRecord s clCombLoss 2 [(e, 44), (3, 35)] (peersWord s 0 e (groupMask s e)) 0
    let s := postPeers r s
    let s := notePaths ((engineLanes e).foldl (fun s i => modLane i (fun l => { l with tx := 0, txCode := 3, marker := none, replay := [] }) s) s)
    combCircuits e (sendNotice r s.dommap s)
/-- R142, R144: the comb locks again and its lanes train. The record has CAUSE 2, comb, and NEWCODE 0 (DEDUCED, log entry 73). -/
def evCombRelock (e : Nat) (s : State) : State :=
  if ¬ s.combsFailed.contains e then s
  else
    let s := { s with combsFailed := delSet s.combsFailed e }
    let own := s.cfg.device
    let s := (engineLanes e).foldl (fun s i =>
      if (laneAt s i).tx = 0 ∧ s.service = .running then modLane i (fun l => { l with tx := laneStart own i (txPeer own i) (isMember s (txPeer own i)) }) s else s) s
    let r := makeRecord s clCombRelock 2 [(e, 44)] (peersWord s 0 e (groupMask s e)) 0
    sendNotice r s.dommap (postPeers r s)
def evTuneLoss (i : Nat) (rx : Bool) (s : State) : State :=
  notePaths (if rx then rxDown i clTuneLoss 1 0 s else txDown i clTuneLoss 1 s)
def evLaneDown (i : Nat) (rx : Bool) (s : State) : State :=
  notePaths (if rx then rxDown i clLaneDown 4 0 s else txDown i clLaneDown 4 s)
/-- R130: a peer whose tag differs is no member: its lanes stay dark, and no relay path goes through it. -/
def refuseTag (d : Nat) (s : State) : State :=
  let dark := fun (i : Nat) (rx : Bool) => modLane i fun l => if rx then { l with rx := 0, code := 3 } else { l with tx := 0, txCode := 3, replay := [] }
  let s := dark (txLane s.cfg.device d) false (dark (rxLane s.cfg.device d) true s)
  relaysWithout d (loseAccess d (modPeer d (fun p => { p with tagOk := false, reachable := false }) s))
/-- R130, R131, R141, R378: training ends and the two ends compare their tags; a lane that comes into service starts at strong, and
a pinned one goes on to its pinned code. -/
def evLaneUp (i : Nat) (rx : Bool) (tag : BitVec 64) (s : State) : State :=
  let l := laneAt s i
  let peer := if rx then rxPeer s.cfg.device i else txPeer s.cfg.device i
  let may := if rx then decide (l.rx < 2) && !l.dis else decide (l.tx < 2) && !s.combsFailed.contains (i / 32) && decide (s.service = .running)
  if !may || !isMember s peer || decide (peer = s.cfg.device) then s
  else if tag.toNat ≠ s.domtag then refuseTag peer s
  else if rx then keepPin i (oneLane clLaneUp 0 i true 3 2 peer 0 (modLane i (fun l => { l with rx := 2, code := 2, good := 0 }) s))
  else oneLane clLaneUp 0 i false 3 2 peer 0 (notePaths (modLane i (fun l => { l with tx := 2, txCode := 2 }) s))
def isLaneEvent (c : Nat) : Bool := decide (1 ≤ c) && decide (c ≤ 6)
/-- R144: the record of a peer's lane event at this end of the lane: made here of this device's own lane, with the
detecting device in ORIGIN. Its CAUSE is 6, peer notice, in LANE_DOWN and LANE_UP alike (DEDUCED, log entry 73). -/
def noticeRecord (s : State) (o lane : Nat) (rx up : Bool) : RecordWords :=
  let cls := if up then clLaneUp else clLaneDown
  makeRecord s cls 6 (laneFields cls lane rx 3 (if up then 2 else 3)) (word64 [(o, 54), (groupOf o, 39), (2 ^ memberOf o, 0)]) 0
/-- R141, R142, R144: this end of a lane to or from a peer follows the peer's notice. The members hear of a transmit lane
from this device too, since it may be the second hop of their relay paths. -/
def followNotice (src : Nat) (r : RecordWords) (s : State) : State :=
  let theirRx := flag r.w0.toNat 51
  let comb := !flag r.w0.toNat 50
  let up := decide (recClass r = clLaneUp)
  let lane := if theirRx then txLane s.cfg.device src else rxLane s.cfg.device src
  let l := laneAt s lane
  if comb ∧ (recClass r ≠ clCombLoss ∨ l.rx ≠ 2) then s
  else
    let own := noticeRecord s src lane (!theirRx) up
    let s := modLane lane (fun l =>
      if theirRx then (if up then (if l.tx < 2 ∧ ¬ s.combsFailed.contains (lane / 32) ∧ s.service = .running then { l with tx := 2, txCode := 2 } else l) else if l.tx = 2 then { l with tx := 0, txCode := 3, marker := none, replay := [] } else l)
      else if up then (if l.rx < 2 ∧ ¬ l.dis then { l with rx := 2, code := 2, good := 0 } else l)
      else if l.rx = 2 then { l with rx := 0, code := 3, pending := none, decided := none, good := 0 } else l) s
    let s := postRecord own (fun k => framesWith s k [src]) s
    if theirRx then sendNotice own s.dommap s else if up then keepPin lane s else s
/-- R144: a transmit lane of a relay is the second hop of relay paths of this device: what this device knows of it, and the
PATH_CHANGE of an enabled path whose use changes with it. The cause in such a record is that of a peer's notice (DESIGN
CHOICE, log entry 100). -/
def secondHop (src : Nat) (up down : Bool) (d : Nat) (s : State) : State :=
  let key := hopKey src d
  let known := if up then delSet s.secondDown key else if down then addSet s.secondDown key else s.secondDown
  let serves := [1, 2, 3].any fun k => relayOn (rlyWord s d) k && decide (relayOf (rlyWord s d) k = src)
  if d = s.cfg.device ∨ d = src ∨ ¬ s.dommap.contains d ∨ known = s.secondDown then s
  else
    let s := { s with secondDown := known }
    if serves then laneRecord clPathChange 6 [] (peersWord s src (groupOf d) (2 ^ memberOf d)) 0 s else s
/-- R144: a CTRL notice of a lane or comb event from another device. -/
def evLaneNotice (src : Nat) (r : RecordWords) (s : State) : State :=
  let o := bits r.w2.toNat 54 10
  let c := recClass r
  if ¬ isMember s src ∨ src = s.cfg.device ∨ ¬ isLaneEvent c then s
  else
    let s := hear src s
    let s := if o = src ∧ (recPeers r).contains s.cfg.device then followNotice src r s else s
    if flag r.w0.toNat 51 then notePaths s
    else notePaths ((recPeers r).foldl (fun s d => secondHop src (decide (c = clLaneUp)) (decide (c ≠ clLaneUp) && decide (c ≠ clCombRelock)) d s) s)

/-- R131: W is above, or below, n / 10^e. -/
def wAbove (w : W32) (n e : Nat) : Bool := decide ((Fmt.f32.decode w.toNat).cmp (.fin false n (10 ^ e) 0) = .gt)
def wBelow (w : W32) (n e : Nat) : Bool := decide ((Fmt.f32.decode w.toNat).cmp (.fin false n (10 ^ e) 0) = .lt)
/-- R131: the good windows in a row after one more, for a lane that keeps its pinned code; at most the 255 that the next
window can complete (log entry 114). -/
def goodRun (code good : Nat) (w : W32) : Nat := if (code = 1 && wBelow w 1 9) || (code = 2 && wBelow w 2 7) then min 255 (good + 1) else 0
/-- R131: the code a lane goes to after a window, with its count of good windows. -/
def nextCode (code good : Nat) (w : W32) : Option Nat × Nat :=
  if code = 0 then (if wAbove w 1 7 then some 1 else none, 0)
  else if code = 1 then
    if wAbove w 2 5 then (some 2, 0)
    else if wBelow w 1 9 then (if 255 ≤ good then (some 0, 0) else (none, good + 1)) else (none, 0)
  else if wBelow w 2 7 then (if 255 ≤ good then (some 1, 0) else (none, good + 1)) else (none, 0)
def evBerWindow (i : Nat) (w : W32) (uncorr : Nat) (s : State) : State :=
  let l := laneAt s i
  if l.rx ≠ 2 then s
  else
    let s := modLane i (fun l => { l with w := w, uncorr := min 0xFFFF (l.uncorr + uncorr) }) s
    if wAbove w 2 3 ∨ 16 ≤ uncorr then rxDown i clExcursion 3 w s
    else if l.pin then modLane i (fun l => { l with good := goodRun l.code l.good w }) s
    else
      let n := nextCode l.code l.good w
      let s := modLane i (fun l => { l with good := n.2 }) s
      match n.1 with
      | some c => requestCode i c s
      | none => s
/-- R132: the sender ends its codeword and sends a marker. -/
def evCodeRequest (i code : Nat) (s : State) : State :=
  if (laneAt s i).tx = 2 ∧ code ≤ 2 then modLane i (fun l => { l with marker := some code }) s else s
def evCodeMarkerTimeout (i : Nat) (s : State) : State :=
  let l := laneAt s i
  if l.pending.isSome ∧ l.requestedAt + usCc 1000 ≤ s.cc then modLane i (fun l => { l with requestedAt := s.cc }) s else s
/-- R131, R132: the receiver decodes the marker and switches; the sender of a marker learns of its completion. -/
def evCodeChange (i : Nat) (s : State) : State :=
  let l := laneAt s i
  match l.pending with
  | some c =>
    keepPin i (oneLane clCodeChange 0 i true l.code c (rxPeer s.cfg.device i) l.w
      (modLane i (fun l => { l with code := c, pending := l.decided, decided := none, requestedAt := s.cc, good := 0 }) s))
  | none => match l.marker with
    | some c => oneLane clCodeChange 0 i false l.txCode c (txPeer s.cfg.device i) 0 (modLane i (fun l => { l with txCode := c, marker := none }) s)
    | none => s

end Sys2Proof.Machine
end

