-- ==== Sys2Proof/Machine/Net.lean ====
section
/-! DEFINITION. The packet net: routing, credits, link integrity, merging, and what a response does at its master
(R112, R114 to R127, R143, R205, R314, R376, R378). -/

namespace Sys2Proof.Machine

/-! Routes and buffers (R114, R116 to R119). -/

def linkKey (x y port : Nat) : Nat := (y * 32 + x) * 8 + port
def linkOf (s : State) (l : Nat) : Link := (look s.links l).getD {}
def modLink (l : Nat) (f : Link → Link) (s : State) : State := { s with links := put s.links l (f (linkOf s l)) }
/-- R117: the flits of a packet of n bytes of data. -/
def flitsOf (n : Nat) : Nat := if n ≤ 16 then 1 else 1 + (n + 31) / 32
def requestFlits : AccOp → Nat
  | .write d => flitsOf d.length
  | .cas2 _ _ => 2
  | .chain _ => 4
  | .read _ => 1 | .amo _ _ _ => 1 | .cas _ _ _ => 1 | .fe _ _ => 1 | .bar _ _ _ => 1 | .shapepub _ _ => 1
/-- R117: a response without an answer is a bounce and carries its request. -/
def responseFlits (a : Access) : Nat :=
  match a.answer with
  | some (.data b _) => flitsOf b.length
  | some (.chained _ b) => flitsOf b.length
  | some _ => 1
  | none => min 4 (requestFlits a.op)
/-- R119: the packet has left the slot it held; a credit is owed. -/
def leaveInput (a : Access) (s : State) : State :=
  match slotAt a with
  | some (x, y, p, r) =>
    if p = 0 ∨ 8 ≤ p then s
    else modLink (linkKey x y p) (fun l => if r then { l with owedResp := l.owedResp + 1 } else { l with owedReq := l.owedReq + 1 }) s
  | none => s
def inputUse (s : State) (x y p : Nat) (r : Bool) : Nat := (s.accesses.filter fun b => decide (slotAt b.2 = some (x, y, p, r))).length
def flitList (id seq n : Nat) (resp : Bool) : List Flit :=
  (List.range n).map fun i => { seq := seq + i, id := id, resp := resp, head := decide (i = 0), last := decide (i + 1 = n) }
def isResponse (a : Access) : Bool :=
  match a.place with
  | .response _ _ _ _ => true | .out _ _ _ r => r
  | .request _ _ _ _ => false | .waiting => false | .target => false | .back => false | .fabric => false | .absorbed => false
def packetFlits (a : Access) : Nat := if isResponse a then responseFlits a else requestFlits a.op
/-- R118, R119, R122: a link takes a packet: it carries traffic, has a credit of the channel and room to replay it. -/
def linkTakes (l : Link) (a : Access) : Bool :=
  !l.held && decide (0 < (if isResponse a then l.credResp else l.credReq)) && decide (l.unacked.length + packetFlits a ≤ 128)
/-- R118: the link sent a packet of this channel last, and one of the other channel is ready for it. Where it has sent none
yet the response goes first (DESIGN CHOICE, log entry 105). -/
def otherTurn (s : State) (h : Nat × Nat × Nat) (resp : Bool) : Bool :=
  let l := linkOf s (linkKey h.1 h.2.1 h.2.2)
  decide (l.sentResp = resp) && s.accesses.any fun b => decide (isResponse b.2 ≠ resp) && decide (outLink s b.2 = some h) && atHead s b.1 b.2 && linkTakes l b.2
/-- R117 to R119, R122: a packet leaves its queue over a link. -/
def sendPacket (id : Nat) (a : Access) (h : Nat × Nat × Nat) (s : State) : State :=
  let resp := isResponse a
  let k := linkKey h.1 h.2.1 h.2.2
  let l := linkOf s k
  if ¬ linkTakes l a ∨ otherTurn s h resp then s
  else
    let fs := flitList id l.nextSeq (packetFlits a) resp
    let s := modLink k (fun l => { l with
      nextSeq := l.nextSeq + fs.length, wire := l.wire ++ fs, unacked := l.unacked ++ fs, sentResp := resp
      credReq := if resp then l.credReq else l.credReq - 1
      credResp := if resp then l.credResp - 1 else l.credResp }) (leaveInput a s)
    setAccess id { a with place := if resp then .response h.1 h.2.1 h.2.2 true else .request h.1 h.2.1 h.2.2 true } s

/-! Merging (R125 to R127). -/

def mergeable (o : AmoOp) : Bool :=
  match o with
  | .add => true | .and => true | .or => true | .xor => true | .min => true | .max => true | .minu => true | .maxu => true
  | .fadd => false | .swap => false
/-- R125, R127: a master on this package. -/
def ownMaster (s : State) (a : Access) : Bool := decide (a.master / 4096 = s.cfg.device) && decide (a.master % 4096 ≠ 3084)
def sameMerge (a b : Access) : Bool :=
  match a.op, b.op with
  | .amo o w _, .amo o' w' _ => decide (o = o') && mergeable o && decide (w = w') && decide (a.pa = b.pa ∧ a.host = b.host)
  | _, _ => false
/-- R125: the merge entries a router holds, one for each request that it absorbed. -/
def mergeEntries (s : State) (x y : Nat) : Nat := sumNat (s.accesses.map fun c => (c.2.merged.filter fun m => decide (m.2.2 = (x, y))).length)
/-- R125: two requests meet in a router and merge. -/
def mayMerge (s : State) (i : Nat) (a : Access) (j : Nat) (b : Access) : Bool :=
  match slotAt a, slotAt b with
  | some (x, y, p, false), some (u, v, q, false) =>
    decide (i ≠ j) && decide (p < 6 ∧ q < 6) && decide (x = u ∧ y = v) && decide (nextHop x y a.dst = nextHop x y b.dst) && sameMerge a b
      && ownMaster s a && ownMaster s b && !a.performed && !b.performed && decide (mergeEntries s x y < 16)
  | _, _ => false
def portNo (a : Access) : Nat := match slotAt a with | some (_, _, p, _) => p | none => 0
/-- R125: the first of a pair entered the buffers earlier, or by the lower port. -/
def entersFirst (i : Nat) (a : Access) (j : Nat) (b : Access) : Bool :=
  decide (a.entered < b.entered) || (decide (a.entered = b.entered) && (decide (portNo a < portNo b) || (decide (portNo a = portNo b) && decide (i < j))))
/-- R126, R276: the first request goes on with the two operands, cut to the width, combined, and remembers the second and its
own operand. -/
def mergeInto (i : Nat) (a : Access) (j : Nat) (b : Access) (s : State) : State :=
  match a.op, b.op, slotAt a with
  | .amo o w v, .amo _ _ u, some (x, y, _, _) =>
    let both := BitVec.ofNat 64 (amoNew o w.bytes (v.toNat % 2 ^ (8 * w.bytes)) u.toNat).1
    setAccess j { b with place := .absorbed } (setAccess i { a with op := .amo o w both, merged := a.merged ++ [(j, v, x, y)] } (leaveInput b s))
  | _, _, _ => s
def mergePartner (s : State) (id : Nat) (a : Access) : Option (Nat × Access) := s.accesses.find? fun b => mayMerge s id a b.1 b.2

/-! PACKET_ROUTE (R116, R118 to R120). -/

def isAmo (a : Access) : Bool := match a.op with
  | .amo _ _ _ => true
  | .read _ => false | .write _ => false | .cas _ _ _ => false | .cas2 _ _ => false | .fe _ _ => false | .bar _ _ _ => false | .shapepub _ _ => false | .chain _ => false
/-- R120, R205: the oldest buffered access of a thread enters the net when a response slot is free. An atomic that a router
might merge enters when the thread's earlier accesses have performed, so that a merge keeps their order (R126). -/
def injectWaiting (id : Nat) (a : Access) (s : State) : State :=
  if (s.accesses.any fun b => decide (b.1 < id) && decide (b.2.owner = a.owner) && decide (b.2.place = .waiting)) || !respRoom s a.owner 1
      || (isAmo a && mustWait s id a) then s
  else setAccess id (joinQueue s a (.out a.src.1 a.src.2 0 false)) s
/-- R118: the outputs that are no links between routers: the link from a router's own part into it, and that from it to the
part (`out`); `turns` holds those whose last packet was a response. -/
def turnKey (x y : Nat) (out : Bool) : Nat := 2 * (32 * y + x) + bit out
def noteTurn (key : Nat) (resp : Bool) (s : State) : State := { s with turns := if resp then addSet s.turns key else delSet s.turns key }
/-- R118: the packet that a router has ready for its own part: which router and which channel. -/
def readyLocal (s : State) (id : Nat) (a : Access) : Option (Nat × Nat × Bool) :=
  match a.place with
  | .request x y p false => if p < 6 ∧ atHead s id a ∧ outLink s a = none then some (x, y, false) else none
  | .response x y p false => if p < 6 ∧ returned s id a ∧ mergedAt a = none then some (x, y, true) else none
  | .request _ _ _ true => none | .response _ _ _ true => none
  | .out _ _ _ _ => none | .waiting => none | .target => none | .back => none | .fabric => none | .absorbed => none
/-- R118: the output to the part had a packet of this channel last, and one of the other channel is ready for it. -/
def localTurn (s : State) (x y : Nat) (resp : Bool) : Bool :=
  decide (s.turns.contains (turnKey x y true) = resp) && s.accesses.any fun b => decide (readyLocal s b.1 b.2 = some (x, y, !resp))
/-- R118: a packet that leaves a router for its own part takes its turn. -/
def mayLeave (s : State) (id : Nat) (a : Access) : Bool :=
  match readyLocal s id a with
  | some (x, y, r) => !localTurn s x y r
  | none => true
def noteLeave (id : Nat) (a : Access) (s : State) : State :=
  match readyLocal s id a with
  | some (x, y, r) => noteTurn (turnKey x y true) r s
  | none => s
/-- R118: the other channel's turn on the link from a part into its router. -/
def injectTurn (s : State) (x y : Nat) (resp : Bool) : Bool :=
  decide (s.turns.contains (turnKey x y false) = resp) && decide (inputUse s x y 0 (!resp) < 8)
    && s.accesses.any fun b => decide (b.2.place = .out x y 0 (!resp))
/-- R118, R119: a packet of a router's own part enters the router's local input when a slot is free. -/
def enterLocal (id : Nat) (a : Access) (x y : Nat) (resp : Bool) (s : State) : State :=
  if 8 ≤ inputUse s x y 0 resp ∨ injectTurn s x y resp then s
  else setAccess id (joinQueue s a (if resp then .response x y 0 false else .request x y 0 false)) (noteTurn (turnKey x y false) resp s)
/-- A request has come to the end of its way: its target, or the optical engine by which it leaves the package. -/
def arrive (id : Nat) (a : Access) (s : State) : State :=
  if exitPort s a = 7 then
    let u := enterFabric id a s
    if look u.accesses id = some a then s else leaveInput a u
  else if ¬ mayLeave s id a then s
  else setAccess id { a with place := .target } (leaveInput a (noteLeave id a s))
def evPacketRoute (id : Nat) (s : State) : State :=
  match look s.accesses id with
  | none => s
  | some a =>
    match a.place with
    | .waiting => injectWaiting id a s
    | .out x y p r =>
      if ¬ atHead s id a then s
      else (match outLink s a with
        | some h => sendPacket id a h s
        | none => if p = 0 then enterLocal id a x y r s else s)
    | .request _ _ _ false =>
      (match mergePartner s id a with
      | some (j, b) => if entersFirst id a j b then mergeInto id a j b s else mergeInto j b id a s
      | none =>
        if ¬ atHead s id a then s
        else match outLink s a with
          | some h => sendPacket id a h s
          | none => arrive id a s)
    | .response _ _ _ false =>
      if ¬ atHead s id a then s
      else (match outLink s a with
        | some h => sendPacket id a h s
        | none => s)
    | .back => if reachable s a.device && !(usablePaths s a.device).isEmpty && backInTurn s a then takeBack id a s else s
    | .request _ _ _ true => s | .response _ _ _ true => s
    | .target => s | .fabric => s | .absorbed => s

/-- R126: the second issuer's answer, from the old value and the first operand. -/
def splitAnswer (op : AccOp) (first : W64) (ans : Answer) : Answer :=
  match op, ans with
  | .amo o w _, .data b _ => .data (leBytes w.bytes (amoNew o w.bytes (leNat b) first.toNat).1) .none
  | _, r => r
/-- R126: the router that merged two requests splits their reply; the second takes a slot of its local input. -/
def evMergedReplySplit (id : Nat) (s : State) : State :=
  match look s.accesses id with
  | none => s
  | some a =>
    match a.answer, a.merged.getLast? with
    | some r, some (j, v, x, y) =>
      if ¬ returned s id a ∨ 8 ≤ inputUse s x y 0 true then s
      else
        let s := setAccess id { a with merged := a.merged.dropLast } s
        (match look s.accesses j with
        | some b => setAccess j { joinQueue s b (.response x y 0 false) with answer := some (splitAnswer a.op v r), performed := true, clock := a.clock } s
        | none => s)
    | _, _ => s
/-- R121: a bounced packet goes out again under the same response slot. -/
def evBounceReinject (id : Nat) (s : State) : State :=
  match look s.accesses id with
  | some a =>
    if a.answer.isNone && returned s id a && mayLeave s id a then setAccess id (joinQueue s a (.out a.src.1 a.src.2 (entryPort a.owner) false)) (leaveInput a (noteLeave id a s)) else s
  | none => s

/-! RESPONSE_RECEIVE (R112, R120, R143, R205, R376). -/

/-- R12, R207: the lines of an L1 of 128 KiB. -/
def l1Lines : Nat := 2048
/-- R207: a line that a thread has read enters its core's L1 with its lease, unless it has been written since; of a full L1
the line that entered longest ago gives way (log entry 85). -/
def fillLine (k : Nat) (a : Access) (s : State) : State :=
  let d := dirOf s a.pa
  if a.host || !isHbm a.pa || decide (a.clock < d.wtime) then s
  else
    let old := ((look s.l1 (coreOf k)).getD []).filter fun x => decide (x.1 ≠ a.pa / 64)
    { s with l1 := put s.l1 (coreOf k) (((a.pa / 64, d.lease) :: old).take l1Lines) }
/-- R304: a thread's clock follows its answers. -/
def takeAnswerClock (k : Nat) (a : Access) (s : State) : State := modThread k (fun t => { t with clock := max t.clock a.clock }) s
/-- R112, R143, R376: the trap of the consumer of an answer that is no data. -/
def answerPoison (a : Access) : Answer → Option Trap
  | .denied t => some (poisoned tAccessDenied 0 a.va t)
  | .unreachable => some (poisoned tPeerUnreachable 0 a.va (BitVec.ofNat 64 a.device))
  | .uncorrectable => some (eccPoison 1 a.pa)
  | .data _ _ => none | .ack => none | .stale _ => none | .timedOut => none | .launchFault _ _ => none | .chained _ _ => none
def notPerformed : Answer → Bool
  | .denied _ => true | .unreachable => true
  | .data _ _ => false | .ack => false | .uncorrectable => false | .stale _ => false | .timedOut => false | .launchFault _ _ => false | .chained _ _ => false
/-- R312, R315: a write that was not performed counts once for each line it touches. -/
def dropIf (k : Nat) (a : Access) (r : Answer) (s : State) : State :=
  if notPerformed r then countDrop k a.device (lineStarts a.pa (opBytes a.op)).length a.host s else s
/-- The answer's bytes, or the poison, reach the results under the tag. -/
def giveResult (k : Nat) (a : Access) (r : Answer) (s : State) : State :=
  match r with
  | .data b f => receiveTag k a.tag a.part (overlay b a.ownBytes) f none s
  | .denied _ => receiveTag k a.tag a.part [] .none (answerPoison a r) s
  | .unreachable => receiveTag k a.tag a.part [] .none (answerPoison a r) s
  | .uncorrectable => receiveTag k a.tag a.part [] .none (answerPoison a r) s
  | .ack => s | .stale _ => s | .timedOut => s | .launchFault _ _ => s | .chained _ _ => s
/-- R199, R295, R297: the answer of a wait, or the stale ticket of a barrier operation. -/
def giveWait (k : Nat) (a : Access) (r : Answer) (v : W64) (kind : BarKind) (s : State) : State :=
  match r with
  | .data b _ => answerWait k (nat64 b) none s
  | .ack => answerWait k 0 none s
  | .stale c => answerWait k 0 (some (staleTrap 0 c a.va v kind)) s
  | .timedOut => expireWait k s
  | .denied _ => answerWait k 0 (answerPoison a r) s
  | .unreachable => answerWait k 0 (answerPoison a r) s
  | .uncorrectable => answerWait k 0 (answerPoison a r) s
  | .launchFault _ _ => s
  | .chained _ _ => s
def threadAnswer (k : Nat) (a : Access) (r : Answer) (s : State) : State :=
  let s := takeAnswerClock k a s
  match a.op with
  | .read _ => giveResult k a r (match r with | .data _ _ => fillLine k a s | _ => s)
  | .write _ => dropIf k a r s
  | .amo _ _ _ => dropIf k a r (giveResult k a r s)
  | .cas _ _ _ => dropIf k a r (giveResult k a r s)
  | .cas2 _ _ => dropIf k a r (giveResult k a r s)
  | .fe _ _ => giveWait k a r 0 .query s
  | .bar .wait v _ => giveWait k a r v .wait s
  | .bar .query _ _ => giveResult k a r s
  | .bar kind v _ => (match r with
    | .stale c => addBoundary k (staleTrap 0xA c a.va v kind) s
    | _ => dropIf k a r s)
  | .shapepub n e => (match r with
    | .launchFault c _ => addBoundary k (trapOf tLaunchFault 0xA n (BitVec.ofNat 64 e) c) s
    | _ => s)
  | .chain _ => s
/-- R377: the slot of a killed thread is freed once its store buffer has drained. -/
def reapSlot (k : Nat) (s : State) : State :=
  match getThread s k with
  | some t => if t.life = .killed ∧ bufferUsed s k = 0 then freeSlot k s else s
  | none => s
/-- R183: a frame of a peer has been applied when each of its line accesses has. -/
def peerApplied (src id : Nat) (a : Access) (s : State) : State :=
  if a.buffered ∨ s.accesses.any (fun b => decide (b.2.owner = .peer src id)) then s
  else modPeer src (fun p => { p with appliedHere := bump p.appliedHere a.part }) s
/-- R136: the class of the frame that answers a peer's: ORD for an ORD frame, BULK for a copy's read or a chain's packet; a
write of a copy, or a flag, needs its acknowledgement alone. -/
def answerClass (a : Access) : Option FrameClass :=
  if a.buffered then some .ord
  else match a.op with
    | .read _ => some .bulk | .chain _ => some .bulk
    | .write _ => none | .amo _ _ _ => none | .cas _ _ _ => none | .cas2 _ _ => none | .fe _ _ => none | .bar _ _ _ => none | .shapepub _ _ => none
/-- R136 to R138, R143: when the last of its accesses has been answered, the answer of a peer's frame leaves as a frame, as
soon as one may; toward a peer that is out of reach it is dropped. -/
def answerPeer (src f id : Nat) (a : Access) (done s : State) : State :=
  let others := s.accesses.any fun b => decide (b.1 ≠ id) && decide (b.2.owner = .peer src f)
  match answerClass a with
  | none => peerApplied src f a done
  | some c =>
    if others || !reachable s src then peerApplied src f a done
    else if peerHeld s src then s
    else match basicPath s src with
      | none => s
      | some p => if frameRoom s src p c then frameOut src p none ⟨c, id, none, .basic⟩ (peerApplied src f a done) else s
/-- R120: a response is delivered and frees its slot or store-buffer entry; that of a chain is an event of its own. -/
def evResponseReceive (id : Nat) (s : State) : State :=
  match look s.accesses id with
  | none => s
  | some a =>
    match a.answer with
    | none => s
    | some r =>
      if ¬ returned s id a ∨ ¬ a.merged.isEmpty ∨ ¬ mayLeave s id a then s
      else
        let done := { leaveInput a (noteLeave id a s) with accesses := erase s.accesses id }
        match a.owner with
        | .thread k => reapSlot k (threadAnswer k a r done)
        | .engine k e i => lineAnswer k e i a r done
        | .chain _ _ => s
        | .host => (match r with
          | .data b _ => { done with hostAnswers := done.hostAnswers ++ [b] }
          | _ => done)
        | .peer src f => answerPeer src f id a done s
        | .gone => done

/-! Links (R119, R122, R123). -/

def headerEnters (f : Flit) (l : Link) : Link :=
  if ¬ f.head then l else if f.resp then { l with lastResp := f.seq + 1 } else { l with lastReq := f.seq + 1 }
/-- A packet whose last flit has come stands in the router's buffer. -/
def landPacket (f : Flit) (s : State) : State :=
  match look s.accesses f.id with
  | some a => (match a.place with
    | .request x y p true => setAccess f.id (joinQueue s a (.request x y p false)) s
    | .response x y p true => setAccess f.id (joinQueue s a (.response x y p false)) s
    | _ => s)
  | none => s
def evFlitReceive (n : Nat) (ok : Bool) (s : State) : State :=
  let l := linkOf s n
  if l.held then s
  else match l.wire with
    | [] => s
    | f :: rest =>
      if ok ∧ f.seq = l.expect then
        let s := modLink n (fun l => headerEnters f { l with wire := rest, expect := l.expect + 1, fails := 0 }) s
        if f.last then landPacket f s else s
      else modLink n (fun l => { l with wire := rest, replay := true }) s
/-- R122: the sender replays from the number asked for; after 16 replays without success the link is held. -/
def evReplayRequest (n : Nat) (s : State) : State :=
  let l := linkOf s n
  if ¬ l.replay ∨ l.held then s
  else if 16 ≤ l.fails then modLink n (fun l => { l with held := true, wire := [] }) s
  else modLink n (fun l => { l with replay := false, fails := l.fails + 1, wire := l.unacked.filter fun f => decide (l.expect ≤ f.seq) }) s
/-- A credit-sync flit and an acknowledgement travel the same way in order. -/
def evLinkAck (n : Nat) (s : State) : State :=
  let l := linkOf s n
  if l.syncReq.isSome ∨ l.syncResp.isSome then s
  else modLink n (fun l => { l with unacked := l.unacked.filter fun f => decide (l.expect ≤ f.seq) }) s
/-- R378: the package leaves service: its threads are killed, its saved and its speculative blocks run no more, its pending
nodes fail, its lanes fall silent. What the firmware logs for a kill that no trap caused has CODE 0 and no arguments (DESIGN
CHOICE, log entry 111). -/
def outOfService (s : State) : State :=
  if s.service ≠ .running then s
  else
    let s := s.threads.foldl (fun s t => killThread t.1 { code := 0 } s) { s with service := .outOfService }
    notePaths { s with
      nodes := s.nodes.map fun n => (n.1, { markFault 0xF s.cc true n.2 with redo := [] })
      contexts := [], parked := [], specLines := []
      lanes := s.lanes.map fun l => (l.1, { l.2 with tx := 0, txCode := 3, marker := none, replay := [] }) }
def evLinkRetrainDone (n : Nat) (ok : Bool) (s : State) : State :=
  let l := linkOf s n
  if ¬ l.held then s
  else if ok then modLink n (fun l => { l with held := false, replay := false, fails := 0, wire := l.unacked.filter fun f => decide (l.expect ≤ f.seq) }) s
  else outOfService s
def evCreditReturn (n : Nat) (resp : Bool) (s : State) : State :=
  let l := linkOf s n
  if resp then
    if l.owedResp = 0 ∨ l.syncResp.isSome ∨ 8 ≤ l.credResp then s else modLink n (fun l => { l with owedResp := l.owedResp - 1, credResp := l.credResp + 1 }) s
  else if l.owedReq = 0 ∨ l.syncReq.isSome ∨ 8 ≤ l.credReq then s else modLink n (fun l => { l with owedReq := l.owedReq - 1, credReq := l.credReq + 1 }) s
/-- R123: the packets that hold a slot of an input: buffered, or with a header received and flits to come. -/
def slotsHeld (s : State) (n : Nat) (resp : Bool) : Nat :=
  let l := linkOf s n
  inputUse s (n / 8 % 32) (n / 256) (n % 8) resp
    + (l.unacked.filter fun f => f.last && decide (f.resp = resp) && decide (l.expect ≤ f.seq)
        && decide (f.seq + 1 - (match look s.accesses f.id with | some a => (if resp then responseFlits a else requestFlits a.op) | none => 1) < l.expect)).length
/-- R123: every 256 cc; it carries the credits owed. -/
def evCreditSyncSend (n : Nat) (resp : Bool) (s : State) : State :=
  let l := linkOf s n
  if s.cc < (if resp then l.syncRespAt else l.syncReqAt) + 256 ∨ (if resp then l.syncResp.isSome else l.syncReq.isSome) then s
  else
    let free := 8 - slotsHeld s n resp
    modLink n (fun l => if resp then { l with syncResp := some (free, l.lastResp), owedResp := 0, syncRespAt := s.cc }
      else { l with syncReq := some (free, l.lastReq), owedReq := 0, syncReqAt := s.cc }) s
def headsAfter (l : Link) (resp : Bool) (n : Nat) : Nat := (l.unacked.filter fun f => f.head && decide (f.resp = resp) && decide (n ≤ f.seq)).length
def evCreditSyncReceive (n : Nat) (resp : Bool) (s : State) : State :=
  let l := linkOf s n
  if resp then
    match l.syncResp with
    | some (free, lastSeq) => modLink n (fun l => { l with syncResp := none, credResp := free - headsAfter l true lastSeq }) s
    | none => s
  else match l.syncReq with
    | some (free, lastSeq) => modLink n (fun l => { l with syncReq := none, credReq := free - headsAfter l false lastSeq }) s
    | none => s

/-! FENCE_LIMIT (R314). -/

/-- R314: a device, or the host, has been out of reach for FENCE_LIMIT. -/
def outOfReach (s : State) (a : Access) : Bool :=
  let since := if a.host then s.linkLostAt else (peerAt s a.device).lostAt
  decide (a.host ∨ a.device ≠ s.cfg.device) && (match since with | some c => decide (c + usCc 1000 ≤ s.cc) | none => false)
/-- R314: the accesses of a thread that wait for such a device or for the host. -/
def lostWrites (s : State) (k : Nat) : List Nat :=
  (s.accesses.filter fun a => decide (ownerSlot a.2.owner = some k) && a.2.answer.isNone && outOfReach s a.2 && (match a.2.place with
    | .fabric => true | .waiting => true | .target => true
    | .request _ _ p false => decide (6 ≤ p)
    | .request _ _ _ true => false | .response _ _ _ _ => false | .out _ _ _ _ => false | .back => false | .absorbed => false)).map Prod.fst
def evFenceLimitExpiry (k : Nat) (s : State) : State :=
  match getThread s k with
  | none => s
  | some t =>
    match t.wait with
    | none => s
    | some w =>
      if w.kind ≠ .fence then s
      else (lostWrites s k).foldl (fun s id => answerLost id { (match look s.accesses id with | some a => leaveInput a s | none => s) with frames := s.frames.filter fun f => decide (f.2.access ≠ id) }) s

end Sys2Proof.Machine
end

