-- ==== Sys2Proof/Machine/ChainRun.lean ====
section
/-! DEFINITION. The run of a chained load and the return of its answer (R283 to R287). Its packet is an access that stands at
the tile that translates its next address, or at the home of its next read. Another device translates a chain's addresses
as the issuer's tables do (R283; log entry 39). -/

namespace Sys2Proof.Machine

/-- R284: the chain ends with a status. -/
def endChain (id code : Nat) (p : ChainPacket) (data : List Byte) (s : State) : State := answerAccess id (.chained (chainStatus code p) data) s
/-- R90, R283: the translation where the packet stands: the tile's TLBs, or a walk, which counts and fills. -/
def chainTranslate (a : Access) (p : ChainPacket) (s : State) : Found × State :=
  let here := decide (a.device = s.cfg.device)
  let tile := paTile a.pa
  let asid := if systemHalf p.cur then 0 else p.asid
  match (if here then ((look s.tlb2 tile).getD []).find? fun e => e.hits asid p.cur else none) with
  | some e => (.leaf e.leaf e.level, s)
  | none =>
    let r := walkTables s a.master asid p.cur
    let s := r.2.foldl (fun s x => countLine x a.device (if here then some tile else none) s) s
    (r.1, match r.1 with
      | .leaf l n =>
        let size := leafSize n
        let e : Tlb := { asid := asid, base := p.cur.toNat / size.bytes * size.bytes, size := size, leaf := l, level := n }
        if here then { s with tlb2 := put s.tlb2 tile ((e :: (look s.tlb2 tile).getD []).take 2048) } else s
      | .fault _ _ => s)
/-- R283: the checks of the leaf for the read of the next step: the fault code, or the physical address. -/
def chainLeaf (s : State) (p : ChainPacket) (w : W64) (level : Nat) : Except Nat Nat :=
  let pa := bits w.toNat 16 40 * 2 ^ 16 + p.cur.toNat % (leafSize level).bytes
  if ¬ flag w.toNat 2 ∨ (flag w.toNat 6 ∧ ¬ p.sys) then .error csPerm
  else if (if p.step = p.nsteps then decide (64 < p.cur.toNat % 64 + p.flen) else decide (p.cur.toNat % 8 ≠ 0)) then .error csAlign
  else if bits w.toNat 62 2 ≠ 0 ∨ ¬ isHbm (redirect s pa) then .error csTarget
  else .ok (redirect s pa)
/-- R283: the physical address of the next read, or the code that ends the chain. Of several failures the first in the order of
this text is reported (DESIGN CHOICE, log entry 108). -/
def chainNext (a : Access) (p : ChainPacket) (s : State) : Except Nat Nat × State :=
  if ¬ canonical p.cur then (.error csTrans, s)
  else if systemHalf p.cur && !p.sys then (.error csPerm, s)
  else
    let r := chainTranslate a p s
    match r.1 with
    | .fault _ _ => (.error csTrans, r.2)
    | .leaf w level => (chainLeaf s p w level, r.2)
/-- R113, R121, R283, R284: the packet goes, with the refusal of the table there, to the home of its next read: from the issuer as a request, from a home by one of its
forward entries or, with none free, back to its master as a bounce; from another device over the fabric. -/
def forwardChain (id : Nat) (a : Access) (p : ChainPacket) (pa : Nat) (s : State) : State :=
  let dev := paDevice pa
  let own := s.cfg.device
  let b := { a with
    pa := pa, tag := 1, asid := if systemHalf p.cur then 0 else p.asid, va := p.cur, device := dev
    denied := if dev = own then refuse s a.master pa (opBytes (.chain p)) rightR else none
    dst := if dev = own then targetRouter pa a.dst.2 else engineRouter (directEngine dev) }
  let hop := { p with hops := p.hops + 1 }
  if ¬ reachable s dev then endChain id csPeer p [] s
  else if a.device ≠ own then
    if dev = a.device then setAccess id { b with denied := a.denied } s
    else if 16 < hop.hops then endChain id csHops p [] s
    else if dev = own then
      let e := engineRouter (groupOf a.device)
      setAccess id { joinQueue s b (.out e.1 e.2 7 false) with op := .chain hop, dst := targetRouter pa e.2 } s
    else setAccess id { b with op := .chain hop, denied := if Config.peerAllows s.freeCount then none else some 0 } { s with freeCount := s.freeCount + 1 }
  else if p.step = 0 ∧ a.asid = 65536 then setAccess id (joinQueue s b (.out a.src.1 a.src.2 0 false)) s
  else if dev = own ∧ sliceNo pa = sliceNo a.pa then setAccess id b s
  else if forwarded s (sliceNo a.pa) < 16 then setAccess id { joinQueue s b (.out a.dst.1 a.dst.2 0 false) with forward := some (sliceNo a.pa) } s
  else setAccess id (joinQueue s b (.out a.dst.1 a.dst.2 0 true)) s
/-- R111, R113, R283: the home's table refused the issuer's read, as it stood when the packet was sent there. -/
def chainRefused (a : Access) : Bool := a.denied.isSome
/-- R104, R106, R283: the read at the home. -/
def readChain (id : Nat) (a : Access) (p : ChainPacket) (s : State) : State :=
  let n := opBytes a.op
  if chainRefused a then
    let s := endChain id csDenied p [] s
    if isHostOrPeer s a.master then dropRecord a.master a.pa rightR s else s
  else match movedPa s a.pa with
    | some new => forwardAccess id a new (countAccess a s)
    | none =>
      let s := countAccess a s
      if lineBad s a.pa n then endChain id csUncorr p [] s
      else
        let b := readPa s a.pa n
        let s := (leaseRead a.pa a.clock s).2
        if p.step = p.nsteps then endChain id csDone p b s
        else
          let cur := (nat64 b &&& p.masks.getD p.step 0) + BitVec.ofInt 64 (p.offs.getD p.step 0)
          setAccess id { a with op := .chain { p with step := p.step + 1, cur := cur }, tag := 0, asid := 65536, va := 0, forward := none } s
/-- R283: the packet is to make its step `k`. -/
def atStep (s : State) (id k : Nat) : Bool :=
  match (look s.accesses id).bind packetOf with
  | some p => decide (p.step = k)
  | none => false
/-- R285: the answer is one for entry `k` of the thread that issued the chain. -/
def forEntry (s : State) (id k : Nat) : Bool :=
  match look s.accesses id with
  | none => false
  | some a =>
    match a.owner with
    | .chain _ i => decide (i = k)
    | _ => false
/-- R353: a speculative block's chain that would go on to another device is held where it stands. -/
def stepHeld (s : State) (a : Access) (pa : Nat) : Bool :=
  decide (a.device = s.cfg.device) && decide (paDevice pa ≠ s.cfg.device) && (match ownerSlot a.owner with
    | some k => (match getThread s k with | some t => t.spec | none => false)
    | none => false)
/-- R283: one step of a packet where it stands. A packet of another device's chain that has gone on to a third is that
device's. -/
def evChainStep (id : Nat) (s : State) : State :=
  match look s.accesses id with
  | none => s
  | some a =>
    match packetOf a with
    | none => s
    | some p =>
      if a.place ≠ .target ∨ a.performed then s
      else if a.void then answerAccess id .ack s
      else if a.device ≠ s.cfg.device ∧ a.master / 4096 ≠ s.cfg.device then { s with accesses := erase s.accesses id }
      else if a.tag = 1 then readChain id a p s
      else
        let r := chainNext a p s
        match r.1 with
        | .error code => endChain id code p [] r.2
        | .ok pa => if stepHeld s a pa then s else forwardChain id a p pa r.2
/-- R285, R286: the issuer's core writes the answer of a pending entry of the window's generation. -/
def landChain (k i gen : Nat) (r : W64 × List Byte) (s : State) : State :=
  match getThread s k with
  | none => s
  | some t =>
    match look t.chains i with
    | none => s
    | some c =>
      if c.state ≠ .pending ∨ c.gen ≠ gen ∨ gen ≠ t.windowGen then s
      else
        let stat := scratchPa s (coreOf k) c.stat
        let dest := scratchPa s (coreOf k) c.dest
        let status := fun (s : State) => setFull stat true (writePa stat (bytes64 r.1) s)
        if r.1.toNat / 2 ^ 60 = csDone then
          modThread k (fun t => { t with chains := erase t.chains i }) (status (setFulls true dest (c.flen / 8) (writePa dest r.2 s)))
        else status (setThread s k { t with chains := put t.chains i { c with state := .faulted, word := r.1 } })
/-- R285: the answer of a chain has come back; it is written by way of the packet-net interface of the core. -/
def evChainReturn (id : Nat) (s : State) : State :=
  match look s.accesses id with
  | none => s
  | some a =>
    match a.owner, packetOf a, a.answer with
    | .chain k i, some p, some r =>
      if ¬ returned s id a ∨ ¬ mayLeave s id a then s
      else
        let done := { leaveInput a (noteLeave id a s) with accesses := erase s.accesses id }
        (match chainAnswer p r, chainLanding s a with
        | some x, some (c, ls) => throughPort c netRequester ls (fun s => landChain k i a.part x { leaveInput a (noteLeave id a s) with accesses := erase s.accesses id }) s
        | _, _ => done)
    | _, _, _ => s

end Sys2Proof.Machine
end

