-- ==== Sys2Proof/Machine/Hub.lean ====
section
/-! DEFINITION. The hub: its reads and writes in an address space, node descriptors, launches, cohort requests,
dispatch, completion and the resolution of shapes (R325, R328, R329, R333 to R336, R339 to R362). -/

namespace Sys2Proof.Machine

/-! Accesses of the hub in an address space (R299, R334). -/

/-- R86, R88, R334: the leaf of an address for a master: its word and level; the walk counts as lines read by the master's
tile (R104). -/
def hubWalk (asid master : Nat) (va : W64) (s : State) : Option (W64 × Nat) × State :=
  if ¬ canonical va then (none, s)
  else
    let r := walkTables s master (if systemHalf va then 0 else asid) va
    let s := r.2.foldl (fun s a => countLine a s.cfg.device (masterTile master) s) s
    (match r.1 with | .leaf w l => some (w, l) | .fault _ _ => none, s)
/-- The physical address of a byte by its leaf, and whether it is host memory. -/
def leafPlace (s : State) (va : W64) (w : W64) (l : Nat) : Nat × Bool :=
  let pa := bits w.toNat 16 40 * 2 ^ 16 + va.toNat % (leafSize l).bytes
  if bits w.toNat 62 2 = 1 then (pa, true) else (redirect s pa, false)
/-- R88, R111: n bytes within one line, by a master that needs the leaf bit `need` and the right. -/
def hubPlace (asid master : Nat) (sys : Bool) (need : Nat) (r : Right) (va : W64) (n : Nat) (s : State) : Option (Nat × Bool) × State :=
  match hubWalk asid master va s with
  | (none, s) => (none, s)
  | (some (w, l), s) =>
    let p := leafPlace s va w l
    if ¬ flag w.toNat need ∨ (flag w.toNat 6 ∧ ¬ sys) then (none, s)
    else if p.2 then (if s.linkUp then some p else none, s)
    else if paDevice p.1 = s.cfg.device then
      (if (refuse s master p.1 n r).isSome ∨ lineBad s p.1 n then none else some p, s)
    else (if reachable s (paDevice p.1) && Config.peerAllows s.freeCount then some p else none, { s with freeCount := s.freeCount + 1 })
/-- The pieces of n bytes from an address by line. -/
def hubPieces (va : W64) (n : Nat) : List (W64 × Nat) := (linePieces va.toNat n).map fun p => (BitVec.ofNat 64 p.1, p.2)
/-- R299: an ordinary read; nothing when some byte of it may not be read. -/
def hubRead (asid master : Nat) (sys : Bool) (va : W64) (n : Nat) (s : State) : Option (List Byte) × State :=
  (hubPieces va n).foldl (fun (acc : Option (List Byte) × State) p =>
    match acc.1 with
    | none => acc
    | some b =>
      match hubPlace asid master sys 2 rightR p.1 p.2 acc.2 with
      | (none, s) => (none, s)
      | (some (pa, host), s) =>
        (some (b ++ (if host then readHost s pa p.2 else readPa s pa p.2)),
          if host then s else (leaseRead pa 0 (countLine pa s.cfg.device (masterTile master) s)).2)) (some [], s)
/-- R318: some byte of an access of the hub lies in a window that a speculative block keeps closed; `slot` is the slot of the
thread for which it is made. -/
def hubHeld (s : State) (slot : Option Nat) (asid master : Nat) (va : W64) (n : Nat) : Bool :=
  (hubPieces va n).any fun p => match (hubWalk asid master p.1 s).1 with
    | some (w, l) => !(leafPlace s p.1 w l).2 && closedTo s slot (leafPlace s p.1 w l).1 p.2
    | none => false
/-- One ordinary write within a line; whether it was performed. -/
def hubWrite (asid master : Nat) (va : W64) (b : List Byte) (s : State) : Bool × State :=
  match hubPlace asid master false 3 rightW va b.length s with
  | (none, s) => (false, s)
  | (some (pa, host), s) =>
    (true, if host then writeHost pa b s
      else writePa pa b (grantWrite pa master 0 (countLine pa s.cfg.device (masterTile master) s)).2)

/-! Node descriptors (R335). -/

def descSucc (b : List Byte) (k : Nat) : Nat := fieldAt b (128 + 4 * k) 4
def parseDesc (b : List Byte) : Desc :=
  let f := fieldAt b 12 1
  { entry := BitVec.ofNat 64 (fieldAt b 0 8), gx := fieldAt b 8 2, gy := fieldAt b 10 2, prio := f % 4, lock := flag f 2, shape := flag f 3
    policy := bits f 4 2, circ := flag f 6, strict := flag f 7, slots := fieldAt b 13 1, pred := fieldAt b 14 2
    scratch := fieldAt b 16 2, acccols := fieldAt b 18 2, wdata := fieldAt b 20 2, whdr := fieldAt b 22 2, sig := fieldAt b 24 4
    floor := fieldAt b 28 2, ceil := fieldAt b 30 2, pin := fieldAt b 32 2, perblk := fieldAt b 36 4
    pool := BitVec.ofNat 64 (fieldAt b 40 8), cprog := BitVec.ofNat 64 (fieldAt b 48 8), cplen := fieldAt b 56 4
    args := (List.range 8).map fun i => BitVec.ofNat 64 (fieldAt b (64 + 8 * i) 8)
    succ := (List.range (fieldAt b 34 1)).map fun k => (bits (descSucc b k) 0 13, bits (descSucc b k) 13 8, flag (descSucc b k) 31)
    oper := (List.range (fieldAt b 35 1)).map fun j => (BitVec.ofNat 64 (fieldAt b (160 + 16 * j) 8), signedOf 32 (fieldAt b (168 + 16 * j) 4))
    comp := BitVec.ofNat 64 (fieldAt b 192 8) }
/-- R335: what a descriptor must meet; `host` says that it stands in a host command's node table. -/
def descOk (b : List Byte) (host : Bool) : Bool :=
  let d := parseDesc b
  let ns := fieldAt b 34 1
  let no := fieldAt b 35 1
  decide (d.entry.toNat % 16 = 0) && decide (1 ≤ d.gx) && decide (1 ≤ d.gy) && decide (1 ≤ d.slots) && decide (d.slots ≤ 4)
    && decide (d.pred ≤ 8191) && decide (d.scratch ≤ 256) && decide (d.acccols ≤ 512) && decide (d.wdata ≤ 1024) && decide (d.whdr ≤ 1024)
    && decide (ns ≤ 8) && decide (no ≤ 2) && decide (d.perblk % 64 = 0) && decide (d.pool.toNat % 16 = 0) && decide (d.comp.toNat % 8 = 0)
    && (decide (d.pool ≠ 0) || decide (d.perblk = 0))
    && zeroAt b 60 4 && zeroAt b 172 4 && zeroAt b 188 4 && zeroAt b 200 56
    && (List.range 8).all (fun k => decide (bits (descSucc b k) 21 10 = 0) && (host || !flag (descSucc b k) 31) && (decide (k < ns) || decide (descSucc b k = 0)))
    && (List.range 2).all (fun j => decide (j < no) || zeroAt b (160 + 16 * j) 12)
    && (if d.shape then decide (d.gy = 1) && !d.lock && decide (d.floor ≤ d.ceil) && decide (d.gx = d.ceil)
        else decide (d.floor = 0) && decide (d.ceil = 0) && decide (d.policy = 0))
    && (if d.shape && decide (d.policy = 2) then decide (d.floor ≤ d.pin) && decide (d.pin ≤ d.ceil) else decide (d.pin = 0))
    && (!d.lock || decide (d.gx * d.gy ≤ 768))
    && (if d.circ then d.lock && decide (1 ≤ d.cplen) && decide (d.cplen ≤ 65536) else decide (d.cprog = 0) && decide (d.cplen = 0))
    && (!d.strict || decide (1 ≤ no))

/-! Nodes and ready lists (R333, R341). -/

def genOf (s : State) (id : Nat) : Nat := (look s.gens id).getD 0
def handleOfNode (id : Nat) (x : Node) : W64 := nodeWord ⟨id, x.gen⟩
def modNode (id : Nat) (f : Node → Node) (s : State) : State :=
  match look s.nodes id with
  | some x => { s with nodes := put s.nodes id (f x) }
  | none => s
def listOf (s : State) (p : Nat) : List Nat := s.readyLists.getD p []
/-- R341: a node enters at the tail of its list. -/
def makeReady (id : Nat) (s : State) : State :=
  match look s.nodes id with
  | some x => { modNode id (fun x => { x with ready := true, readyAt := s.cc }) s with
      readyLists := s.readyLists.set x.desc.prio (listOf s x.desc.prio ++ [id]) }
  | none => s
def offLists (id : Nat) (s : State) : State := { s with readyLists := s.readyLists.map fun l => l.filter fun x => decide (x ≠ id) }
/-- R345, R357: a node enters at the head of its list. -/
def toHead (id : Nat) (s : State) : State :=
  match look s.nodes id with
  | some x => let u := offLists id s; { u with readyLists := u.readyLists.set x.desc.prio (id :: listOf u x.desc.prio) }
  | none => s
/-- R333: a free entry of the launch table. -/
def entryFree (s : State) (id : Nat) : Bool := decide (id < 8192) && (look s.nodes id).isNone
/-- R339, R341: a node takes an entry; with no predecessors it is ready. -/
def createNode (id asid : Nat) (d : Desc) (args : List W64) (launcher : Option (Nat × Nat)) (command : Option Nat) (s : State) : State :=
  let x : Node := { gen := genOf s id, asid := asid, desc := d, args := args, count := d.pred, launcher := launcher, command := command
                    final := if d.shape then none else some d.gx }
  let s := { s with nodes := put s.nodes id x }
  if d.pred = 0 then makeReady id s else s
/-- R349: a fault of the node: no further block of it runs, and the launching thread learns of it. -/
def nodeFault (id cause : Nat) (s : State) : State :=
  match look s.nodes id with
  | none => s
  | some x =>
    let s := offLists id (modNode id (markFault cause s.cc true) s)
    match x.launcher with
    | none => s
    | some (_, who) =>
      match s.threads.find? fun t => decide (t.2.dispatched = who) with
      | some (j, _) =>
          addBoundary j (trapOf tLaunchFault 0xA (handleOfNode id x) (BitVec.ofNat 64 (if x.desc.shape then x.final.getD x.predicted else x.desc.gx)) cause) s
      | none => s

/-! LAUNCH_REQUEST and LAUNCH_WAIT_TIMEOUT (R339). -/

def statusWord (code : Nat) (h : W64) : W64 := word64 [(code, 60), (h.toNat, 0)]
def isLaunch (r : HubReq) : Bool := match r.ask with | .launch _ _ _ _ => true | .join _ _ _ => false | .leave _ => false | .query _ => false
def asksCohort (r : HubReq) : Bool := match r.ask with | .join _ _ _ => true | .leave _ => true | .launch _ _ _ _ => false | .query _ => false
def dropReq (tag : Nat) (s : State) : State := { s with hubReqs := s.hubReqs.filter fun r => decide (r.tag ≠ tag) }
def answerReq (r : HubReq) (w : W64) (p : Post) (s : State) : State := answerTag r.slot r.tag (.scalar (.val w)) p (dropReq r.tag s)
/-- R302: an earlier access of the thread has not performed. -/
def reqMustWait (s : State) (r : HubReq) : Bool :=
  s.accesses.any fun a => decide (a.2.owner = .thread r.slot) && decide (a.1 < r.tag) && !a.2.host && !a.2.performed && a.2.answer.isNone
/-- R339, R340: a launch that begins to wait for an entry keeps what it has read, and its limit counts from then. -/
def beginWait (d : Desc) (args : List W64) (cc : Nat) (x : HubReq) : HubReq :=
  match x.ask with
  | .launch _ _ _ n => { x with kept := some (d, args), deadline := if x.kept.isSome then x.deadline else if n = 0 then none else some (cc + n) }
  | .join _ _ _ => x | .leave _ => x | .query _ => x
/-- R339: a launch whose reads are done takes an entry; with none free `launch.w` keeps its reads and waits. -/
def takeEntry (k id : Nat) (r : HubReq) (wait : Bool) (d : Desc) (args : List W64) (s : State) : State :=
  if 8192 ≤ s.nodes.length then
    if wait then { s with hubReqs := s.hubReqs.map fun x => if x.tag = r.tag then beginWait d args s.cc x else x }
    else answerReq r (statusWord 1 0) .none s
  else if ¬ entryFree s id then s
  else
    let w := nodeWord ⟨id, genOf s id⟩
    answerReq r (statusWord 0 w) .none
      (modThread k (fun t => { t with names := t.names.filter fun n => decide (n.1 ≠ w) }) (createNode id r.asid d args (some (k, r.who)) none s))
def evLaunchRequest (k id : Nat) (s : State) : State :=
  match s.hubReqs.find? fun r => decide (r.slot = k) && isLaunch r with
  | none => s
  | some r =>
    match r.ask, r.kept with
    | .launch _ _ w _, some (d, args) => takeEntry k id r w d args s
    | .launch a b w _, none =>
      if reqMustWait s r || hubHeld s (some k) r.asid (threadMaster s k) a 256 || (decide (b ≠ 0) && hubHeld s (some k) r.asid (threadMaster s k) b 64) then s
      else
        let d := hubRead r.asid (threadMaster s k) r.sys a 256 (tickClock k s)
        let g := if b = 0 then (some [], d.2) else hubRead r.asid (threadMaster s k) r.sys b 64 d.2
        (match d.1, g.1 with
        | some db, some gb =>
          let args := if b = 0 then (parseDesc db).args else (List.range 8).map fun i => BitVec.ofNat 64 (fieldAt gb (8 * i) 8)
          if a.toNat % 64 ≠ 0 ∨ b.toNat % 8 ≠ 0 ∨ ¬ descOk db false then answerReq r (statusWord 2 0) .none g.2
          else takeEntry k id r w (parseDesc db) args g.2
        | _, _ => answerReq r (statusWord 3 0) .none g.2)
    | .join _ _ _, _ => s
    | .leave _, _ => s
    | .query _, _ => s
/-- R339: the limit of a `launch.w` that waits for an entry passes with none free. -/
def evLaunchWaitTimeout (k : Nat) (s : State) : State :=
  match s.hubReqs.find? fun r => decide (r.slot = k) && isLaunch r with
  | none => s
  | some r =>
    match r.ask with
    | .launch _ _ true _ => if r.kept.isSome ∧ passed s r.deadline ∧ 8192 ≤ s.nodes.length then answerReq r (statusWord 4 0) .none s else s
    | _ => s
/-- R363: the hub answers a `shapeq` with the word that it then holds, in a cc after that of the request that the spec leaves
open (log entry 95). -/
def queryDue (s : State) (r : HubReq) : Bool :=
  (match r.ask with | .query _ => true | .launch _ _ _ _ => false | .join _ _ _ => false | .leave _ => false)
    && decide (r.asked < s.cc) && decide (r.asked + Config.hubDelay r.tag ≤ s.cc)
def answerQueries (s : State) : State :=
  (s.hubReqs.filter (queryDue s)).foldl (fun s r => match r.ask with
    | .query w => answerReq r (shapeWord s w) .none s
    | .launch _ _ _ _ => s | .join _ _ _ => s | .leave _ => s) s

/-! COHORT_REQUEST (R328 to R330). -/

def cohortStatus (code members rank id : Nat) : W64 := word64 [(code, 60), (members, 32), (rank, 16), (id, 0)]
/-- R328: an id is free when no cohort has it. -/
def cohortFree (s : State) (id : Nat) : Bool := decide (id < 4096) && (look s.cohorts id).isNone
/-- A member is added; it counts toward L from the push of its status (R329). -/
def addMember (k id rank : Nat) (founder : Bool) (s : State) : State :=
  let s := match look s.cohorts id with
    | some c => { s with cohorts := put s.cohorts id { c with members := c.members ++ [(k, rank)] } }
    | none => s
  modThread k (fun t => { t with cohort := some { id := id, rank := rank, counts := false, founder := founder } }) s
def memberCount (s : State) (id : Nat) : Nat := match look s.cohorts id with | some c => c.members.length | none => 0
/-- R329: a join; the order in which the refusals are tried is a DESIGN CHOICE (log entry 40). -/
def doJoin (r : HubReq) (a : W64) (new lock : Bool) (id : Nat) (s : State) : State :=
  let c := bits a.toNat 0 12
  match cohortOf s r.slot with
  | some x =>
    let rank := ((x.2.members.find? fun m => decide (m.1 = r.slot)).map Prod.snd).getD 0
    answerReq r (cohortStatus 4 x.2.members.length rank x.1) .none s
  | none =>
    if new then
      if 4096 ≤ s.cohorts.length then answerReq r (cohortStatus 1 0 0 0) .none s
      else if ¬ cohortFree s id then s
      else answerReq r (cohortStatus 0 1 0 id) (.joined id) (addMember r.slot id 0 true { s with cohorts := put s.cohorts id { lock := lock, asid := r.asid, members := [] } })
    else match look s.cohorts c with
      | none => answerReq r (cohortStatus 2 0 0 c) .none s
      | some x =>
        let refuse := fun (code : Nat) => answerReq r (cohortStatus code x.members.length 0 c) .none s
        if x.asid ≠ r.asid then refuse 5
        else if x.lock ≠ lock then refuse 3
        else if 768 ≤ x.members.length then refuse 6
        else answerReq r (cohortStatus 0 (x.members.length + 1) (leastRank x.members) c) (.joined c) (addMember r.slot c (leastRank x.members) false s)
/-- R329, R332: the hub's action of a `leave`; the thread counts for the lockstep rule until the push of its status. -/
def removeMember (k c : Nat) (s : State) : State :=
  leaveCohort k c (modThread k (fun t => match t.cohort with
    | some m => if m.id = c then { t with cohort := none, leaving := t.leaving ++ [m] } else t
    | none => t) s)
def doLeave (r : HubReq) (a : W64) (s : State) : State :=
  let c := bits a.toNat 0 12
  match look s.cohorts c with
  | some x =>
    if x.members.any fun m => decide (m.1 = r.slot) then answerReq r (cohortStatus 0 (x.members.length - 1) 0 c) (.left c) (removeMember r.slot c s)
    else answerReq r (cohortStatus 2 x.members.length 0 c) .none s
  | none => answerReq r (cohortStatus 2 0 0 c) .none s
def evCohortRequest (k id : Nat) (s : State) : State :=
  match s.hubReqs.find? fun r => decide (r.slot = k) && asksCohort r with
  | none => s
  | some r =>
    match getThread s k with
    | none => dropReq r.tag s
    | some t =>
      if t.dispatched ≠ r.who ∨ t.life ≠ .running then dropReq r.tag s
      else match r.ask with
        | .join a new lock => doJoin r a new lock id s
        | .leave a => doLeave r a s
        | .launch _ _ _ _ => s
        | .query _ => s

/-! Places (R342, R344). -/

/-- What a resident, or a placement, uses of its core: scratchpad, weight data and weight header units. -/
structure Use where
  slot : Nat
  scr : Nat × Nat
  data : Nat × Nat
  hdr : Nat × Nat
  deriving DecidableEq, Repr
def useOf (k : Nat) (t : Thread) : Use :=
  let w := t.sys.wgtwin.toNat
  { slot := k, scr := (bits t.sys.scrwin.toNat 12 8, bits t.sys.scrwin.toNat 32 9), data := (bits w 0 10, bits w 10 11), hdr := (bits w 22 10, bits w 32 11) }
def placeUse (d : Desc) (p : Placement) : Use := { slot := p.slot, scr := (p.scr, d.scratch), data := (p.dbase, d.wdata), hdr := (p.hbase, d.whdr) }
def apart (a b : Nat × Nat) : Bool := decide (a.1 + a.2 ≤ b.1) || decide (b.1 + b.2 ≤ a.1)
/-- R318, R355: the window of a halted speculative block is in use, though its slot is free. -/
def parkedUse (p : Parked) : Use := { slot := 768, scr := (bits p.scrwin.toNat 12 8, bits p.scrwin.toNat 32 9), data := (0, 0), hdr := (0, 0) }
/-- Two uses of one core that do not meet. -/
def useApart (a b : Use) : Bool := decide (a.slot ≠ b.slot) && apart a.scr b.scr && apart a.data b.data && apart a.hdr b.hdr
/-- R344: what is used or reserved on a core, as a node sees it. -/
def usesOn (s : State) (id core : Nat) : List Use :=
  ((s.threads.filter fun x => decide (coreOf x.1 = core)).map fun x => useOf x.1 x.2)
    ++ ((s.parked.filter fun p => decide (coreOf p.slot = core)).map parkedUse)
    ++ (match s.reservation with
      | some r => if r.node = id then [] else (match look s.nodes r.node with
          | some x => (r.places.map (placeUse x.desc)).filter fun u => decide (coreOf u.slot = core)
          | none => [])
      | none => [])
def blocksOn (s : State) (n : NodeRef) (core : Nat) : Nat := (s.threads.filter fun x => decide (coreOf x.1 = core) && decide (x.2.node = n)).length
/-- A placement is in range and meets nothing. -/
def placeOk (us : List Use) (d : Desc) (p : Placement) : Bool :=
  decide (p.slot < 768) && decide (p.scr < 256) && decide (p.dbase < 1024) && decide (p.hbase < 1024)
    && decide (p.scr + d.scratch ≤ 256) && decide (p.dbase + d.wdata ≤ 1024) && decide (p.hbase + d.whdr ≤ 1024)
    && us.all fun u => useApart u (placeUse d p)
/-- The first place for n units among ranges in use. -/
def freeBase (used : List (Nat × Nat)) (n limit : Nat) : Option Nat :=
  (0 :: used.map fun u => u.1 + u.2).find? fun b => decide (b < limit) && decide (b + n ≤ limit) && used.all fun u => apart u (b, n)
/-- R342: some placement of a block of the node on a core, given what is used. -/
def fitOn (us : List Use) (d : Desc) (held core : Nat) : Option Placement :=
  if d.slots ≤ held then none
  else match (coreSlots core).find? fun k => us.all fun u => decide (u.slot ≠ k), freeBase (us.map Use.scr) d.scratch 256,
      freeBase (us.map Use.data) d.wdata 1024, freeBase (us.map Use.hdr) d.whdr 1024 with
    | some k, some a, some b, some c => some ⟨k, a, b, c⟩
    | _, _, _, _ => none
def coreFits (s : State) (id : Nat) (x : Node) (core : Nat) : Bool := (fitOn (usesOn s id core) x.desc (blocksOn s ⟨id, x.gen⟩ core) core).isSome
/-- R342: the cores that operand j names for block b. -/
def namedCores (s : State) (x : Node) (b j : Nat) : List Nat :=
  match x.desc.oper[j]? with
  | none => []
  | some o =>
    let va := o.1 + BitVec.ofInt 64 (o.2 * ((b % x.desc.gx : Nat) : Int))
    match (hubWalk x.asid (firmwareMaster s) va s).1 with
    | none => []
    | some (w, l) =>
      let pa := bits w.toNat 16 40 * 2 ^ 16 + va.toNat % (leafSize l).bytes
      if bits w.toNat 62 2 ≠ 0 ∨ paDevice pa ≠ s.cfg.device then []
      else match regionOf pa with
        | .hbm => (List.range 12).map fun i => 12 * paTile pa + i
        | .scratch c _ => [12 * paTile pa + c]
        | .l2ctl => [] | .weight _ _ _ => [] | .tileReg _ => [] | .hub _ => [] | .unassigned => []
/-- R104: the walks by which the hub finds the places of a block that it dispatches. -/
def countPlaces (x : Node) (b : Nat) (s : State) : State :=
  x.desc.oper.foldl (fun s o => (hubWalk x.asid (firmwareMaster s) (o.1 + BitVec.ofInt 64 (o.2 * ((b % x.desc.gx : Nat) : Int))) s).2) s
def freeSlots (s : State) (tile : Nat) : Nat := 48 - (s.threads.filter fun t => decide (tileOf t.1 = tile)).length
/-- R342: the core the hub prefers among those that fit: one that operand 0 names, or, unless the node is STRICT, one that operand
1 names, or one of the tile with the most free slots. -/
def preferCore (s : State) (x : Node) (b : Nat) (fits : Nat → Bool) (free : Nat → Nat) : Option Nat :=
  match (namedCores s x b 0).find? fits with
  | some c => some c
  | none =>
    if x.desc.strict then none
    else match (namedCores s x b 1).find? fits with
      | some c => some c
      | none => greatestBy (fun c => free (c / 12)) ((List.range 192).filter fits)
/-- R342: the core the hub prefers for block b among those that can take it. -/
def preferredCore (s : State) (id : Nat) (x : Node) (b : Nat) : Option Nat := preferCore s x b (coreFits s id x) (freeSlots s)

/-! The next block of a node (R341, R342, R345, R352). -/

/-- R352, R357: the number of blocks that may be dispatched by now. -/
def dispatchLimit (x : Node) : Nat := match nodeBlocks x with | some n => n | none => x.predicted
/-- R345: the next block: one to be dispatched again, else the next one in order. -/
def nextBlock (x : Node) : Option Nat :=
  match x.redo with
  | b :: _ => some b
  | [] => if x.next < dispatchLimit x then some x.next else none
/-- R350, R351: cicada's entry of a signature. -/
def cicadaOf (s : State) (x : Node) : Option Cicada := s.cicada.find? fun c => decide (c.asid = x.asid) && decide (c.sig = x.desc.sig)
def clampTo (d : Desc) (n : Nat) : Nat := max d.floor (min n d.ceil)
def predict (s : State) (x : Node) : Nat :=
  match x.final with
  | some f => f
  | none =>
    if x.desc.policy = 2 then clampTo x.desc x.desc.pin
    else if x.desc.policy = 3 then x.desc.floor
    else match cicadaOf s x with
      | some c => clampTo x.desc (if x.desc.policy = 0 then c.last.headD x.desc.floor else (c.last.take 4).foldl max 0)
      | none => if x.desc.policy = 0 then x.desc.floor else x.desc.ceil
/-- R351: a first dispatch that reads a prediction uses its entry. -/
def useCicada (x : Node) (s : State) : State :=
  if x.desc.shape ∧ x.final.isNone ∧ x.desc.policy < 2 then
    { s with cicada := s.cicada.map fun c => if c.asid = x.asid ∧ c.sig = x.desc.sig then { c with used := s.cc } else c }
  else s
/-- R334, R359: the pool record at its home: where it lies, with its cursor and limit; its walk and its read count. -/
def poolAt (s : State) (x : Node) : Option (Nat × Nat × Nat) × State :=
  let m := firmwareMaster s
  match hubWalk x.asid m x.desc.pool s with
  | (none, s) => (none, s)
  | (some (w, l), s) =>
    let p := leafPlace s x.desc.pool w l
    let ours := decide (paDevice p.1 = s.cfg.device)
    if p.2 ∨ ¬ isHbm p.1 ∨ ¬ flag w.toNat 2 ∨ ¬ flag w.toNat 3 ∨ flag w.toNat 6 then (none, s)
    else if ours && ((refuse s m p.1 16 rightR).isSome || (refuse s m p.1 16 rightW).isSome || lineBad s p.1 16) then (none, s)
    else if !ours && !(reachable s (paDevice p.1) && Config.peerAllows s.freeCount) then (none, { s with freeCount := s.freeCount + 1 })
    else (some (p.1, leNat (readPa s p.1 8), leNat (readPa s (p.1 + 8) 8)), countLine p.1 s.cfg.device none s)
def setCursor (pa v : Nat) (s : State) : State := tableWrite (firmwareMaster s) pa (leBytes 8 v) s
/-- R350, R359: the first dispatch fixes P and draws from the pool, or ends the node with POOL. -/
def firstDispatch (id : Nat) (x : Node) (s : State) : State :=
  let p := if x.desc.shape then predict s x else x.desc.gx
  let s := modNode id (fun x => { x with placedOnce := true, predicted := p }) (useCicada x s)
  if x.desc.pool = 0 then s
  else
    let need := x.desc.perblk * p * x.desc.gy
    match poolAt s x with
    | (none, s) => nodeFault id 6 s
    | (some (pa, cur, lim), s) =>
      if lim < cur + need then nodeFault id 6 s
      else modNode id (fun x => { x with poolBase := cur, poolExt := p }) (setCursor pa (cur + need) s)
/-- R359: n14 of block b. -/
def outputBase (x : Node) (b : Nat) : W64 :=
  if x.desc.pool = 0 then 0
  else match x.tail with
    | some (p, _, tb) => if p ≤ b then BitVec.ofNat 64 (tb + x.desc.perblk * (b - p)) else BitVec.ofNat 64 (x.poolBase + x.desc.perblk * b)
    | none => BitVec.ofNat 64 (x.poolBase + x.desc.perblk * b)

/-! The start of a block (R193, R195, R248, R325). -/

def emptyPlane : Plane := { type := .bf16, rows := List.replicate 96 { zero := false, elems := List.replicate 96 (FVal.zero false) } }
/-- R325: a thread at block start, before what its membership shows. -/
def blockThread (s : State) (id : Nat) (x : Node) (b : Nat) (p : Placement) (spec : Bool) : Thread :=
  let d := x.desc
  { node := ⟨id, x.gen⟩, bx := b % d.gx, bY := b / d.gx, line := b, pc := d.entry
    regs := { q := List.replicate 16 (.val 0), y := List.replicate 16 (.val zeroVec)
              n := x.args ++ [BitVec.ofNat 64 (b % d.gx), BitVec.ofNat 64 (b / d.gx), nodeWord ⟨id, x.gen⟩, 0, 0, 0, outputBase x b, 0]
              v := List.replicate 8 zeroVec, m := List.replicate 8 (BitVec.allOnes 96) }
    handles := List.replicate 16 {}
    sys := { asidreg := BitVec.ofNat 64 x.asid, trapvec := s.tvecdef
             scrwin := word64 [(d.scratch, 32), (p.scr, 12)]
             wgtwin := word64 [(d.whdr, 32), (p.hbase, 22), (d.wdata, 10), (p.dbase, 0)]
             accwin := BitVec.ofNat 64 d.acccols }
    lfsr := seedLanes 0
    mx := { active := emptyPlane, shadow := emptyPlane }
    windowGen := s.fresh
    spec := spec
    readySince := s.cc
    dispatched := s.fresh }
/-- R193: the scratchpad window is set to empty, and zeroed when it last belonged to another address space. -/
def ownScratch (core asid a n : Nat) (s : State) : State :=
  let pa := scratchPa s core (4096 * a)
  let r := takeUnits asid a n (getCore s core).scrAsid
  let s := modCore core (fun c => { c with scrAsid := r.2 }) s
  { s with
    full := s.full.filter fun w => !(decide (pa / 8 ≤ w) && decide (w < (pa + 4096 * n) / 8))
    mem := if r.1 then s.mem.clear pa (4096 * n) else s.mem }
/-- R195: the weight windows are zeroed when they last belonged to another address space; header units count from 1024. -/
def ownWeights (core asid : Nat) (d h : Nat × Nat) (s : State) : State :=
  let r := takeUnits asid d.1 d.2 (getCore s core).wgtAsid
  let q := takeUnits asid (1024 + h.1) h.2 r.2
  let s := modCore core (fun c => { c with wgtAsid := q.2 }) s
  if r.1 || q.1 then
    let m := (List.range 96).foldl (fun m i => m.clear (weightPa s core i (64 * d.1)) (64 * d.2)) s.mem
    { s with mem := m.clear (weightPa s core 96 (64 * h.1)) (64 * h.2) }
  else s
/-- R248: the slot's accumulators are zeroed when it last ran another address space. -/
def ownAccumulators (k asid : Nat) (s : State) : State :=
  let other : Bool := ((look s.accAsid k).getD []).any fun a => decide (a ≠ asid)
  { s with
    accAsid := put s.accAsid k [asid]
    acc := if other then s.acc.filter fun e => decide (e.1 / 49152 ≠ k) else s.acc }
def ownPlaces (k asid : Nat) (u : Use) (s : State) : State :=
  ownAccumulators k asid (ownWeights (coreOf k) asid u.data u.hdr (ownScratch (coreOf k) asid u.scr.1 u.scr.2 s))
/-- R325: a block starts at its place; n11 and n12 are what `getid` reads at block start. -/
def startBlock (id : Nat) (x : Node) (b : Nat) (p : Placement) (spec : Bool) (member : Option Membership) (s : State) : State :=
  let s := ownPlaces p.slot x.asid (placeUse x.desc p) s
  let t := { blockThread s id x b p spec with cohort := member }
  let s := { setThread s p.slot t with fresh := s.fresh + 1 }
  modThread p.slot (fun t => { t with regs := { t.regs with n := (t.regs.n.set 11 (extentWord s t)).set 12 (cohortWord s p.slot) } }) s
/-- The block leaves the node's list of blocks to place; a node with no block left leaves its ready list. -/
def blockPlaced (id b : Nat) (s : State) : State :=
  let s := modNode id (fun x => if x.redo.contains b then { x with redo := x.redo.filter fun c => decide (c ≠ b) } else { x with next := b + 1 }) s
  match look s.nodes id with
  | some x => if (nextBlock x).isNone ∧ x.final.isSome then offLists id s else s
  | none => s

/-! BLOCK_DISPATCH (R341, R342, R345, R346). -/

/-- R342: the place for block b of a gang beside those already chosen. -/
def gangBlock (s : State) (x : Node) (used : Nat → List Use) (mine : List (Nat × Placement)) (b : Nat) : Option Placement :=
  let fit := fun (c : Nat) =>
    let own := (mine.map Prod.snd).filter fun p => decide (coreOf p.slot = c)
    fitOn (used c ++ own.map (placeUse x.desc)) x.desc own.length c
  let free := fun (t : Nat) => freeSlots s t - (mine.filter fun p => decide (tileOf p.2.slot = t)).length
  (preferCore s x b (fun c => (fit c).isSome) free).bind fit
/-- Places for the n blocks of a gang: under STRICT those first that one core alone can take. -/
def gangPlaces (s : State) (x : Node) (used : Nat → List Use) (n : Nat) : List Placement :=
  let one := fun (b : Nat) => x.desc.strict && decide ((namedCores s x b 0).length = 1)
  let order := (List.range n).filter one ++ (List.range n).filter fun b => !one b
  let got := order.foldl (fun mine b => match gangBlock s x used mine b with | some p => mine ++ [(b, p)] | none => mine) []
  (List.range n).filterMap fun b => look got b
/-- R344: the sequencer contexts that a reservation of another node keeps. -/
def ctxReserved (s : State) (id : Nat) : Nat :=
  match s.reservation with
  | some r => if r.node = id then 0 else (match look s.nodes r.node with | some y => bit y.desc.circ | none => 0)
  | none => 0
/-- R151, R344: a sequencer context is free for the node. -/
def ctxRoom (s : State) (id : Nat) (x : Node) : Bool := !x.desc.circ || decide (s.ctxs.length + ctxReserved s id < 16)
/-- Dispatch goes on: the package serves and is not being evicted (R378, R382). -/
def dispatching (s : State) : Bool := decide (s.service = .running) && decide (s.evstate = 0)
/-- R345, R381: a saved context of the node waits to be restored. -/
def savedOf (s : State) (id : Nat) : Bool := s.contexts.any fun c => c.2.threads.any fun t => decide (t.thread.node.id = id)
/-- R342, R381: a core for a saved thread beside those already chosen: its windows are free there and its node, if STRICT,
names it. -/
def restorePlace (s : State) (mine : List (Nat × Use)) (t : SavedThread) : Option (Nat × Use) :=
  let cores := match look s.nodes t.thread.node.id with
    | some x => if x.gen = t.thread.node.gen ∧ x.desc.strict then namedCores s x t.thread.line 0 else List.range 192
    | none => List.range 192
  cores.findSome? fun c => (coreSlots c).findSome? fun k =>
    let u := useOf k t.thread
    if (usesOn s 8192 c ++ (mine.filter fun m => decide (m.1 = c)).map Prod.snd).all fun v => useApart v u then some (c, u) else none
/-- Places for the threads of a context, as many as there are. -/
def restorePlaces (s : State) (c : Context) : List (Nat × Use) :=
  c.threads.foldl (fun (mine : List (Nat × Use)) t => match restorePlace s mine t with | some p => mine ++ [p] | none => mine) []
/-- R345, R381: a saved context of the node could be restored now. -/
def canRestore (s : State) (id : Nat) : Bool :=
  s.contexts.any fun c => (c.2.threads.any fun t => decide (t.thread.node.id = id)) && (c.2.program.isNone || decide (s.ctxs.length + ctxReserved s 8192 < 16))
    && decide ((restorePlaces s c.2).length = c.2.threads.length)
/-- The placements of a gang are all valid together. -/
def gangOk (s : State) (id : Nat) (x : Node) : List Placement → List Use → Bool
  | [], _ => true
  | p :: ps, mine =>
    let core := coreOf p.slot
    let here := mine.filter fun u => decide (coreOf u.slot = core)
    placeOk (usesOn s id core ++ here) x.desc p && decide (here.length < x.desc.slots) && gangOk s id x ps (placeUse x.desc p :: mine)
/-- R344: the places that a reservation keeps for the node. -/
def keptPlaces (s : State) (id : Nat) : Option (List Placement) :=
  match s.reservation with
  | some r => if r.node = id then some r.places else none
  | none => none
/-- R343, R344: the places of a gang, all there: those reserved for it, or those preferred. -/
def gangFits (s : State) (id : Nat) (x : Node) (n : Nat) : Bool :=
  match keptPlaces s id with
  | some ps => gangOk s id x ps []
  | none => decide ((gangPlaces s x (usesOn s id) n).length = n)
/-- R345, R346: the hub could place something of this node now; its saved blocks go before the others. -/
def canPlace (s : State) (id : Nat) : Bool :=
  match look s.nodes id with
  | none => false
  | some y =>
    let x := if y.placedOnce then y else { y with predicted := predict s y }
    let n := x.desc.gx * x.desc.gy
    x.ready && !x.stop && (if savedOf s id then canRestore s id
      else if x.desc.lock then decide (x.next = 0) && gangFits s id x n && ctxRoom s id x
      else match nextBlock x with
        | some b => (preferredCore s id x b).isSome
        | none => false)
/-- R341: the nodes that the hub tries before this one. -/
def triedBefore (s : State) (id : Nat) : List Nat :=
  match look s.nodes id with
  | some x => ((s.readyLists.take x.desc.prio).flatMap fun l => l) ++ (listOf s x.desc.prio).takeWhile fun y => decide (y ≠ id)
  | none => []
def inTurn (s : State) (id : Nat) : Bool := (triedBefore s id).all fun y => !canPlace s y
def evBlockDispatch (id : Nat) (p : Placement) (s : State) : State :=
  match look s.nodes id with
  | none => s
  | some x =>
    if ¬ dispatching s ∨ ¬ x.ready ∨ x.stop ∨ x.desc.lock ∨ savedOf s id ∨ ¬ inTurn s id then s
    else
      let s1 := if x.placedOnce then s else firstDispatch id x s
      match look s1.nodes id with
      | none => s
      | some x =>
        if x.stop then s1
        else match nextBlock x with
          | none => s1
          | some b =>
            if x.desc.strict ∧ (namedCores s x b 0).isEmpty then nodeFault id 8 (countPlaces x b s1)
            else if preferredCore s id x b ≠ some (coreOf p.slot) ∨ ¬ placeOk (usesOn s id (coreOf p.slot)) x.desc p then s
            else blockPlaced id b (startBlock id x b p (x.desc.shape && x.final.isNone && decide (x.desc.floor ≤ b)) none (countPlaces x b s1))

/-! GANG_DISPATCH and GANG_RESERVATION (R343, R344). -/

/-- R342: under STRICT each block stands on a core that operand 0 names for it. -/
def strictOk (s : State) (x : Node) (ps : List Placement) : Bool :=
  !x.desc.strict || (ps.mapIdx fun i p => (namedCores s x i 0).contains (coreOf p.slot)).all id
def strictLost (s : State) (x : Node) (n : Nat) : Bool := x.desc.strict && (List.range n).any fun i => (namedCores s x i 0).isEmpty
/-- R68, R334: the circuit program of a node, read under master 3080. -/
def readProgram (x : Node) (s : State) : Option (List CWord) × State :=
  match hubRead x.asid (masterId s 3080) false x.desc.cprog (8 * x.desc.cplen) s with
  | (some b, s) => (circuitProgram ((List.range x.desc.cplen).map fun i => BitVec.ofNat 64 (fieldAt b (8 * i) 8)), s)
  | (none, s) => (none, s)
/-- R151, R343: the gang starts as a new lockstep cohort, its program bound to a context. -/
def startGang (id : Nat) (x : Node) (cohort ctx : Nat) (prog : List CWord) (ps : List Placement) (s : State) : State :=
  let ms := ps.mapIdx fun i p => (p.slot, i)
  let s := { s with
    cohorts := put s.cohorts cohort { lock := true, asid := x.asid, members := ms }
    ctxs := if x.desc.circ then put s.ctxs ctx { cohort := cohort, node := ⟨id, x.gen⟩, prog := prog } else s.ctxs
    reservation := match s.reservation with | some r => if r.node = id then none else some r | none => none }
  let s := (ps.mapIdx fun i p => (i, p)).foldl (fun s q => startBlock id x q.1 q.2 false (some { id := cohort, rank := q.1, counts := true }) (countPlaces x q.1 s)) s
  offLists id (modNode id (fun x => { x with next := x.desc.gx * x.desc.gy }) s)
def evGangDispatch (id cohort ctx : Nat) (ps : List Placement) (s : State) : State :=
  match look s.nodes id with
  | none => s
  | some x =>
    let n := x.desc.gx * x.desc.gy
    let kept : Bool := match keptPlaces s id with
      | some r => decide (r = ps)
      | none => decide ((ps.map fun p => coreOf p.slot) = (gangPlaces s x (usesOn s id) n).map fun p => coreOf p.slot)
    let held := x.desc.circ && hubHeld s none x.asid (masterId s 3080) x.desc.cprog (8 * x.desc.cplen)
    let ctxOk := !x.desc.circ || (decide (ctx < 16) && (look s.ctxs ctx).isNone)
    if ¬ dispatching s ∨ ¬ x.ready ∨ x.stop ∨ ¬ x.desc.lock ∨ x.next ≠ 0 ∨ savedOf s id ∨ ¬ inTurn s id then s
    else if strictLost s x n then nodeFault id 8 s
    else if ps.length ≠ n ∨ ¬ kept ∨ ¬ ctxOk ∨ ¬ ctxRoom s id x ∨ held ∨ ¬ cohortFree s cohort ∨ ¬ strictOk s x ps ∨ ¬ gangOk s id x ps [] then s
    else
      let s := if x.placedOnce then s else firstDispatch id x s
      match look s.nodes id with
      | none => s
      | some x =>
        if x.stop then s
        else if ¬ x.desc.circ then startGang id x cohort ctx [] ps s
        else match readProgram x s with
          | (some prog, s) => startGang id x cohort ctx prog ps s
          | (none, s) => nodeFault id 7 s
/-- R344: the gangs that have waited 100 µs, in the order in which their time expired. -/
def waitingGangs (s : State) : List Nat :=
  ((s.nodes.filter fun n => n.2.ready && n.2.desc.lock && decide (n.2.next = 0) && !n.2.stop && decide (n.2.readyAt + usCc 100 ≤ s.cc)).map Prod.fst)
/-- A reservation may take what is resident; it is in range and does not meet itself. -/
def reserveOk (x : Node) : List Placement → List Use → Bool
  | [], _ => true
  | p :: ps, mine =>
    let here := mine.filter fun u => decide (coreOf u.slot = coreOf p.slot)
    placeOk here x.desc p && decide (here.length < x.desc.slots) && reserveOk x ps (placeUse x.desc p :: mine)
def evGangReservation (id : Nat) (ps : List Placement) (s : State) : State :=
  match look s.nodes id with
  | none => s
  | some x =>
    let first := leastBy (fun i => match look s.nodes i with | some y => y.readyAt | none => 0) (waitingGangs s)
    if ¬ dispatching s ∨ s.reservation.isSome ∨ first ≠ some id ∨ ps.length ≠ x.desc.gx * x.desc.gy ∨ ¬ strictOk s x ps ∨ ¬ reserveOk x ps [] then s
    else { s with reservation := some ⟨id, ps⟩ }

/-! NODE_COMPLETION (R347, R348). -/

def residentOf (s : State) (n : NodeRef) : Bool := s.threads.any (fun t => decide (t.2.node = n)) || s.parked.any fun p => decide (p.node = n)
/-- R347, R348: an access that a block of the node has made, and for which nobody waits any longer, has still to perform. -/
def lostOf (s : State) (n : NodeRef) : Bool :=
  s.accesses.any fun a => decide (a.2.keeps.map Prod.snd = some n) && !a.2.performed && a.2.answer.isNone && !a.2.void
/-- R347, R349, R378: the node completes. -/
def nodeOver (s : State) (id : Nat) (x : Node) : Bool :=
  !residentOf s ⟨id, x.gen⟩ && !lostOf s ⟨id, x.gen⟩ && !savedOf s id
    && (x.stop || (match nodeBlocks x with | some n => decide (n ≤ x.done) | none => false))
def extentOf (x : Node) : Nat := if x.desc.shape then x.final.getD x.predicted else x.desc.gx
/-- R348: the completion word. -/
def completionWord (id : Nat) (x : Node) : W64 :=
  word64 [(bit x.fault.isSome, 60), (x.fault.getD 0, 56), (extentOf x % 2 ^ 16, 32), ((handleOfNode id x).toNat, 0)]
/-- R348: one predecessor of the node that an entry names is done. -/
def releaseOne (e : Nat × Nat) (s : State) : State :=
  match look s.nodes e.1 with
  | some x =>
    if x.gen ≠ e.2 ∨ x.count = 0 then s
    else
      let s := modNode e.1 (fun x => { x with count := x.count - 1 }) s
      if x.count = 1 then makeReady e.1 s else s
  | none => s
/-- R333: the entry is freed and its generation advances. -/
def freeEntry (id : Nat) (s : State) : State :=
  { offLists id s with
    nodes := erase s.nodes id, gens := put s.gens id ((genOf s id + 1) % 256)
    reservation := match s.reservation with | some r => if r.node = id then none else some r | none => none }
/-- R393: the command of a node learns that it has completed; the fault first in time stands. -/
def tellCommand (id : Nat) (x : Node) (s : State) : State :=
  match x.command with
  | none => s
  | some k =>
    match look s.commands k with
    | none => s
    | some c =>
      let i := (c.nodes.findIdx? fun n => decide (n = ⟨id, x.gen⟩)).getD 0
      let mine := x.fault.map fun f => (x.faultAt, i, f)
      let first := match c.firstFault, mine with
        | some a, some b => if a.1 < b.1 ∨ (a.1 = b.1 ∧ a.2.1 < b.2.1) then some a else some b
        | some a, none => some a
        | none, m => m
      { s with commands := put s.commands k { c with left := c.left - 1, firstFault := first } }
def evNodeCompletion (id : Nat) (s : State) : State :=
  match look s.nodes id with
  | none => s
  | some x =>
    if ¬ nodeOver s id x ∨ (x.desc.comp ≠ 0 ∧ hubHeld s none x.asid (firmwareMaster s) x.desc.comp 8) then s
    else
      let w := if x.desc.comp = 0 then (true, s) else hubWrite x.asid (firmwareMaster s) x.desc.comp (bytes64 (completionWord id x)) s
      let s := if w.1 then w.2 else { w.2 with log := w.2.log ++ [LogEntry.completionUnwritten id] }
      tellCommand id x (freeEntry id (x.desc.succ.foldl (fun s e => releaseOne (e.1, e.2.1) s) s))

/-! SHAPE_RESOLUTION (R355 to R359, R361, R362). -/

/-- R351: the final extent enters cicada, in place of the least recently used entry when all 1024 are in use. -/
def updateCicada (x : Node) (f : Nat) (s : State) : State :=
  let old := match cicadaOf s x with | some c => c.last | none => []
  let rest := s.cicada.filter fun c => !(decide (c.asid = x.asid) && decide (c.sig = x.desc.sig))
  let room := if rest.length < 1024 then rest else match leastBy (fun i => (rest.map Cicada.used).getD i 0) (List.range rest.length) with
    | some i => rest.eraseIdx i
    | none => rest
  { s with cicada := { asid := x.asid, sig := x.desc.sig, last := (f :: old).take 4, used := s.cc } :: room }
/-- R316, R355: the buffered lines of a block enter the total order together; the clock that the writes of its thread reach
(R304). -/
def commitLines (n : NodeRef) (b : Nat) (s : State) : Nat × State :=
  let r := (s.specLines.filter fun l => l.isOf n b).foldl (fun (r : Nat × State) l =>
    let g := grantWrite l.pa (threadMaster r.2 l.slot) l.clock r.2
    (max r.1 g.1, writeAny (threadMaster r.2 l.slot) l.pa l.bytes g.2)) (0, s)
  (r.1, discardLines n b r.2)
/-- R316, R317: of a block that has committed, a load that has still to perform finds the block's stores in memory. -/
def dropOwn (k : Nat) (s : State) : State :=
  { s with accesses := s.accesses.map fun a => (a.1, if a.2.owner = .thread k ∧ ¬a.2.performed then { a.2 with ownBytes := [] } else a.2) }
/-- R355: a block commits: resident, it goes on and a deferred trap is raised; halted, it has finished. -/
def commitBlock (n : NodeRef) (b : Nat) (s : State) : State :=
  let r := commitLines n b s
  let s := r.2
  match s.threads.find? fun t => decide (t.2.node = n) && decide (t.2.line = b) && t.2.spec with
  | some (k, t) =>
    let s := dropOwn k (setThread s k { t with spec := false, deferredTrap := none, hold := false, clock := max t.clock r.1 })
    if t.life = .halted then finishBlock n s
    else (match t.deferredTrap with | some tr => raiseTrap k tr s | none => s)
  | none =>
    if s.parked.any fun p => decide (p.node = n) && decide (p.line = b) then
      finishBlock n { s with parked := s.parked.filter fun p => !(decide (p.node = n) && decide (p.line = b)) }
    else s
/-- R356: a block is squashed for good. -/
def squashBlock (n : NodeRef) (b : Nat) (s : State) : State :=
  let s := { discardLines n b (clearParked n b s) with parked := s.parked.filter fun p => !(decide (p.node = n) && decide (p.line = b)) }
  match s.threads.find? fun t => decide (t.2.node = n) && decide (t.2.line = b) && t.2.spec with
  | some (k, _) => squashThread k s
  | none => s
/-- R359: the pool at a resolution: a trim or the tail's outputs; an extent it cannot serve ends the node with POOL. -/
def resolvePool (id : Nat) (x : Node) (f : Nat) (s : State) : State :=
  let d := x.desc.perblk
  if x.desc.pool = 0 ∨ ¬ x.placedOnce ∨ f = x.predicted then s
  else match poolAt s x with
    | (none, s) => nodeFault id 6 s
    | (some (pa, cur, lim), s) =>
      let mine := decide (cur = x.poolBase + d * x.predicted)
      if f < x.predicted then (if mine then setCursor pa (x.poolBase + d * f) s else s)
      else
        let tb := if mine then x.poolBase + d * x.predicted else cur
        let new := tb + d * (f - x.predicted)
        if lim < new then nodeFault id 6 s
        else modNode id (fun x => { x with tail := some (x.predicted, f, tb) }) (setCursor pa new s)
/-- R356: a block is paused or waits, so that its squash takes effect at once. -/
def pausedNow (t : Thread) : Bool :=
  t.wait.isSome || t.sWait.isSome || t.hold || t.deferredTrap.isSome || t.stopping || decide (t.life ≠ .running)
/-- The blocks of a node that are speculative: resident ones that meet p, and those that have halted and freed their slots. -/
def specBlocks (s : State) (n : NodeRef) (p : Thread → Bool) : List Nat :=
  ((s.threads.filter fun x => decide (x.2.node = n) && x.2.spec && p x.2).map fun x => x.2.line)
    ++ ((s.parked.filter fun p => decide (p.node = n)).map Parked.line)
/-- R316, R302: a load that the block made before one of its stores has still to perform, so that the stores may not enter the
order yet. -/
def earlierLoads (s : State) (n : NodeRef) (b : Nat) : Bool :=
  s.threads.any fun x => decide (x.2.node = n) && decide (x.2.line = b) && x.2.spec && s.accesses.any fun a =>
    decide (a.2.owner = .thread x.1) && !a.2.performed && a.2.answer.isNone && !a.2.host
      && (match a.2.op with | .read m => decide (a.2.ownBytes ≠ specOver s x.2 a.2.pa m) | _ => false)
/-- The speculative blocks of a node issue nothing until they commit. -/
def holdBlocks (n : NodeRef) (s : State) : State :=
  { s with threads := s.threads.map fun x => (x.1, if x.2.node = n ∧ x.2.spec then { x.2 with hold := true } else x.2) }
/-- R355: the blocks of a node below its extent commit in ascending order, at most m of them; one that has to wait keeps the others
waiting. -/
def commitDue (n : NodeRef) : Nat → State → State
  | 0, s => s
  | m + 1, s =>
    match leastBy id (specBlocks s n fun _ => true) with
    | none => s
    | some b => if earlierLoads s n b then holdBlocks n s else commitDue n m (commitBlock n b s)
/-- R355, R356: in a cc after its resolution the mayflies of a node are squashed and its other speculative blocks commit. -/
def settleNode (n : NodeRef) (f : Nat) (s : State) : State :=
  let s := ((specBlocks s n fun _ => true).filter fun b => decide (f ≤ b)).foldl (fun s b => squashBlock n b s) s
  commitDue n (specBlocks s n fun _ => true).length s
def settleNodes (s : State) : State :=
  s.nodes.foldl (fun s x => match x.2.final with
    | some f => if x.2.desc.shape ∧ x.2.resolvedAt < s.cc then settleNode ⟨x.1, x.2.gen⟩ f s else s
    | none => s) s
/-- R355, R357: the node resolves at extent f. Its blocks commit, and its running mayflies are squashed, at their next bundle
boundary, in the next cc; a mayfly that is paused or waits is squashed at once (R356). -/
def resolveNode (id : Nat) (x : Node) (f : Nat) (s : State) : State :=
  let n : NodeRef := ⟨id, x.gen⟩
  let s := modNode id (fun x => { x with final := some f, resolvedAt := s.cc, redo := x.redo.filter fun b => decide (b < f) }) s
  let s := ((specBlocks s n pausedNow).filter fun b => decide (f ≤ b)).foldl (fun s b => squashBlock n b s) s
  let s := resolvePool id x f s
  let s := match look s.nodes id with
    | some y => if x.placedOnce ∧ x.predicted < f ∧ ¬ y.stop then toHead id s else if (nextBlock y).isNone ∧ y.placedOnce then offLists id s else s
    | none => s
  updateCicada x f s
/-- R362: the answer of a `shapepub`, and the resolution if it is one. -/
def publish (a : Access) (e : Nat) (s : State) : Answer × State :=
  match a.op with
  | .shapepub w _ =>
    (match namedNode s w with
    | none => (.launchFault 1 e, s)
    | some (n, x) =>
      if x.asid ≠ a.asid then (.launchFault 1 e, s)
      else if ¬ x.desc.shape then (.launchFault 2 e, s)
      else
        let out := if x.desc.ceil < e then 4 else if e < x.desc.floor then 5 else 0
        match x.final with
        | some f => (if f = e then .ack else .launchFault (if out = 0 then 3 else out) e, s)
        | none =>
          let s := if out = 0 then s else modNode n (markFault out s.cc false) s
          let x' := (look s.nodes n).getD x
          (if out = 0 then .ack else .launchFault out e, resolveNode n x' (clampTo x.desc e) s))
  | _ => (.ack, s)
/-- R361: a `shapepub` that has reached the hub performs. -/
def evShapeResolution (k : Nat) (s : State) : State :=
  match s.accesses.find? fun a => decide (a.2.owner = .thread k) && atTarget s a.1 a.2 && (match a.2.op with | .shapepub _ _ => true | _ => false) with
  | none => s
  | some (id, a) =>
    match a.op with
    | .shapepub _ e =>
      let r := publish a e s
      answerAt id a.clock r.1 r.2
    | _ => s

end Sys2Proof.Machine
end

