-- ==== Sys2Proof/Machine/Context.lean ====
section
/-! DEFINITION. Pre-emption, the saved context and its restoration (R101, R203, R288, R345, R379 to R381). -/

namespace Sys2Proof.Machine

/-! Who is pre-empted (R345, R379, R382, R394). -/

/-- The threads that are pre-empted with the thread of slot k: its whole lockstep cohort, or it alone. -/
def group (s : State) (k : Nat) : List Nat :=
  match cohortOf s k with
  | some c => if c.2.lock then c.2.members.map Prod.fst else [k]
  | none => [k]
/-- The state without the threads of some groups, and without the circuit contexts of their cohorts. -/
def without (ks : List Nat) (s : State) : State :=
  { s with
    threads := s.threads.filter fun x => !(ks.flatMap (group s)).contains x.1
    ctxs := s.ctxs.filter fun c => !ks.any fun k => decide ((ctxOf s k).map Prod.fst = some c.1) }
/-- R345: a ready node that has something to place and cannot, though the threads that are being pre-empted leave. -/
def starves (s : State) (id : Nat) : Bool :=
  match look s.nodes id with
  | some y =>
    let x := if y.placedOnce then y else { y with predicted := predict s y }
    x.ready && !x.stop && !canPlace (without ((s.threads.filter fun t => t.2.stopping).map Prod.fst) s) id
      && (savedOf s id || (if x.desc.lock then decide (x.next = 0) else (nextBlock x).isSome))
  | none => false
def nodePrio (s : State) (t : Thread) : Nat := match threadNode s t with | some x => x.desc.prio | none => 0
/-- The elements of a list with the greatest key first, at most n of them. -/
def byGreatest (f : Nat → Nat) : Nat → List Nat → List Nat
  | 0, _ => []
  | n + 1, l => match greatestBy f l with
    | some k => k :: byGreatest f n (l.filter fun j => decide (j ≠ k))
    | none => []
/-- R345: the blocks that may be pre-empted for another, the first to take first: priority 3 before 2, and within one the most
recently dispatched first. -/
def victimOrder (s : State) : List Nat :=
  let ks := (s.threads.filter fun t => decide (2 ≤ nodePrio s t.2) && decide (t.2.life = .running) && !t.2.stopping).map Prod.fst
  byGreatest (fun k => match getThread s k with | some t => nodePrio s t * 2 ^ 64 + t.dispatched | none => 0) ks.length ks
/-- R345: as many blocks of the order as it takes for the node to be placed, the last one taken first in the list. -/
def enough (s : State) (id : Nat) : List Nat → List Nat → Option (List Nat)
  | [], got => if canPlace (without got s) id then some got else none
  | k :: ks, got => if canPlace (without got s) id then some got else enough s id ks (k :: got)
/-- R345: those of the blocks whose leaving is needed. -/
def spare (s : State) (id : Nat) : List Nat → List Nat → List Nat
  | [], kept => kept
  | k :: ks, kept => if canPlace (without (kept ++ ks) s) id then spare s id ks kept else spare s id ks (kept ++ [k])
/-- R345: the blocks that the hub pre-empts for the first node of priority 0 that is starved. -/
def victims (s : State) : List Nat :=
  match (listOf s 0).find? (starves s) with
  | none => []
  | some id =>
    let u := without ((s.threads.filter fun t => t.2.stopping).map Prod.fst) s
    (match enough u id (victimOrder s) [] with
    | some ks => spare u id ks []
    | none => [])
/-- R394: a PREEMPT command that is carried out names the node. -/
def preemptAsked (s : State) (n : NodeRef) : Bool :=
  s.commands.any fun c => c.2.started && !c.2.finished && decide (fieldAt c.2.bytes 252 1 = 4) && c.2.nodes.contains n
def wanted (s : State) (k : Nat) : Bool :=
  (group s k).any fun j => match getThread s j with
    | some t => decide (s.evstate = 1) || preemptAsked s t.node || (victims s).contains j
    | none => false

/-! Draining (R379, steps 1 to 6). -/

/-- R270, R379: a channel or M at a boundary where it may stop: chunks, words and iterations that have started are complete. -/
def engineStopped (e : Eng) (x : Engine) : Bool :=
  match x.run with
  | none => true
  | some r => if e = .m then r.waiting || (!r.sent && (match r.word.instr with | .nest _ => true | _ => false)) || x.fault.isSome
    else r.lines.isEmpty && !copyDone r && decide (r.next = r.total ∨ r.next = chunkStart (effWord r) r.next) || x.fault.isSome && noneFlying r
/-- R339: a `launch.w` that waits for an entry is withdrawn. -/
def withdrawable (s : State) (r : HubReq) : Bool := match r.ask with | .launch _ _ w _ => w && r.kept.isSome && decide (8192 ≤ s.nodes.length) | .join _ _ _ => false | .leave _ => false | .query _ => false
/-- An access of the thread that keeps it from being saved: a buffered one, an atomic, or a full/empty form or barrier
wait that is on its way or has acted; a read, a `barq` and a chain do not (R379). -/
def keepsBack (k : Nat) (a : Access) : Bool :=
  match a.owner with
  | .thread j => decide (j = k) && (a.buffered || (match a.op with
      | .fe _ _ => decide (a.place ≠ .target) || a.performed || a.answer.isSome
      | .bar .wait _ _ => decide (a.place ≠ .target) || a.performed || a.answer.isSome
      | .amo _ _ _ => true | .cas _ _ _ => true | .cas2 _ _ => true | .shapepub _ _ => true
      | .bar _ _ _ => false | .read _ => false | .write _ => false | .chain _ => false))
  | .engine j _ _ => decide (j = k)
  | .chain _ _ => false | .host => false | .peer _ _ => false | .gone => false
/-- R379: a `csend` vector of the thread can still land. -/
def landsYet (s : State) (k : Nat) (t : Thread) : Bool :=
  s.ports.any fun p => (landingOf s p.1).isSome && p.2.buf.any fun f => decide (f.slot = k) && decide (f.who = t.dispatched)
def drained (s : State) (k : Nat) (t : Thread) : Bool :=
  t.gather.isNone && !(s.accesses.any fun a => keepsBack k a.2) && (s.hubReqs.all fun r => decide (r.slot ≠ k) || withdrawable s r)
    && engineStopped .m t.me && engineStopped .c0 t.c0 && engineStopped .c1 t.c1 && !landsYet s k t && (s.invals.all fun v => decide (v.slot ≠ k))
    && decide (t.life = .running)

/-! Saving (R380). -/

def weightBytes (s : State) (core : Nat) (u : Use) : List Byte :=
  ((List.range 96).flatMap fun i => readPa s (weightPa s core i (64 * u.data.1)) (64 * u.data.2)) ++ readPa s (weightPa s core 96 (64 * u.hdr.1)) (64 * u.hdr.2)
/-- R379, R288: a pause without an answer is discarded with its bundle, M's waiter leaves its word, and halted lines are
dropped; a word of an engine begins again by its checks, a nest by its descriptor (R268, R269). -/
def restThread (t : Thread) : Thread :=
  let rest : Engine → Engine := fun x => { x with run := x.run.map fun r => { r with live := false, waiting := false, lines := [] } }
  let pause : Wait → Option Wait := fun w => if w.answered || w.expired then some w else none
  { t with
    wait := t.wait.bind pause
    sWait := t.sWait.bind pause
    me := rest t.me
    c0 := rest t.c0
    c1 := rest t.c1
    mx := { t.mx with prevA := none }
    chains := t.chains.map fun c => (c.1, if c.2.state = .pending then { c.2 with state := .marked } else c.2)
    windowGen := t.windowGen + 1
    fetchFault := none
    stopping := false }
def saveThread (s : State) (k : Nat) (t : Thread) : SavedThread :=
  let u := useOf k t
  let a := scratchPa s (coreOf k) (4096 * u.scr.1)
  { slot := k, thread := restThread t, scratch := readPa s a (4096 * u.scr.2)
    fullBits := (s.full.filter fun w => decide (a / 8 ≤ w) && decide (w < (a + 4096 * u.scr.2) / 8)).map fun w => w - a / 8
    weights := weightBytes s (coreOf k) u
    acc := (s.acc.filter fun e => decide (e.1 / 49152 = k) && decide (e.1 % 49152 / 96 < bits t.sys.accwin.toNat 0 10)).map fun e => (e.1 % 49152, e.2)
    reissue := s.accesses.filter fun x => decide (x.2.owner = .thread k) && (match x.2.op with | .read _ => true | .bar .query _ _ => true | _ => false)
    walks := s.walks.filter fun w => decide (w.slot = k) && !w.fetch
    asks := s.hubReqs.filter fun r => decide (r.slot = k) }
/-- The number a saved thread keeps among the members of its cohort. -/
def awayKey (t : Thread) : Nat := 1000 + t.dispatched
def renameMember (old new : Nat) (s : State) : State :=
  { s with cohorts := s.cohorts.map fun c => (c.1, { c.2 with members := c.2.members.map fun m => if m.1 = old then (new, m.2) else m }) }
/-- R203, R288: the slot is empty; waiters leave their words without effect, a chain's packet performs no more, and the
thread stays a member of its cohort. -/
def vacate (k : Nat) (t : Thread) (s : State) : State :=
  let s := removeWaiters k true (releaseClaim k s)
  let s := orphan k { s with hubReqs := s.hubReqs.filter fun r => decide (r.slot ≠ k) }
  renameMember k (awayKey t) { s with threads := erase s.threads k }
/-- R380: a handle as the context keeps it: its ports are free, and a tear that has performed is complete. -/
def restHandle (y : CHandle) : CHandle :=
  { y with placed := false, draining := false, state := if y.draining then .idle else y.state, tearFrom := if y.draining then none else y.tearFrom }
/-- R379, R380: the threads of a group are saved together, with the program of their cohort; its circuits are torn, and the
vectors that cannot land are discarded (R161; log entry 102). -/
def saveGroup (ks : List Nat) (s : State) : State :=
  let prog := match ks.head? with | some k => ctxOf s k | none => none
  let s := match prog with
    | some p => p.2.handles.foldl (fun s h => discardVectors p.1 h.1 h.2 s) s
    | none => s
  let ts := ks.filterMap fun k => (getThread s k).map fun t => (k, t)
  let c : Context := {
    threads := ts.map fun x => saveThread s x.1 x.2
    program := prog.map fun p => { p.2 with handles := p.2.handles.map fun h => (h.1, restHandle h.2) }
    shootdown := s.shootdown
    device := s.cfg.device }
  let s := { s with
    contexts := put s.contexts s.fresh c
    fresh := s.fresh + 1
    ctxs := match prog with | some p => erase s.ctxs p.1 | none => s.ctxs }
  ts.foldl (fun s x => toHead x.2.node.id (vacate x.1 x.2 s)) s
/-- R379: a thread that is to be pre-empted stops with its group; when they have drained they are saved. A speculative
block is squashed and dispatched again later. -/
def evPreemption (k : Nat) (s : State) : State :=
  match getThread s k with
  | none => s
  | some t =>
    let ks := group s k
    let ts := ks.filterMap fun j => (getThread s j).map fun u => (j, u)
    if t.stopping then
      if ts.length = ks.length ∧ ts.all (fun x => x.2.stopping && drained s x.1 x.2) then saveGroup ks s else s
    else if ¬ wanted s k then s
    else if t.spec then squashAgain t.node t.line s
    else ks.foldl (fun s j => modThread j (fun t => { t with stopping := true }) s) s

/-! Restoring (R381). -/

/-- R101, R381: VALID handles are revoked after a shootdown or on another device. -/
def revokeAll (t : Thread) : Thread :=
  let dead : Handle → Handle := fun h => if h.state = .valid then { h with state := .revoked } else h
  let word : QWord → QWord := clearCaps fun _ => true
  let eng : Engine → Engine := fun x => { x with queue := x.queue.map word, run := x.run.map fun r => { r with word := word r.word, eff := r.eff.map word } }
  { t with
    handles := t.handles.map dead
    c0 := eng t.c0
    c1 := eng t.c1 }
/-- R166: LANDWIN is claimed again; LANDIDX keeps its value. -/
def claimAgain (k : Nat) (s : State) : State :=
  match getThread s k with
  | none => s
  | some t =>
    if ¬ flag t.sys.landwin.toNat 63 then s
    else
      let p := landPort k t.sys.landwin
      match look s.claims p with
      | none => { s with claims := put s.claims p k }
      | some _ => modSys k (fun y => { y with landwin := y.landwin &&& 0x7FFFFFFFFFFFFFFF }) s
/-- R288: a marked chain is issued again from its descriptor, with the privilege and space of its `chain`; one whose descriptor
no longer meets R280 raises CHAIN_FAULT at the next bundle (log entry 103). -/
def reissueChain (k i : Nat) (c : Chain) (s : State) : State :=
  match getThread s k with
  | none => s
  | some t =>
    if c.state ≠ .marked then s
    else
      let x : W64 := BitVec.ofNat 64 c.addr
      let d := readPa s (ownPa s k x) 128
      if chainDescOk t.sys.scrwin c.addr d then
        startChain k i { chainOf t c.addr d c.order with sys := c.sys, asid := c.asid } { chainPacket t d with sys := c.sys, asid := c.asid } s
      else addBoundary k (trapOf tChainFault 0xA x 0 0x0F) (setThread s k { t with chains := erase t.chains i })
/-- R379: a discarded read is performed again, with its address as computed at issue. -/
def reissueRead (k : Nat) (a : Access) (s : State) : State :=
  let b := newAccess s k (.thread k) (threadMaster s k) a.op (if a.host then a.pa else redirect s a.pa) a.host
  sendAccess { b with tag := a.tag, part := a.part, asid := a.asid, va := a.va, clock := a.clock, ownBytes := a.ownBytes, path := a.path } s
/-- The contents of a thread's windows are placed. -/
def placeContents (k : Nat) (x : SavedThread) (s : State) : State :=
  let u := useOf k x.thread
  let core := coreOf k
  let a := scratchPa s core (4096 * u.scr.1)
  let n := 64 * u.data.2
  let s := writePa a x.scratch s
  let s := (List.range 96).foldl (fun s i => writePa (weightPa s core i (64 * u.data.1)) ((x.weights.drop (n * i)).take n) s) s
  let s := writePa (weightPa s core 96 (64 * u.hdr.1)) (x.weights.drop (96 * n)) s
  { s with
    full := x.fullBits.foldl (fun l w => addSet l (a / 8 + w)) s.full
    acc := x.acc.foldl (fun l e => put l (k * 49152 + e.1) e.2) (s.acc.filter fun e => !(decide (e.1 / 49152 = k) && decide (e.1 % 49152 / 96 < bits x.thread.sys.accwin.toNat 0 10))) }
/-- R100, R381: one thread of a context resumes in a slot; none of its bundles issues before `hold`. After a shootdown, or on
another device, an `xlat` result in flight looks up again, since no handle is written with a translation that was cleared. -/
def restoreThread (c : Context) (x : SavedThread) (k hold : Nat) (s : State) : State :=
  let r := if c.shootdown ≠ s.shootdown ∨ c.device ≠ s.cfg.device then lookAgain fromLookup k (revokeAll x.thread) s else (x.thread, s)
  let t := r.1
  let s := r.2
  let s := placeContents k x (ownPlaces k (bits t.sys.asidreg.toNat 0 16) (useOf k t) s)
  let s := renameMember (awayKey t) k (setThread s k { t with readySince := s.cc, noIssueBefore := hold })
  let s := claimAgain k s
  let s := t.chains.foldl (fun s e => reissueChain k e.1 e.2 s) s
  let s := x.reissue.foldl (fun s a => reissueRead k a.2 s) s
  { s with
    walks := s.walks ++ x.walks.map fun w => { w with slot := k, tile := tileOf k }
    hubReqs := s.hubReqs ++ x.asks.map fun r => { r with slot := k, kept := none, deadline := none, asked := s.cc } }
/-- R381, step 3: a handle is established again, or stays as it was. -/
def establishAgain (ctx : Nat) (h : Nat × CHandle) (s : State) : State :=
  let y := h.2
  if y.state = .settling ∨ y.state = .live ∨ y.state = .repairing then
    let s := modHandle ctx h.1 (fun z => { z with state := .idle }) s
    if estConflict s ctx h.1 y.src y.sink then stopProgram ctx h.1 s
    else modHandle ctx h.1 (fun z => { z with retained := y.retained, tearFrom := y.tearFrom }) (estPerform ctx h.1 y.src y.sink s)
  else s
def needsEst (p : Ctx) : Bool := p.handles.any fun h => decide (h.2.state = .settling) || decide (h.2.state = .live) || decide (h.2.state = .repairing)
/-- The windows of a context are free at the slots given, which are distinct. -/
def restoreOk (s : State) : List (SavedThread × Nat) → List Use → Bool
  | [], _ => true
  | (x, k) :: r, mine =>
    let u := useOf k x.thread
    let here := mine.filter fun v => decide (coreOf v.slot = coreOf k)
    decide (k < 768) && (usesOn s x.thread.node.id (coreOf k) ++ here).all (fun v => useApart v u)
      && (match threadNode s x.thread with
        | some n => !n.desc.strict || (namedCores s n x.thread.line 0).contains (coreOf k)
        | none => true)
      && restoreOk s r (u :: mine)
/-- R381: a saved context resumes at the slots given, in the order of its threads; its program takes the context
given. `cohort` is the cohort that its threads belong to. -/
def evContextRestore (i : Nat) (slots : List Nat) (cohort ctx : Nat) (s : State) : State :=
  match look s.contexts i with
  | none => s
  | some c =>
    let pairs := c.threads.zip slots
    let turn := c.threads.all fun x => inTurn s x.thread.node.id
    let mine := c.threads.all fun x => match x.thread.cohort with | some m => decide (m.id = cohort) | none => true
    let room : Bool := match c.program with | some _ => decide (ctx < 16) && (look s.ctxs ctx).isNone && decide (s.ctxs.length + ctxReserved s 8192 < 16) | none => true
    if ¬ (dispatching s ∨ s.service = .running ∧ s.evstate % 16 = 15) ∨ (c.threads.any fun x => preemptAsked s x.thread.node) ∨ slots.length ≠ c.threads.length ∨ ¬ turn ∨ ¬ mine ∨ ¬ room ∨ ¬ restoreOk s pairs [] then s
    else
      let hold := match c.program with | some p => if needsEst p then s.cc + 240 else 0 | none => 0
      let s := { s with contexts := erase s.contexts i }
      let s := pairs.foldl (fun s x => restoreThread c x.1 x.2 hold s) s
      match c.program with
      | none => s
      | some p => pendingNow ctx (p.handles.foldl (fun s h => establishAgain ctx h s) { s with ctxs := put s.ctxs ctx p })

end Sys2Proof.Machine
end

