-- ==== Sys2Proof/Machine/Matrix.lean ====
section
/-! DEFINITION. The matrix engine at work (R246 to R272). A word performs when it starts, or iteration by iteration for a
nest, once the engine ports have granted it every line of the scratchpad that it touches; its end is an event of its own
(log entries 38, 101). -/

namespace Sys2Proof.Machine

/-! Elements and planes. -/

def mFmt : MType → Fmt
  | .bf16 => .bf16 | .f16 => .f16 | .e4m3 => .e4m3 | .e5m2 => .e5m2 | .i8 => .f32 | .sb4 => .f32
/-- R249: an element of a type other than SB4 from its encoding. -/
def mElem (t : MType) (x : Nat) : FVal := if t = .i8 then .ofInt (signedOf 8 x) else (mFmt t).decode x
def mBytes : MType → Nat | .bf16 => 2 | .f16 => 2 | .e4m3 => 1 | .e5m2 => 1 | .i8 => 1 | .sb4 => 0
/-- R258: a row of A from its bytes; the FC found when it is no block's. -/
def mRow (t : MType) (b : List Byte) : Except Nat Row :=
  if t = .sb4 then
    match decodeBlock b with
    | some es => .ok { zero := decide (byteAt b 0 = 0), elems := es }
    | none => .error (byteAt b 0)
  else .ok { zero := false, elems := (List.range 96).map fun i => mElem t (leNat ((b.drop (mBytes t * i)).take (mBytes t))) }
def modMx (k : Nat) (f : MState → MState) (s : State) : State := modThread k (fun t => { t with mx := f t.mx }) s
def orMFlags (k : Nat) (f : FpFlags) (s : State) : State := modMx k (fun m => { m with flags := m.flags.or f }) s

/-- R253, R262, R376: what stops M at an extent of the own scratchpad: a refusal, named by its first failing byte, or an
uncorrectable error in what it reads. -/
def mRefused (s : State) (k a n : Nat) (r : Right) : Option Trap :=
  let base := scratchPa s (coreOf k) 0
  ((lineStarts (base + a) n).find? fun x => (refuse s (engineMaster s k .m) x 1 r).isSome).map fun x => engineFaultOf eDenied (BitVec.ofNat 64 (x - base)) 0
def mExtent (s : State) (k a n : Nat) (r : Right) : Option Trap :=
  let base := scratchPa s (coreOf k) 0
  match mRefused s k a n r with
  | some x => some x
  | none => if r ≠ rightW ∧ lineBad s (base + a) n then
      ((lineStarts (base + a) n).find? fun x => memSet s.eccBad (x / 64)).map fun x => eccPoison 3 x
    else none

/-- R258. -/
def doLda (k a : Nat) (t : MType) (s : State) : Except Trap State :=
  match mExtent s k a (96 * t.rowBytes) rightR with
  | some tr => .error tr
  | none =>
    let rows := (List.range 96).map fun i => mRow t (readPa s (scratchPa s (coreOf k) (a + i * t.rowBytes)) t.rowBytes)
    match (List.range 96).findSome? fun i => match rows.getD i (.error 0) with | .error fc => some (i, fc) | .ok _ => none with
    | some (i, fc) => .error (trapOf tFormat 0 (BitVec.ofNat 64 (a + i * t.rowBytes)) (BitVec.ofNat 64 fc))
    | none =>
      let rs := rows.filterMap fun r => match r with | .ok x => some x | .error _ => none
      .ok (modMx k (fun m => { m with shadow := { type := t, rows := rs }, fresh := true }) s)
/-- R259: one accumulator element as an element of A. -/
def ldacElem (x : Nat) (t : MType) (int : Bool) : FVal × FpFlags :=
  let v := if int then FVal.ofInt (signedOf 32 x) else Fmt.f32.decode x
  if t = .i8 then
    if int then (.ofInt (clampInt (signedOf 32 x) (-128) 127), .none)
    else let r := toIntS v 8 .rne; (.ofInt r.1, r.2)
  else let r := round1 v (mFmt t) .rne false; ((mFmt t).decode r.1, r.2)
/-- R376: an uncorrectable error in n columns of the slot's accumulators, which have no physical address: what TRAPARG0 holds is
open (FREE VALUE, log entry 117). -/
def accUncorrectable (s : State) (k c n : Nat) : Option Trap :=
  ((List.range n).find? fun j => s.accBad.contains (k, c + j)).map fun j => poisoned tMemUncorrectable 3 (Config.accumulatorLine k (c + j)) 0
def doLdac (k c : Nat) (t : MType) (int : Bool) (s : State) : State :=
  let rs := (List.range 96).map fun i => (List.range 96).map fun j => ldacElem (accRead s k i (c + j)) t int
  orMFlags k (orAll (rs.flatMap fun r => r.map Prod.snd))
    (modMx k (fun m => { m with shadow := { type := t, rows := rs.map fun r => { zero := false, elems := r.map Prod.fst } }, fresh := true }) s)

/-- R260: column j of B: whether it is a zero block, and its elements; or the FC found. -/
def bColumn (s : State) (k : Nat) (u : MType) (w h j : Nat) : Except Nat Row :=
  let sl := fun (i o : Nat) => s.mem.read (weightPa s (coreOf k) i o)
  if u = .sb4 then
    let code := fun (i : Nat) => let x := (sl i (w + j / 2)).toNat; if j % 2 = 0 then x % 16 else x / 16
    mRow .sb4 ((List.range 16).map (fun i => sl 96 (h + 16 * j + i)) ++ (List.range 48).map fun i => BitVec.ofNat 8 (code (2 * i) + 16 * code (2 * i + 1)))
  else .ok { zero := false, elems := (List.range 96).map fun i => mElem u (leNat ((List.range (mBytes u)).map fun b => sl i (w + mBytes u * j + b))) }
/-- R44, R45, R260: an accumulator element after one column. Padding along K enters the sums as what the operands hold:
of padding that R48 does not allow this is the model's choice (DESIGN CHOICE, log entry 92). -/
def mulElem (pt u : MType) (r b : Row) (acc : Nat) : Nat × FpFlags :=
  if r.zero || b.zero then dotStepZero acc
  else if pt = .i8 ∧ u = .i8 then (dotStepInt acc r.elems b.elems, .none)
  else dotStep acc r.elems b.elems
def mulColumn (k : Nat) (p : Plane) (u : MType) (zero : Bool) (col : Nat) (b : Row) (s : State) : State :=
  (List.range 96).foldl (fun s i =>
    let r := mulElem p.type u (p.rows.getD i { zero := false, elems := [] }) b (if zero then 0 else accRead s k i col)
    orMFlags k r.2 (accWrite k i col r.1 s)) s
/-- R376: an uncorrectable error in the columns of B. -/
def weightsBad (s : State) (k : Nat) (u : MType) (w h n : Nat) : Option Nat :=
  ((List.range 96).findSome? fun i => (lineStarts (weightPa s (coreOf k) i w) (colBytes u n)).find? fun a => memSet s.eccBad (a / 64)).orElse fun _ =>
    if u = .sb4 then (lineStarts (weightPa s (coreOf k) 96 h) (16 * n)).find? fun a => memSet s.eccBad (a / 64) else none
/-- R110, R421: the first byte, from offset w of n bytes of a slice, that the table of the own weight store does not let M
read. -/
def sliceRefused (s : State) (k i w n : Nat) : Option Nat :=
  ((List.range ((w + n - 1) / 4096 + 1 - w / 4096)).map fun j => max w (4096 * (w / 4096 + j))).find? fun o =>
    let pa := weightPa s (coreOf k) i o
    !tableAllows s (weightTable pa (coreOf k % 12)) (engineMaster s k .m) (paOffset pa) rightR
/-- R112, R366, R421: what the multiply reads of B and may not: the fault names its first byte refused. -/
def weightsRefused (s : State) (k : Nat) (u : MType) (w h n : Nat) : Option Trap :=
  (((List.range 96).findSome? fun i => (sliceRefused s k i w (colBytes u n)).map fun o => 2 ^ 63 + o).orElse fun _ =>
    if u = .sb4 then (sliceRefused s k 96 h (16 * n)).map fun o => 2 ^ 63 + 2 ^ 62 + o else none).map
      fun x => engineFaultOf eDenied (BitVec.ofNat 64 x) 0
/-- R246, R260: the multiply; FRESH makes the shadow plane active first. The second state is the one a fault leaves. -/
def doMma (k : Nat) (u : MType) (zero : Bool) (c w h n : Nat) (s : State) : Except (Trap × State) State :=
  let s := modMx k (fun m => if m.fresh then { m with active := m.shadow, fresh := false } else m) s
  match getThread s k with
  | none => .ok s
  | some t =>
    match ((weightsRefused s k u w h n).orElse fun _ => (weightsBad s k u w h n).map (eccPoison 3)).orElse fun _ => if zero then none else accUncorrectable s k c n with
    | some tr => .error (tr, s)
    | none =>
      let cols := (List.range n).map fun j => (j, bColumn s k u w h j)
      match cols.findSome? fun x => match x.2 with | .error fc => some (x.1, fc) | .ok _ => none with
      | some (j, fc) => .error (trapOf tFormat 0 (BitVec.ofNat 64 (2 ^ 63 + 2 ^ 62 + h + 16 * j)) (BitVec.ofNat 64 fc), s)
      | none => .ok (cols.foldl (fun s x => match x.2 with | .ok b => mulColumn k t.mx.active u zero (c + x.1) b s | .error _ => s) s)

/-- R262: an element as it is drained. -/
def drainElem (f : DrainFmt) (x : Nat) : Nat × FpFlags :=
  match f with
  | .f32 => (x, .none)
  | .bf16 => round1 (Fmt.f32.decode x) .bf16 .rne false
  | .f16 => round1 (Fmt.f32.decode x) .f16 .rne false
  | .e4m3 => round1 (Fmt.f32.decode x) .e4m3 .rne false
  | .e5m2 => round1 (Fmt.f32.decode x) .e5m2 .rne false
  | .i16 => (wrapInt 16 (clampInt (signedOf 32 x) (-32768) 32767), .none)
  | .i8 => (wrapInt 8 (clampInt (signedOf 32 x) (-128) 127), .none)
def drainBytes : DrainFmt → Nat | .f32 => 4 | .bf16 => 2 | .f16 => 2 | .e4m3 => 1 | .e5m2 => 1 | .i16 => 2 | .i8 => 1
/-- R262: the bytes above the elements of a column are written under FP8 alone. -/
def drainTail (f : DrainFmt) : Option Byte := match f with | .i8 => none | .f32 => some 0 | .bf16 => some 0 | .f16 => some 0 | .e4m3 => some 0 | .e5m2 => some 0 | .i16 => some 0
def drainColumn (s : State) (k : Nat) (f : DrainFmt) (col : Nat) : List (Option Byte) × FpFlags :=
  let es := (List.range 96).map fun i => drainElem f (accRead s k i col)
  ((es.flatMap fun e => (leBytes (drainBytes f) e.1).map some) ++ List.replicate (f.pitch - 96 * drainBytes f) (drainTail f), orAll (es.map Prod.snd))
/-- R262: the full bits of the words that column j of a drain writes. -/
def drainFulls (f : DrainFmt) (pa : Nat) (n : Nat) (s : State) : State :=
  (List.range n).foldl (fun s j => setFulls true (pa + j * f.pitch) ((if (drainTail f).isSome then f.pitch else 96 * drainBytes f) / 8) s) s
/-- R262: on a denial nothing is written. -/
def doDrain (k a c n : Nat) (fe : Bool) (f : DrainFmt) (s : State) : Except Trap State :=
  match (mExtent s k a (n * f.pitch) rightW).orElse fun _ => accUncorrectable s k c n with
  | some tr => .error tr
  | none =>
    let cols := (List.range n).map fun j => drainColumn s k f (c + j)
    let pa := scratchPa s (coreOf k) a
    let s := orMFlags k (orAll (cols.map Prod.snd)) { s with mem := s.mem.storeMasked pa (cols.flatMap Prod.fst) }
    .ok (if fe then drainFulls f pa n s else s)
/-- R263. -/
def doDrainq (k a sc c n : Nat) (nomu : Bool) (sel : Nat) (s : State) : Except Trap State :=
  let nb := (n + 95) / 96
  match (mExtent s k a (6144 * nb) rightW).orElse fun _ => accUncorrectable s k c n with
  | some tr => .error tr
  | none =>
    let block := fun (b i : Nat) => quantise4 ((List.range 96).map fun j => if 96 * b + j < n ∧ c + 96 * b + j < 512 then accRead s k i (c + 96 * b + j) else 0) sc sel (if nomu then 0x4A else 0x4B)
    let bs := (List.range nb).flatMap fun b => (List.range 96).map fun i => block b i
    .ok (orMFlags k (orAll (bs.map Prod.snd)) (writePa (scratchPa s (coreOf k) a) (bs.flatMap Prod.fst) s))
/-- R264. -/
def doZacc (k c n : Nat) (s : State) : State :=
  (List.range n).foldl (fun s j => (List.range 96).foldl (fun s i => accWrite k i (c + j) 0 s) s) s
/-- R266: the flags as the record holds them. -/
def mFlagBits (f : FpFlags) : Nat := 16 * bit f.nv + 4 * bit f.of + 2 * bit f.uf + bit f.nx
def doMstat (k a : Nat) (clr : Bool) (s : State) : Except Trap State :=
  match mExtent s k a 16 rightW, getThread s k with
  | some tr, _ => .error tr
  | none, none => .ok s
  | none, some t =>
    let w0 := t.me.lastCode % 256 * 2 ^ 56 + t.me.lastCause % 256 * 2 ^ 48 + mFlagBits t.mx.flags
    let pa := scratchPa s (coreOf k) a
    let s := setFulls true pa 2 (writePa pa (leBytes 8 w0 ++ leBytes 8 (t.me.words % 2 ^ 32)) s)
    .ok (if clr then modMx k (fun m => { m with flags := .none }) s else s)
/-- R265: the deadline of an `msync` that reaches its bank now, by the limit that it read when it started. -/
def syncDeadline (s : State) (t : Thread) : Option Nat :=
  match t.me.run.bind Run.limit with
  | some 0 => none
  | some n => some (s.cc + n)
  | none => feDeadline s t
/-- R265: an `msync` that starts reads FELIMIT. -/
def readLimit (k : Nat) (s : State) : State :=
  modThread k (fun t => { t with me := { t.me with run := t.me.run.map fun r => match r.word.instr with
    | .msync _ _ => if r.limit.isNone then { r with limit := some t.sys.felimit.toNat } else r
    | _ => r } }) s
/-- R265: `msync` acts at once, or joins the waiters of its word. -/
def doMsync (k a : Nat) (take : Bool) (s : State) : Except Trap State :=
  let pa := scratchPa s (coreOf k) a
  match mRefused s k a 8 (if take then rightR + rightW else rightR), getThread s k with
  | some tr, _ => .error tr
  | none, none => .ok s
  | none, some t =>
    if isFull s pa then .ok (modRun k .m (fun r => { r with sent := true }) (if take then setFull pa false s else s))
    else .ok (modRun k .m (fun r => { r with waiting := true }) (addWaiter pa (.msync k take (syncDeadline s t)) s))

/-! The array (R252). -/

def streams (i : Instr) : Bool := match i with | .mma _ _ => true | .mmaz _ _ => true | _ => false
/-- A slot's word is streaming: it has performed and not finished. -/
def streaming (t : Thread) : Bool := match t.me.run with | some r => streams r.word.instr && r.sent | none => false
/-- R253: every line that M's word in progress touches next has been granted to it. -/
def mServed (s : State) (k : Nat) (t : Thread) (r : Run) : Bool := allServed (coreOf k) (engineRequester k .m) (mLines t r) s
/-- R252: a slot's next word or nest iteration is a multiply that is ready to start: nothing but the array holds it. -/
def wantsArray (s : State) (k : Nat) (t : Thread) : Bool :=
  engineFree t .m && (match t.me.run with
    | some r => (streams r.word.instr && !r.sent) || (match r.word.instr with
      | .nest _ => r.live && !r.sent && !t.stopping && nestToken s.cc t r && mServed s k t r
      | _ => false)
    | none => (match t.me.queue with | w :: _ => streams w.instr && tokensReady s.cc t .m w && !t.stopping | [] => false))
/-- R252: the array is free, and the slot is next in turn. At reset slot 0 counts as granted last, so 1 is first (DESIGN CHOICE,
log entry 10). -/
def arrayGrant (s : State) (k : Nat) : Bool :=
  let mine := s.threads.filter fun x => decide (coreOf x.1 = coreOf k)
  let last := (getCore s (coreOf k)).arrayLast
  !(mine.any fun x => streaming x.2)
    && decide (leastBy (fun j => (j % 4 + 4 - (last + 1) % 4) % 4) ((mine.filter fun x => wantsArray s x.1 x.2).map Prod.fst) = some k)
def noteArray (k : Nat) (s : State) : State := modCore (coreOf k) (fun c => { c with arrayLast := k % 4 }) s

/-! Nests (R267 to R269). -/

def mTypeOk (n : Nat) : Bool := decide (n ≤ 5)
/-- R267. -/
def matrixNestOk (d : List Byte) : Bool :=
  mTypeOk (fieldAt d 0 1) && mTypeOk (fieldAt d 1 1) && decide (1 ≤ mnLevels d) && decide (mnLevels d ≤ 6)
    && (decide (fieldAt d 3 1 < mnLevels d) || decide (fieldAt d 3 1 = 0xFF))
    && decide (fieldAt d 4 2 % 16 = 0) && decide (16 ≤ fieldAt d 4 2) && decide (fieldAt d 4 2 ≤ 512) && decide (fieldAt d 6 2 ≤ 511)
    && decide (fieldAt d 8 4 < 2 ^ 20) && (decide (fieldAt d 1 1 = 5) || decide (fieldAt d 14 2 = 0)) && decide (fieldAt d 16 1 < 4) && zeroAt d 17 15
    && (List.range (mnLevels d)).all fun l => decide (1 ≤ mnCount d l) && zeroAt d (34 + 16 * l) 2 && zeroAt d (46 + 16 * l) 2
      && decide (fieldAt d (36 + 16 * l) 4 % 64 = 0) && decide (fieldAt d (42 + 16 * l) 2 % 16 = 0)
/-- The indices of a nest lie below its counts. -/
def indexOk (d : List Byte) (ix : List Nat) : Bool := (List.range (mnLevels d)).all fun l => decide (ix.getD l 0 < mnCount d l)
/-- The next tuple, level 0 varying fastest; none after the last. -/
def nextIndex (d : List Byte) (ix : List Nat) : Nat → Option (List Nat)
  | 0 => none
  | n + 1 =>
    let l := mnLevels d - (n + 1)
    if ix.getD l 0 + 1 < mnCount d l then some (ix.set l (ix.getD l 0 + 1)) else nextIndex d (ix.set l 0) n
/-- R268: the operands of an iteration pass the checks of R257 against the captured windows. -/
def iterationOk (w : QWord) (ta tb : MType) (a c wd h : Int) (n : Nat) : Bool :=
  if a < 0 ∨ c < 0 ∨ wd < 0 ∨ h < 0 ∨ 65535 < wd ∨ 65535 < h then false
  else
    let b := wd.toNat + 65536 * h.toNat
    let ps := [BitVec.ofNat 64 c.toNat, BitVec.ofNat 64 b, BitVec.ofNat 64 n]
    let fs := [PForm.col, .mat tb, .count 16 512 16]
    decide (a.toNat < 2 ^ 20) && decide (a.toNat % 64 = 0) && inScr w.scrwin a.toNat (96 * ta.rowBytes)
      && (paramTraps 0 fs ps).isEmpty && (mmaTraps 0 w.accwin w.wgtwin tb c.toNat b n).isEmpty
def nestFault (k : Nat) (tr : Trap) (s : State) : State := deferFault k .m tr s
/-- R267, R269: a nest starts at index 0, or resumes where it stood, with its descriptor read again. -/
def startNest (k : Nat) (t : Thread) (r : Run) (s : State) : State :=
  let a := if t.mx.act then t.mx.desc else nthNat r.word.params 0
  match mExtent s k a 128 rightR with
  | some tr => nestFault k tr s
  | none =>
    let d := readPa s (scratchPa s (coreOf k) a) 128
    let ix := if t.mx.act then t.mx.index else [0, 0, 0, 0, 0, 0]
    if ¬ matrixNestOk d ∨ ¬ indexOk d ix then nestFault k (engineFaultOf eBadDesc (BitVec.ofNat 64 a) 0) s
    else modRun k .m (fun r => { r with desc := d, live := true })
      (modMx k (fun m => { m with act := true, desc := a, index := ix, prevA := none }) s)
/-- R268: one iteration. -/
def iterate (k : Nat) (t : Thread) (r : Run) (s : State) : State :=
  let d := r.desc
  let ix := t.mx.index
  let ta := MType.ofCode (fieldAt d 0 1)
  let tb := MType.ofCode (fieldAt d 1 1)
  let n := fieldAt d 4 2
  let a := nestSum d (fieldAt d 8 4) 36 4 ix
  let c := nestSum d (fieldAt d 6 2) 44 2 ix
  let wd := nestSum d (fieldAt d 12 2) 40 2 ix
  let h := nestSum d (fieldAt d 14 2) 42 2 ix
  let z := fieldAt d 3 1
  let s := if flag (fieldAt d 16 1) 0 && !t.mx.popped then
      modThread k (fun t => { t with tokens := setUp t.tokens (upCount t.tokens .m - 1) .m, mx := { t.mx with popped := true } }) s
    else s
  if ¬ iterationOk r.word ta tb a c wd h n then nestFault k (engineFaultOf eNestBound (BitVec.ofInt 64 a) 0) s
  else match (if t.mx.prevA = some a then .ok s else doLda k a.toNat ta s) with
    | .error tr => nestFault k tr s
    | .ok s =>
      let s := modMx k (fun m => { m with prevA := some a }) s
      match doMma k tb (decide (z ≠ 0xFF) && decide (ix.getD z 1 = 0)) c.toNat wd.toNat h.toNat n s with
      | .error x => nestFault k x.1 x.2
      | .ok s =>
        let s := match nextIndex d ix (mnLevels d) with
          | some next => modMx k (fun m => { m with index := next, popped := false }) s
          | none => modRun k .m (fun r => { r with sent := true })
              (modMx k (fun m => { m with act := false, index := [0, 0, 0, 0, 0, 0], prevA := none, popped := false }) s)
        if flag (fieldAt d 16 1) 1 then
          match getThread s k with
          | some u =>
            let p := pushTokens s.cc .m { pu := false, pd := false, su := true, sd := false } u
            let s := setThread s k p.1
            if p.2 then nestFault k (engineFaultOf eToken 0 0) s else s
          | none => s
        else s
/-- R190, R253: M takes the grants it gets in this cc for what its word in progress touches next. -/
def matrixPorts (k : Nat) (t : Thread) (r : Run) (s : State) : State := takeGrants (wants s (coreOf k)) (coreOf k) (engineRequester k .m) (mLines t r) s
def dropMatrixPorts (k : Nat) (t : Thread) (r : Run) (s : State) : State := dropServed (coreOf k) (engineRequester k .m) (mLines t r) s
/-- R268: the next iteration of the nest that runs. -/
def evNestIteration (k : Nat) (s : State) : State :=
  match runThread s k .m with
  | none => s
  | some (t, r) =>
    match r.word.instr with
    | .nest _ =>
      if r.live && mActive s.cc t r then
        let u := matrixPorts k t r s
        if mServed u k t r && arrayGrant u k then iterate k t r (noteArray k (dropMatrixPorts k t r u)) else u
      else s
    | _ => s

/-! Events. -/

/-- What the word of M in progress does; its captured parameters are in its queue entry. -/
def doMatrix (k : Nat) (t : Thread) (r : Run) (s : State) : State :=
  let p := nthNat r.word.params
  let after := fun (x : Except Trap State) => match x with
    | .ok s => modRun k .m (fun r => { r with sent := true }) s
    | .error tr => deferFault k .m tr s
  let mul := fun (u : MType) (zero : Bool) =>
    match doMma k u zero (p 0) (p 1 % 65536) (bits (p 1) 16 16) (p 2) s with
    | .ok s => modRun k .m (fun r => { r with sent := true }) s
    | .error x => deferFault k .m x.1 x.2
  match r.word.instr with
  | .lda _ t => after (doLda k (p 0) t s)
  | .ldac _ i t => after (match accUncorrectable s k (p 0) 96 with | some tr => .error tr | none => .ok (doLdac k (p 0) t i s))
  | .mma _ u => mul u false
  | .mmaz _ u => mul u true
  | .drain _ fe f => after (doDrain k (p 0) (p 1) (p 2) fe f s)
  | .drainq _ nm sel => after (doDrainq k (p 0) (p 1) (p 2) (p 3) nm sel.toNat s)
  | .nest _ => startNest k t r s
  | .zacc _ => after (.ok (doZacc k (p 0) (p 1) s))
  | .msync _ take => (match doMsync k (p 0) take s with | .ok s => s | .error tr => deferFault k .m tr s)
  | .mstat _ clr => after (doMstat k (p 0) clr s)
  | _ => after (.ok s)
/-- R251 to R253: the word in progress performs when its ports and, for a multiply, the array are granted. -/
def performMatrix (k : Nat) (s : State) : State :=
  match runThread s k .m with
  | none => s
  | some (t, r) =>
    if !mActive s.cc t r || r.live then s
    else if streams r.word.instr then (if arrayGrant s k then doMatrix k t r (noteArray k s) else s)
    else
      let u := matrixPorts k t r s
      if mServed u k t r then doMatrix k t r (dropMatrixPorts k t r u) else u
/-- R251, R252, R255, R272: the next word starts, or the faulted one performs again. -/
def evMatrixWordStart (k : Nat) (s : State) : State :=
  match getThread s k with
  | none => s
  | some t =>
    if ¬ engineFree t .m then s
    else match t.me.run with
      | some _ => performMatrix k (readLimit k s)
      | none => match t.me.queue with
        | [] => s
        | w :: _ =>
          if tokensReady s.cc t .m w && !t.stopping && (!streams w.instr || arrayGrant s k) then performMatrix k (readLimit k (takeHead k .m (fun w => { word := w }) s)) else s
/-- R173, R251: a word whose work is done finishes. -/
def evEngineWordFinish (k : Nat) (e : Eng) (s : State) : State :=
  match runThread s k e with
  | none => s
  | some (t, r) =>
    let done := match e with | .m => r.sent | .c0 => copyDone r | .c1 => copyDone r
    if done && engineFree t e then finishWord k e s else s

end Sys2Proof.Machine
end

