-- ==== Sys2Proof/Machine/Host.lean ====
section
/-! DEFINITION. The host link: accesses through the windows, the command ring and its commands (R102, R107, R108, R386,
R388 to R399). -/

namespace Sys2Proof.Machine

/-! Windows (R388, R389). -/

def hostMaster (s : State) : Nat := masterId s 3084
/-- R388: the physical address of a window's byte, if the window has it. -/
def windowPa (s : State) (bar2 : Bool) (o : Nat) : Option Nat :=
  if bar2 then (if o < 2 ^ 40 then some (paOf s.cfg.device (o / 2 ^ 36) (o % 2 ^ 36)) else none)
  else if o < 2 ^ 24 then some (hubPa s + o) else none
/-- An access of the host enters the mesh from the hub, by the hub's attachment nearest to the target in Y (DESIGN CHOICE,
log entry 98: the spec says so of packets for the hub alone). -/
def hostAccess (s : State) (pa : Nat) (op : AccOp) : Access :=
  let src := hubRouter (4 * (paTile pa / 8))
  { owner := .host, master := hostMaster s, pa := pa, op := op, place := .out src.1 src.2 6 false, device := s.cfg.device
    src := src, dst := targetRouter pa src.2 }
def serving (s : State) : Bool := decide (s.service = .running) && s.linkUp
/-- R389: an access of the host within one line. -/
def evHostAccess (x : HostReq) (s : State) : State :=
  match windowPa s x.bar2 x.offset with
  | none => s
  | some pa =>
    if serving s && decide (1 ≤ x.bytes) && decide (x.offset % 64 + x.bytes ≤ 64) then
      sendAccess (hostAccess s pa (if x.write then .write ((leBytes x.bytes x.data).map some) else .read x.bytes)) s
    else s
/-- R389: FetchAdd, Swap and CAS as `amo.add`, `amo.swap` and `cas`. -/
def evHostAtomicop (x : HostAtomic) (s : State) : State :=
  let w : AmoWidth := if x.wide then .w8 else .w4
  let op : AccOp := match x.kind with
    | .fetchAdd => .amo .add w (BitVec.ofNat 64 x.operand)
    | .swap => .amo .swap w (BitVec.ofNat 64 x.operand)
    | .cas => .cas w (BitVec.ofNat 64 x.expected) (BitVec.ofNat 64 x.operand)
  match windowPa s true x.offset with
  | none => s
  | some pa => if serving s && decide (x.offset % w.bytes = 0) then sendAccess (hostAccess s pa op) s else s

/-! The ring (R390 to R392). -/

def ringLen (s : State) : Nat := 2 ^ ringLog s.cmdring
def ringBase (s : State) : Nat := bits s.cmdring.toNat 12 52 * 4096
def validByte (pass : Nat) : Byte := if pass % 2 = 0 then 0x5A else 0xA5
/-- R391: the host writes its own memory; the adapter copies what falls into the ring's pages into the hub's mirror. -/
def hostWrites (a : Nat) (b : List Byte) (s : State) : State :=
  let n := 256 * ringLen s
  let cells := (List.range b.length).filterMap fun i => if ringBase s ≤ a + i ∧ a + i < ringBase s + n then some (a + i - ringBase s, b.getD i 0) else none
  { s with hostMem := s.hostMem.store a b, mirror := cells.foldl (fun m c => m.write c.1 c.2) s.mirror }
def evCommandConsume (s : State) : State :=
  let i := s.ringIndex
  let b := s.mirror.bytes (256 * i) 256
  if ¬ serving s ∨ ¬ ringOn s ∨ b.getD 255 0 ≠ validByte s.ringPass then s
  else
    let last := decide (i + 1 = ringLen s)
    let s := { s with
      commands := put s.commands s.fresh { slot := i, bytes := b }
      fresh := s.fresh + 1
      ringIndex := if last then 0 else i + 1
      ringPass := if last then s.ringPass + 1 else s.ringPass
      consumed := s.consumed + 1 }
    writeHost (ringBase s + 256 * ringLen s) (leBytes 8 s.consumed) s

/-! The life of a command (R391, R393, R394). -/

def cmdType (c : Command) : Nat := fieldAt c.bytes 252 1
def cmdOrder (c : Command) : Nat := fieldAt c.bytes 253 1 % 4
def cmdAsid (c : Command) : Nat := fieldAt c.bytes 8 2
def cmdSmall (c : Command) : Nat := fieldAt c.bytes 12 4
/-- R391: the order in which a command starts; a malformed order is no reason to wait. -/
def mayStart (s : State) (k : Nat) (c : Command) : Bool :=
  let before := s.commands.filter fun d => decide (d.1 < k)
  !c.started && (if cmdOrder c = 0 then before.isEmpty
    else if cmdOrder c = 1 then (match before.getLast? with | some d => d.2.started | none => true)
    else true)
    && !s.accesses.any fun a => decide (a.2.owner = .host) && decide (a.1 < k) && !a.2.performed && a.2.answer.isNone
/-- R391, R393: the header and trailer are well formed, and the body is zero from byte n on. -/
def headerOk (c : Command) (n : Nat) : Bool :=
  decide (fieldAt c.bytes 0 8 % 8 = 0) && decide (fieldAt c.bytes 10 1 / 64 % 2 = 0) && zeroAt c.bytes 11 1
    && decide (fieldAt c.bytes 253 1 / 16 = 0) && zeroAt c.bytes 254 1 && decide (cmdOrder c ≠ 3) && zeroAt c.bytes n (252 - n)
def modCommand (k : Nat) (f : Command → Command) (s : State) : State :=
  match look s.commands k with
  | some c => { s with commands := put s.commands k (f c) }
  | none => s
def finishCommand (k status : Nat) (s : State) : State := modCommand k (fun c => { c with started := true, finished := true, status := status }) s
/-- R382, R393: a command of a type starts: refused while the device is being evicted, malformed, or carried out. -/
def startCommand (k type n : Nat) (ok : Command → Bool) (f : Command → State → State) (s : State) : State :=
  match look s.commands k with
  | none => s
  | some c =>
    if cmdType c ≠ type ∨ ¬ mayStart s k c ∨ ¬ serving s then s
    else if s.evstate ≠ 0 then finishCommand k 2 s
    else if ¬ headerOk c n ∨ ¬ ok c then finishCommand k 1 s
    else f c s
/-- R393: the completion word. -/
def commandWord (c : Command) (status cause : Nat) (node : W64) : W64 :=
  word64 [(status, 60), (cause, 56), (c.slot % 2 ^ 16, 32), (node.toNat, 0)]
/-- The node for whose block an access is made. -/
def nodeOf (s : State) (a : Access) : Option NodeRef :=
  match a.owner, a.keeps with
  | .gone, some (_, n) => some n
  | o, _ => (ownerSlot o).bind fun k => (getThread s k).map Thread.node
def writesMemory : AccOp → Bool
  | .write _ => true | .amo _ _ _ => true | .cas _ _ _ => true | .cas2 _ _ => true | .shapepub _ _ => true | .fe _ _ => true | .bar k _ _ => decide (k ≠ .wait) && decide (k ≠ .query)
  | .read _ => false | .chain _ => false
/-- R391: FSCOPE: a write of the command's work has yet to be acknowledged: any one with SYS, one to host memory with HOST. -/
def scopeBusy (s : State) (c : Command) : Bool :=
  let f := bits (fieldAt c.bytes 253 1) 2 2
  (s.accesses.any fun a => writesMemory a.2.op && !a.2.void && (flag f 1 || (flag f 0 && a.2.host)) && (match nodeOf s a.2 with | some n => c.nodes.contains n | none => false))
    || (flag f 1 && s.ports.any fun p => p.2.buf.any fun v => c.nodes.contains v.node)
/-- R378, R393: the hub reports completions, out of service too, over a link that is up. -/
def reporting (s : State) : Bool := decide (s.service = .running ∨ s.service = .outOfService) && s.linkUp
/-- R391, R393: the work of a command has ended and its writes are as FSCOPE asks: its completion word, then its message. -/
def evCommandCompletion (k : Nat) (s : State) : State :=
  match look s.commands k with
  | none => s
  | some c =>
    if ¬ reporting s ∨ scopeBusy s c then s
    else if ¬ c.finished ∧ 9 < cmdType c ∧ serving s ∧ mayStart s k c then finishCommand k (if s.evstate ≠ 0 then 2 else 1) s
    else if ¬ (c.finished ∨ (cmdType c = 1 ∧ c.started ∧ c.left = 0)) then s
    else
      let st := match c.firstFault with | some f => (5, f.2.2) | none => (c.status, 0)
      let node := match c.nodes with | n :: _ => (if cmdType c = 1 then nodeWord n else 0) | [] => 0
      let addr := fieldAt c.bytes 0 8
      let s := if addr = 0 then s else writeHost addr (bytes64 (commandWord c st.1 st.2 node)) s
      { s with
        commands := erase s.commands k
        msix := if flag (fieldAt c.bytes 10 1) 7 then s.msix ++ [fieldAt c.bytes 10 1 % 64] else s.msix }

/-! The commands (R394, R395). -/

def evNopCommand (k : Nat) (s : State) : State :=
  startCommand k 0 16 (fun c => decide (cmdSmall c = 0)) (fun _ s => finishCommand k 0 s) s
/-- R395: an entry of a node table with its successors named by the entries that the nodes took. -/
def relink (s : State) (ids : List Nat) (d : Desc) : Desc :=
  { d with succ := d.succ.map fun e => if e.2.2 then (ids.getD e.1 0, genOf s (ids.getD e.1 0), false) else e }
def distinct : List Nat → Bool
  | [] => true
  | x :: xs => !xs.contains x && distinct xs
/-- R395: all the nodes of a table or none. -/
def launchTable (k : Nat) (c : Command) (ids : List Nat) (s : State) : State :=
  let n := cmdSmall c
  if hubHeld s none (cmdAsid c) (firmwareMaster s) (BitVec.ofNat 64 (fieldAt c.bytes 16 8)) (256 * n) then s else
  match hubRead (cmdAsid c) (firmwareMaster s) false (BitVec.ofNat 64 (fieldAt c.bytes 16 8)) (256 * n) s with
  | (none, s) => finishCommand k 3 s
  | (some b, s) =>
    let ds := (List.range n).map fun j => (b.drop (256 * j)).take 256
    if ds.any fun d => !descOk d true || (parseDesc d).succ.any fun e => e.2.2 && decide (n ≤ e.1) then finishCommand k 1 s
    else if 8192 < s.nodes.length + n then finishCommand k 4 s
    else if ids.length ≠ n ∨ ¬ distinct ids ∨ ¬ ids.all (entryFree s) then s
    else
      let refs : List NodeRef := ids.map fun i => ⟨i, genOf s i⟩
      let s := modCommand k (fun c => { c with started := true, nodes := refs, left := n }) s
      (ids.zip ds).foldl (fun s x => let d := relink s ids (parseDesc x.2); createNode x.1 (cmdAsid c) d d.args none (some k) s) s
def evLaunchCommand (k : Nat) (ids : List Nat) (s : State) : State :=
  startCommand k 1 24 (fun c => decide (1 ≤ cmdSmall c) && decide (cmdSmall c ≤ 256) && decide (fieldAt c.bytes 16 8 % 256 = 0))
    (fun c s => launchTable k c ids s) s
/-- R102: the pages of a shootdown. -/
def shootPages (c : Command) : List PageRange :=
  (List.range (cmdSmall c)).map fun i =>
    let va : W64 := BitVec.ofNat 64 (fieldAt c.bytes (16 + 8 * i) 8)
    pageRange (if systemHalf va then 0 else cmdAsid c) va (PageSize.ofCode (va.toNat % 4))
def evShootdown (k : Nat) (s : State) : State :=
  match look s.commands k with
  | none => s
  | some c =>
    if c.started then (if cmdType c = 2 ∧ ¬ c.finished ∧ c.covered.all (accessEnded s) then finishCommand k 0 s else s)
    else startCommand k 2 (16 + 8 * min 29 (cmdSmall c))
      (fun c => decide (1 ≤ cmdSmall c) && decide (cmdSmall c ≤ 29) && (List.range (cmdSmall c)).all fun i => decide (fieldAt c.bytes (16 + 8 * i) 1 % 4 ≠ 3))
      (fun c s =>
        let cov := (shootPages c).flatMap fun r => coveredAccesses r s
        modCommand k (fun c => { c with started := true, covered := cov }) ((shootPages c).foldl (fun s r => invalidate r s) s)) s
/-- R107, R108: the dirty bit of a granule of virtual addresses. -/
def harvestBit (asid : Nat) (va : W64) (s : State) : Bool × State :=
  match hubWalk asid (firmwareMaster s) va s with
  | (none, s) => (false, s)
  | (some (w, l), s) =>
    let p := leafPlace s va w l
    if p.2 ∨ ¬ isHbm p.1 then (true, s) else harvestGranule (p.1 / 65536) s
def harvestBits (asid start : Nat) : Nat → Nat → State → List Bool × State
  | 0, _, s => ([], s)
  | n + 1, g, s =>
    let r := harvestBit asid (BitVec.ofNat 64 (start + 65536 * g)) s
    let q := harvestBits asid start n (g + 1) r.2
    (r.1 :: q.1, q.2)
/-- R395: bit g of byte ⌊g/8⌋. -/
def packDirty (l : List Bool) : List Byte :=
  (List.range ((l.length + 7) / 8)).map fun j => BitVec.ofNat 8 ((List.range 8).foldl (fun n i => n + bit (l.getD (8 * j + i) false) * 2 ^ i) 0)
def writableAll (asid : Nat) (va : W64) (n : Nat) (s : State) : Bool × State :=
  (hubPieces va n).foldl (fun (acc : Bool × State) p =>
    let r := hubPlace asid (firmwareMaster acc.2) false 3 rightW p.1 p.2 acc.2
    (acc.1 && r.1.isSome, r.2)) (true, s)
def writeAll (asid : Nat) (va : W64) (b : List Byte) (s : State) : State :=
  (hubPieces va b.length).foldl (fun s p => (hubWrite asid (firmwareMaster s) p.1 ((b.drop (p.1.toNat - va.toNat)).take p.2) s).2) s
def evHarvest (k : Nat) (s : State) : State :=
  startCommand k 3 40
    (fun c => decide (cmdSmall c = 0) && decide (fieldAt c.bytes 16 8 % 65536 = 0) && decide (fieldAt c.bytes 24 8 % 65536 = 0) && decide (fieldAt c.bytes 24 8 ≤ 2 ^ 40))
    (fun c s =>
      let n := fieldAt c.bytes 24 8 / 65536
      let buf : W64 := BitVec.ofNat 64 (fieldAt c.bytes 32 8)
      let ok := writableAll (cmdAsid c) buf ((n + 7) / 8) s
      if hubHeld s none (cmdAsid c) (firmwareMaster s) buf ((n + 7) / 8) then s
      else if ¬ ok.1 then finishCommand k 3 ok.2
      else
        let r := harvestBits (cmdAsid c) (fieldAt c.bytes 16 8) n 0 ok.2
        finishCommand k 0 (writeAll (cmdAsid c) buf (packDirty r.1) r.2)) s
/-- R395: the pending node of the command's ASID that its body names. -/
def cmdNode (s : State) (c : Command) : Option (Nat × Node) :=
  match namedNode s (BitVec.ofNat 64 (fieldAt c.bytes 16 8)) with
  | some x => if x.2.asid = cmdAsid c then some x else none
  | none => none
/-- R345, R394: the node's resident blocks are pre-empted; the command is done when none is left. -/
def evPreempt (k : Nat) (s : State) : State :=
  match look s.commands k with
  | none => s
  | some c =>
    if c.started then
      (if cmdType c = 4 ∧ ¬ c.finished ∧ c.nodes.all (fun n => !s.threads.any fun t => decide (t.2.node = n) && decide (t.2.life = .running)) then finishCommand k 0 s else s)
    else startCommand k 4 24 (fun c => decide (cmdSmall c = 0)) (fun c s =>
      match cmdNode s c with
      | none => finishCommand k 1 s
      | some (i, x) => modCommand k (fun c => { c with started := true, nodes := [⟨i, x.gen⟩] }) s) s
/-- R399: the report that ATTEST writes. -/
def attestReport (s : State) (nonce : List Byte) : List Byte :=
  leBytes 8 1 ++ (List.range 8).map (fun i => Config.manufactureByte (8 + i)) ++ leBytes 2 s.cfg.device ++ leBytes 2 0 ++ leBytes 4 s.boots
    ++ (List.range 64).map Config.firmwareDigest ++ (List.range 64).map Config.configDigest ++ nonce ++ leBytes 8 (hubNs s)
    ++ (List.range 3309).map (Config.signatureByte s.freeCount) ++ List.replicate 19 0
def evAttest (k : Nat) (s : State) : State :=
  startCommand k 5 56 (fun c => decide (cmdSmall c = 0) && decide (fieldAt c.bytes 48 8 % 64 = 0)) (fun c s =>
    let u := writeHost (fieldAt c.bytes 48 8) (attestReport s ((c.bytes.drop 16).take 32)) s
    finishCommand k 0 { u with freeCount := u.freeCount + 1 }) s
def dropRedirect (d : Nat) (s : State) : State :=
  { s with redirects := s.redirects.filter (fun r => decide (r.dev ≠ d)), peerEvicts := s.peerEvicts.filter fun e => decide (e.1 ≠ d) }
def evRedirclr (k : Nat) (s : State) : State :=
  startCommand k 6 16 (fun c => decide (cmdSmall c < 1024)) (fun c s => finishCommand k 0 (dropRedirect (cmdSmall c) s)) s
def evSettvec (k : Nat) (s : State) : State :=
  startCommand k 7 24 (fun c => decide (cmdSmall c = 0)) (fun c s =>
    finishCommand k 0 { s with tvecdef := BitVec.ofNat 64 (fieldAt c.bytes 16 8) &&& ~~~0xE }) s
/-- R395: a saved block of a node is never restored; its cohort loses a member. -/
def dropSaved (n : NodeRef) (s : State) : State :=
  let gone := s.contexts.filter fun c => c.2.threads.any fun t => decide (t.thread.node = n)
  let s := { s with contexts := s.contexts.filterMap fun c =>
    let ts := c.2.threads.filter fun t => decide (t.thread.node ≠ n)
    if ts.isEmpty then none else some (c.1, { c.2 with threads := ts }) }
  gone.foldl (fun s c => (c.2.threads.filter fun t => decide (t.thread.node = n)).foldl (fun s t =>
    match t.thread.cohort with | some m => leaveCohort (awayKey t.thread) m.id s | none => s) s) s
/-- R394, R395: ABORT. -/
def abortNode (id : Nat) (x : Node) (s : State) : State :=
  let n : NodeRef := ⟨id, x.gen⟩
  let s := offLists id (modNode id (fun x => { markFault 0xF s.cc true x with redo := [] }) s)
  let s := (s.parked.filter fun p => decide (p.node = n)).foldl (fun s p => clearParked n p.line s) s
  let s := (s.threads.filter fun t => decide (t.2.node = n)).foldl (fun s t =>
    if t.2.spec then squashThread t.1 s else if t.2.life = .running then killThread t.1 { code := 0 } s else s) s
  let s := { s with
    parked := s.parked.filter fun p => decide (p.node ≠ n)
    specLines := s.specLines.filter fun l => decide (l.node ≠ n) }
  dropSaved n s
def evAbort (k : Nat) (s : State) : State :=
  match look s.commands k with
  | none => s
  | some c =>
    if c.started then
      (if cmdType c = 8 ∧ ¬ c.finished ∧ c.nodes.all (fun n => match look s.nodes n.id with | some x => decide (x.gen ≠ n.gen) | none => true) then finishCommand k 0 s else s)
    else startCommand k 8 24 (fun c => decide (cmdSmall c = 0)) (fun c s =>
      match cmdNode s c with
      | none => finishCommand k 1 s
      | some (i, x) => abortNode i x (modCommand k (fun c => { c with started := true, nodes := [⟨i, x.gen⟩] }) s)) s
/-- R386: the ranges of a SUBST. -/
def substRanges (c : Command) : List MoveRange :=
  (List.range (cmdSmall c)).map fun i => ⟨fieldAt c.bytes (24 + 24 * i) 8, fieldAt c.bytes (32 + 24 * i) 8, fieldAt c.bytes (40 + 24 * i) 8⟩
/-- A range is a multiple of 2 MiB long and lies on its devices. -/
def rangeOk (src dst : Nat) (r : MoveRange) : Bool :=
  decide (r.len % 2 ^ 21 = 0) && decide (1 ≤ r.len) && decide (paDevice r.src = src) && decide (paDevice (r.src + r.len - 1) = src)
    && decide (paDevice r.dst = dst) && decide (paDevice (r.dst + r.len - 1) = dst) && decide (r.src + r.len ≤ 2 ^ 56) && decide (r.dst + r.len ≤ 2 ^ 56)
def smallOf (k : Nat) (s : State) : Nat := match look s.commands k with | some c => cmdSmall c | none => 0
/-- R386: the redirect is in place once nothing toward S is under way; its pair sequence starts afresh. -/
def evSubst (k : Nat) (s : State) : State :=
  startCommand k 9 (24 + 24 * min 9 (smallOf k s))
    (fun c => decide (1 ≤ cmdSmall c) && decide (cmdSmall c ≤ 9) && zeroAt c.bytes 20 4 && (substRanges c).all (rangeOk (fieldAt c.bytes 16 2) (fieldAt c.bytes 18 2)))
    (fun c s =>
      let l := fieldAt c.bytes 16 2
      let d := fieldAt c.bytes 18 2
      if ¬ s.dommap.contains l ∨ l = s.cfg.device ∨ reachable s l ∨ ¬ reachable s d then finishCommand k 1 s
      else if s.frames.any fun f => decide (f.2.peer = d) then s
      else finishCommand k 0 (modPeer d (fun p => { p with ordSend := 0, ordThere := 0, flagSend := 1, flagThere := 1 })
        { s with redirects := s.redirects ++ [{ dev := l, dest := d, ranges := substRanges c }] })) s

end Sys2Proof.Machine
end

