-- ==== Sys2Proof/Machine/Start.lean ====
section
/-! DEFINITION. Starts and power, eviction, the firmware complex, throttling, the Erard link and the identity memory
(R313, R378, R382 to R384, R396, R400 to R404). -/

namespace Sys2Proof.Machine

/-! Starts and power (R400, R401). -/

/-- R401: a start abandons every resident thread, pending node and unconsumed command; what was under way in the
package and the fabric ends with it. -/
def abandon (s : State) : State :=
  { s with
    threads := [], cores := [], accesses := [], links := [], waiters := [], woken := [], walks := [], invals := [], tlb1 := [], tlb2 := [], l1 := []
    migrations := [], frames := [], held := [], relayed := [], notices := [], ctxs := [], autos := [], ports := [], claims := []
    nodes := [], readyLists := [[], [], [], []], reservation := none, cohorts := [], specLines := [], parked := [], contexts := [], hubReqs := []
    commands := [], cmdring := 0x400, ringIndex := 0, ringPass := 0, consumed := 0 }
/-- R403: a command as the management controller's 512-byte buffer holds it. -/
def bufferOf (b : List Byte) : List Byte := (b ++ List.replicate 512 0).take 512
/-- R403: the bytes of a START. -/
def startBytes (warm keep : Bool) : List Byte := [0x01, BitVec.ofNat 8 (bit warm + 2 * bit keep)]
/-- R403: WARM and KEEPHBM of a START; another byte 0 is none. -/
def startFields (b : List Byte) : Option (Bool × Bool) :=
  if fieldAt b 0 1 = 0x01 then some (flag (fieldAt b 1 1) 0, flag (fieldAt b 1 1) 1) else none
/-- R403: what the controller's registers read: EVSTATE is register 0x18. -/
def managementRegister (s : State) (n : Nat) : Nat := if n = 0x18 then s.evstate % 256 else 0
/-- R401: a START begins a warm or cold start; one that arrives during a start begins a cold start. -/
def beginStart (warm keep : Bool) (s : State) : State :=
  match s.service with
  | .unpowered => s
  | .starting _ _ => { abandon s with service := .starting false false, boots := s.boots + 1 }
  | .running => { abandon s with service := .starting warm keep, boots := s.boots + 1 }
  | .outOfService => { abandon s with service := .starting warm keep, boots := s.boots + 1 }
/-- R401, R403: a START is written to the controller's buffer. -/
def evStart (warm keep : Bool) (s : State) : State :=
  let b := bufferOf (startBytes warm keep)
  match startFields b with
  | some f => beginStart f.1 f.2 { s with cmdBuffer := b }
  | none => { s with cmdBuffer := b }
def evPowerOn (s : State) : State :=
  if s.service = .unpowered then { abandon s with service := .starting false false, boots := s.boots + 1 } else s
def evPowerLoss (s : State) : State :=
  if s.service = .unpowered then s else { abandon s with service := .unpowered, linkUp := false, linkLostAt := some s.cc, lanes := s.lanes.map fun l => (l.1, { l.2 with tx := 0, rx := 0, replay := [] }) }
/-- The cells of this device that step 5 zeroes: all, or all but HBM. -/
def zeroed (s : State) (keepHbm : Bool) (m : Memory) : Memory :=
  m.filter fun c => !(decide (paDevice c.1 = s.cfg.device) && !(keepHbm && isHbm c.1))
/-- R17, R130: at step 6 each lane toward a member trains; the loopback is calibrated. -/
def trainingLanes (s : State) : List (Nat × Lane) :=
  (List.range 1024).filterMap fun i =>
    let own := s.cfg.device
    let start := fun (d : Nat) => laneStart own i d (s.cfg.members.contains d)
    let tx := start (txPeer own i)
    let rx := start (rxPeer own i)
    if tx = 0 ∧ rx = 0 then none else some (i, { tx := tx, rx := rx })
/-- R134: at the join the firmware fills RLYTAB by DefaultRelays from the members. -/
def joined (s : State) : State := fillRelays (fun d => s.dommap.contains d) (fun _ => true) s
/-- R400, R401: the registers hold their reset values but those that the start sets, the granule counters among them; a cold
start restarts hub time and clears cicada. -/
def started (warm keep : Bool) (s : State) : State :=
  let kept := warm && keep
  joined { State.reset with
    cc := if warm then s.cc else 0
    mem := zeroed s kept s.mem
    hostMem := s.hostMem
    dir := if kept then s.dir else s.dir.filter fun d => decide (paDevice (64 * d.1) ≠ s.cfg.device)
    granules := s.granules.filter fun g => decide (paDevice (65536 * g.1) ≠ s.cfg.device)
    eccBad := s.eccBad.filter fun l => decide (paDevice (64 * l) ≠ s.cfg.device) || (kept && isHbm (64 * l))
    eccSoft := s.eccSoft.filter fun l => decide (paDevice (64 * l) ≠ s.cfg.device) || (kept && isHbm (64 * l))
    corrected := s.corrected
    log := s.log
    seq := s.seq
    cicada := if warm then s.cicada else []
    peers := (s.cfg.members.filter fun d => decide (d ≠ s.cfg.device)).foldl (fun l d => put l d { member := true }) []
    lanes := trainingLanes s
    dommap := s.cfg.members
    domtag := s.cfg.tag
    tvecdef := s.cfg.tvec &&& ~~~0xE
    cmdBuffer := s.cmdBuffer
    mirror := s.mirror
    msix := s.msix
    boots := s.boots
    lastDev := s.cfg.device
    throttled := s.throttled
    cfg := s.cfg
    agenda := s.agenda
    hostAnswers := s.hostAnswers
    busAnswer := s.busAnswer
    fresh := s.fresh
    freeCount := s.freeCount }
/-- R398: what step 1 finds: a firmware image or a configuration store whose signature fails, or an image older than
the store allows. -/
def startCheck (c : CfgStore) : StartFault :=
  if ¬ c.fwSigned then .badFw else if ¬ c.signed then .badCfg else if c.fwVersion < c.minVersion then .badFw else .none
/-- R400: the start ends; one that fails its first step leaves the package out of service with its status (log entry 83). -/
def evStartComplete (s : State) : State :=
  match s.service with
  | .starting warm keep =>
    if startCheck s.cfg = .none then started warm keep s else { s with service := .outOfService, startFault := startCheck s.cfg }
  | .running => s
  | .outOfService => s
  | .unpowered => s

/-! Out of service, firmware, temperature (R378, R396, R404). -/

def evPackageOutOfService (s : State) : State := outOfService s
/-- R396: a second mismatch within 1 s; otherwise the pair resumes from its checkpoint. -/
def evLockstepMismatch (s : State) : State :=
  match s.mismatchAt with
  | some c => if s.cc ≤ c + usCc 1000000 then outOfService s else { s with mismatchAt := some s.cc }
  | none => { s with mismatchAt := some s.cc }
/-- R396: another worker parses the command again; nothing else comes of it. -/
def evWorkerFault (_worker : Nat) (s : State) : State := s
def evThermalThrottle (s : State) : State := { s with throttled := true }
def evThrottleRelease (s : State) : State := { s with throttled := false }
def evDieLimit (s : State) : State := outOfService s

/-! The Erard link (R313). -/

def writesHost : AccOp → Bool
  | .write _ => true | .amo _ _ _ => true | .cas _ _ _ => true | .cas2 _ _ => true
  | .read _ => false | .fe _ _ => false | .bar _ _ _ => false | .shapepub _ _ => false | .chain _ => false
/-- R313: the writes to host memory that have reached the adapter are known dropped; later ones are as they come. -/
def evErardLinkDown (s : State) : State :=
  let s := { s with linkUp := false, linkLostAt := some (s.linkLostAt.getD s.cc) }
  (s.accesses.filter fun a => a.2.host && decide (a.2.place = .target) && !a.2.performed && writesHost a.2.op).foldl (fun s a => answerLost a.1 s) s

/-! Eviction (R382 to R384, R403). -/

def evictFields (cmd : List Byte) : Nat × List MoveRange :=
  (fieldAt cmd 2 2, (List.range (fieldAt cmd 1 1)).map fun i => ⟨fieldAt cmd (8 + 24 * i) 8, fieldAt cmd (16 + 24 * i) 8, fieldAt cmd (24 + 24 * i) 8⟩)
/-- R382, R383: a notice of the eviction goes as a CTRL frame to every peer that can be reached. -/
def tellPeers (dev dest : Nat) (done : Bool) (ranges : List MoveRange) (s : State) : State :=
  { s with evictSent := s.evictSent ++ (s.dommap.filter (ctrlReaches s)).map fun d => ⟨d, dev, dest, done, ranges⟩ }
/-- R382: EVICT; a command that breaks the layout of R403 is refused. Dispatch stops; automatic circuits are torn; the peers
learn of it. -/
def evEvict (cmd : List Byte) (s : State) : State :=
  let s := { s with cmdBuffer := bufferOf cmd }
  let r := evictFields cmd
  let n := fieldAt cmd 1 1
  if s.service = .running ∧ s.evstate = 0 ∧ fieldAt cmd 0 1 = 0x10 ∧ 1 ≤ n ∧ n ≤ 16 ∧ zeroAt cmd 4 4 ∧ 8 + 24 * n ≤ cmd.length
      ∧ isMember s r.1 ∧ r.1 ≠ s.cfg.device ∧ r.2.all (fun m => rangeOk s.cfg.device r.1 m && isHbm m.src && isHbm m.dst) then
    tellPeers s.cfg.device r.1 false [] { s with evstate := 1, evictTo := r.1, evictRanges := r.2, autos := [] }
  else s
/-- R382: every resident thread has been pre-empted and every circuit torn; copying begins. -/
def evEvictionMoving (s : State) : State :=
  if s.evstate = 1 ∧ s.threads.isEmpty ∧ s.ctxs.isEmpty then { s with evstate := 2 } else s
/-- R382, R384: the ranges stand on the neighbour, which holds the contexts and nodes; accesses follow the ranges. -/
def evEvictionRedirected (s : State) : State :=
  if s.evstate = 2 ∧ reachable s s.evictTo then
    let m := s.evictRanges.foldl (fun m r => moveBytes r.src r.dst r.len m) s.mem
    { s with
      evstate := 3
      mem := m
      redirects := s.redirects ++ [{ dev := s.cfg.device, dest := s.evictTo, ranges := s.evictRanges, carry := true }]
      contexts := [], nodes := [], readyLists := [[], [], [], []], reservation := none, cohorts := [], parked := [], specLines := [] }
  else s
/-- R382: nothing is under way to or from this device, and it relays nothing. -/
def evEvictionDrained (s : State) : State :=
  if s.evstate = 3 ∧ s.frames.isEmpty ∧ s.held.isEmpty ∧ s.relayed.isEmpty ∧ s.accesses.all (fun a => decide (a.2.device = s.cfg.device) && (match a.2.owner with | .peer _ _ => false | _ => true)) then { s with evstate := 4 } else s
/-- R382, R402: the combs are dark and the package is without power. -/
def evSafeToUnlatch (s : State) : State :=
  if s.evstate = 4 then { evPowerLoss s with evstate := 5, unlatch := 1 } else s
/-- R382, R403: the neighbour refused, is unreachable or its ranges are too small; the state returns to IDLE when the
contexts have been restored. -/
def evEvictionFailed (cause : Nat) (s : State) : State :=
  if s.evstate % 16 = 15 then (if s.contexts.isEmpty then { s with evstate := 0, evictRanges := [] } else s)
  else if (s.evstate = 1 ∨ s.evstate = 2) ∧ 1 ≤ cause ∧ cause ≤ 3 ∧ (cause = 2 → ¬ reachable s s.evictTo) then
    { s with evstate := 15 + 16 * cause, threads := s.threads.map fun t => (t.1, { t.2 with stopping := false }) }
  else s
/-- R383: a peer removes an evicted device from its relays and holds new frames for it. -/
def evEvictNotice (dev dest : Nat) (s : State) : State :=
  if isMember s dev ∧ dev ≠ s.cfg.device ∧ isMember s dest ∧ ¬ (s.peerEvicts.any fun e => decide (e.1 = dev)) then
    relaysWithout dev (modPeer dev (fun p => { p with absent := true }) { s with peerEvicts := s.peerEvicts ++ [(dev, dest)] })
  else s
/-- What the hub of another device sends when its work moves here (R384): any work at all, since it comes from outside
this device (a free value of the configuration, log entry 104). -/
opaque Config.movedWork : Nat → MovedWork

/-- R333, R384: the entry that each moved node takes: its own id where that is free here, else one that none of them had
(DESIGN CHOICE, log entry 104). -/
def seats (taken : List Nat) (limit : Nat) (ids : List Nat) : Option (List (Nat × Nat)) :=
  ids.foldl (fun acc i => acc.bind fun m =>
    let used := taken ++ m.map Prod.snd
    if ¬ used.contains i then some (m ++ [(i, i)])
    else ((List.range limit).find? fun j => !used.contains j && !ids.contains j).map fun j => m ++ [(i, j)]) (some [])
/-- The number that a moved thing has here; one that has not come has none. -/
def seatOf (m : List (Nat × Nat)) (i : Nat) : Nat := ((m.find? fun x => decide (x.1 = i)).map Prod.snd).getD 8192
/-- How the names of moved work read here: its nodes, its cohorts, by how much its dispatch numbers grow, and the device it
comes from. -/
structure Moving where
  nodes : List (Nat × Nat)
  cohorts : List (Nat × Nat)
  shift : Nat
  dev : Nat
  deriving DecidableEq, Repr
def moveRef (s : State) (m : Moving) (n : NodeRef) : NodeRef :=
  if seatOf m.nodes n.id = 8192 then ⟨8192, n.gen⟩ else ⟨seatOf m.nodes n.id, genOf s (seatOf m.nodes n.id)⟩
def moveNode (s : State) (m : Moving) (x : Nat × Node) : Nat × Node :=
  let i := seatOf m.nodes x.1
  (i, { x.2 with
    gen := genOf s i
    desc := { x.2.desc with succ := x.2.desc.succ.map fun e => let r := moveRef s m ⟨e.1, e.2.1⟩; (r.id, r.gen, e.2.2) }
    launcher := x.2.launcher.map fun l => (l.1, l.2 + m.shift)
    command := none })
/-- R384: the node handle words that the thread holds name the moved nodes. -/
def moveThread (s : State) (m : Moving) (w : MovedWork) (t : Thread) : Thread :=
  { t with
    node := moveRef s m t.node
    dispatched := t.dispatched + m.shift
    cohort := t.cohort.map fun c => { c with id := seatOf m.cohorts c.id }
    leaving := []
    names := w.nodes.map fun x => (nodeWord ⟨x.1, x.2.gen⟩, nodeWord (moveRef s m ⟨x.1, x.2.gen⟩)) }
def moveContext (s : State) (m : Moving) (w : MovedWork) (c : Context) : Context :=
  { c with
    device := m.dev
    threads := c.threads.map fun x => { x with
      thread := moveThread s m w x.thread
      asks := x.asks.map fun r => { r with who := r.who + m.shift } }
    program := c.program.map fun p => { p with cohort := seatOf m.cohorts p.cohort, node := moveRef s m p.node } }
/-- A hub can hold this work: its numbers are distinct and every thread's node and cohort come with it. -/
def workOk (w : MovedWork) : Bool :=
  let ns := w.nodes.map Prod.fst
  let cs := w.cohorts.map Prod.fst
  distinct ns && distinct cs && ns.all (fun i => decide (i < 8192)) && cs.all (fun i => decide (i < 4096))
    && w.contexts.all fun c => c.threads.all fun x =>
      (w.nodes.any fun n => decide (n.1 = x.thread.node.id) && decide (n.2.gen = x.thread.node.gen))
        && (match x.thread.cohort with | some m => cs.contains m.id | none => true)
/-- R381, R384: this hub holds the moved contexts, as those of the device they come from, and nodes; the ready ones enter their lists. A hub without room for them refuses. -/
def receiveWork (dev : Nat) (w : MovedWork) (s : State) : Option State :=
  match seats (s.nodes.map Prod.fst) 8192 (w.nodes.map Prod.fst), seats (s.cohorts.map Prod.fst) 4096 (w.cohorts.map Prod.fst) with
  | some ns, some cs =>
    if ¬ workOk w then none
    else
      let m : Moving := ⟨ns, cs, s.fresh, dev⟩
      let u := { s with
        nodes := w.nodes.foldl (fun l x => let y := moveNode s m x; put l y.1 y.2) s.nodes
        cohorts := w.cohorts.foldl (fun l x => put l (seatOf cs x.1) { x.2 with members := x.2.members.map fun k => (k.1 + s.fresh, k.2) }) s.cohorts
        contexts := (w.contexts.mapIdx fun i c => (s.fresh + i, moveContext s m w c)).foldl (fun l c => put l c.1 c.2) s.contexts
        fresh := s.fresh + w.fresh + w.contexts.length }
      some ((w.lists.flatMap fun l => l.filter fun i => ns.any fun x => decide (x.1 = i)).foldl (fun u i =>
        match look u.nodes (seatOf ns i) with
        | some x => if x.ready && !(listOf u x.desc.prio).contains (seatOf ns i) then makeReady (seatOf ns i) u else u
        | none => u) u)
  | _, _ => none
/-- R383: an access that waits toward a moved range goes to the neighbour. -/
def moves (s : State) (dev : Nat) (a : Access) : Bool :=
  !a.host && decide (a.device = dev) && decide (redirect s a.pa ≠ a.pa) && !a.performed && (match a.place with
    | .waiting => true | .out _ _ _ r => !r | .request _ _ _ _ => true | .target => true
    | .response _ _ _ _ => false | .back => false | .fabric => false | .absorbed => false)
def retarget (s : State) (a : Access) : Access :=
  let pa := redirect s a.pa
  { a with pa := pa, device := paDevice pa, watching := false
           dst := if paDevice pa = s.cfg.device then targetRouter pa a.src.2 else engineRouter (directEngine (paDevice pa)) }
/-- R383: the ranges have moved: frames for them go to the neighbour with the pair's numbers carried over, the others to the
device until it is gone; `here` are the numbers of each source, on the neighbour. -/
def followMove (dev dest : Nat) (ranges : List MoveRange) (here : List (Nat × Nat)) (s : State) : State :=
  let p := peerAt s dev
  let s : State := { s with
    mem := ranges.foldl (fun m r => moveBytes r.src r.dst r.len m) s.mem
    peerEvicts := s.peerEvicts.filter (fun e => decide (e.1 ≠ dev))
    redirects := s.redirects ++ [{ dev := dev, dest := dest, ranges := ranges, carry := true, ordSend := p.ordSend, ordThere := p.ordThere, ordHere := here }] }
  let ids := (s.accesses.filter fun a => moves s dev a.2).map Prod.fst
  { s with
    accesses := s.accesses.map fun a => (a.1, if ids.contains a.1 then retarget s a.2 else a.2)
    waiters := s.waiters.map fun w => (w.1, w.2.filter fun x => match x with
      | .remote id _ => !ids.contains id
      | .thread _ _ _ _ => true | .msync _ _ _ => true) }
/-- R383, R384: the device that takes the work announces that the move is done, once the frames in flight have completed; on
that device the work is there by then. -/
def evMoveDoneNotice (dev dest : Nat) (ranges : List MoveRange) (s : State) : State :=
  if (s.peerEvicts.any fun e => decide (e = (dev, dest))) ∧ ranges.all (rangeOk dev dest) ∧ ¬ (s.frames.any fun f => decide (f.2.peer = dev) && !f.2.applied) then
    if dest ≠ s.cfg.device then followMove dev dest ranges [] s
    else
      let w := Config.movedWork s.freeCount
      match receiveWork dev w { s with freeCount := s.freeCount + 1 } with
      | some u => tellPeers dev dest true ranges (followMove dev dest ranges w.ordHere u)
      | none => s
  else s

/-! The identity memory (R402). -/

/-- CRC-32 of bytes, one bit at a time; its polynomial is PRESUMED (log entry 14). -/
def crcBits : Nat → Nat → Nat
  | 0, c => c
  | n + 1, c => crcBits n (if c % 2 = 1 then (c / 2) ^^^ 0xEDB88320 else c / 2)
def crc32 (b : List Byte) : Nat := (b.foldl (fun c x => crcBits 8 (c ^^^ x.toNat)) 0xFFFFFFFF) ^^^ 0xFFFFFFFF
def orderName : List Byte := [0x4D, 0x4C, 0x56, 0x2D, 0x37, 0x32, 0x31, 0x36]
def identityBody (s : State) : List Byte :=
  orderName ++ (List.range 14).map (fun i => Config.manufactureByte (8 + i)) ++ leBytes 2 s.lastDev ++ leBytes 1 s.unlatch ++ List.replicate 7 0
    ++ (List.range 64).map (fun i => Config.manufactureByte (32 + i)) ++ List.replicate 156 0
def identityMemory (s : State) : List Byte := identityBody s ++ leBytes 4 (crc32 (identityBody s))
/-- R402: the bytes that a private read answers, powered or not. -/
def identityRead (s : State) (offset count : Nat) : List Byte := ((identityMemory s).drop offset).take count
/-- R402: the answer goes to the bus; nothing of the machine itself changes. -/
def evIdentityMemoryRead (offset count : Nat) (s : State) : State := { s with busAnswer := identityRead s offset count }

end Sys2Proof.Machine
end

