-- ==== Sys2Proof/Machine/Events.lean ====
section
/-! DEFINITION. The step of each event: it takes place when its conditions hold, and otherwise nothing changes. -/

namespace Sys2Proof.Machine

/-- R154. Performs when the leading member issues program vc B + T, sets S and performs its group of words. -/
def execStep (ctx : Nat) (s : State) : Host.Outcome State Fault Refusal :=
  .next (evStep ctx s)
/-- R154. One repetition of the word after rpt performs when the leading member reaches S + k × I. -/
def execRptRepetition (ctx : Nat) (s : State) : Host.Outcome State Fault Refusal :=
  .next (evRptRepetition ctx s)
/-- R154. Waits until a handle state or member-progress condition holds, then continues the group. -/
def execWaitc (ctx : Nat) (s : State) : Host.Outcome State Fault Refusal :=
  .next (evWaitc ctx s)
/-- R71. At the end of vc t + L − 1 the results falling due are pushed in the order of R211 and their flags are ORed into FPC. -/
def execResultPush (slot : Nat) (s : State) : Host.Outcome State Fault Refusal :=
  .next (evResultPush slot s)
/-- R73. A late result arrives, is pushed at its virtual time, and the stopped thread resumes. -/
def execLateItemArrival (slot : Nat) (s : State) : Host.Outcome State Fault Refusal :=
  .next (evLateItemArrival slot s)
/-- R91. A failed fetch translation raises PAGE_FAULT at the fetched bundle. -/
def execBundleFetchFault (slot : Nat) (s : State) : Host.Outcome State Fault Refusal :=
  .next (evBundleFetchFault slot s)
/-- R322. The core switches to another ready slot in 4 cc when the current slot is not ready. -/
def execSlotSwitch (core : Nat) (s : State) : Host.Outcome State Fault Refusal :=
  .next (evSlotSwitch core s)
/-- R322. After 8192 cc as current slot, the core switches if another slot is ready. -/
def execQuantumExpiry (core : Nat) (s : State) : Host.Outcome State Fault Refusal :=
  .next (evQuantumExpiry core s)
/-- R370. The user-mode resident count reaches LIMIT × 65536 and WATCHDOG is raised as a boundary trap. -/
def execWatchdogExpiry (slot : Nat) (s : State) : Host.Outcome State Fault Refusal :=
  .next (evWatchdogExpiry slot s)
/-- R373. Once pending results arrive, saves the queues, writes the trap registers and enters the handler in system mode, or kills the thread. -/
def execTrapEntry (slot : Nat) (s : State) : Host.Outcome State Fault Refusal :=
  .next (evTrapEntry slot s)
/-- R364. A pending boundary trap is raised at the first bundle boundary after its event reaches the thread. -/
def execBoundaryTrap (slot : Nat) (s : State) : Host.Outcome State Fault Refusal :=
  .next (evBoundaryTrap slot s)
/-- R201. In the cc after a full/empty change, the earliest waiter whose condition holds performs its action. -/
def execFeWaiterPerform (word : Nat) (s : State) : Host.Outcome State Fault Refusal :=
  .next (evFeWaiterPerform word s)
/-- R202. A full/empty waiter's deadline passes; it is removed and FE_TIMEOUT is raised. -/
def execFeTimeout (word : Nat) (waiter : Nat) (s : State) : Host.Outcome State Fault Refusal :=
  .next (evFeTimeout word waiter s)
/-- R74. A further pass of vgath or vscat serves up to 8 lanes per bank. -/
def execVgathPass (slot : Nat) (s : State) : Host.Outcome State Fault Refusal :=
  .next (evVgathPass slot s)
/-- R190. A bank's engine port grants one requester by rotating priority and serves one line. -/
def execEnginePortAccess (slot : Nat) (e : Eng) (k : Nat) (s : State) : Host.Outcome State Fault Refusal :=
  .next (evEnginePortAccess slot e k s)
/-- R89. A hardware walk finishes with a leaf or a fault and fills the handle or TLB. -/
def execPageWalkComplete (slot : Nat) (tag : Nat) (s : State) : Host.Outcome State Fault Refusal :=
  .next (evPageWalkComplete slot tag s)
/-- R98. The invalidation ends once its translations are cleared, the shootdown count is raised and covered accesses have ended; the held thread resumes. -/
def execXinvalComplete (slot : Nat) (s : State) : Host.Outcome State Fault Refusal :=
  .next (evXinvalComplete slot s)
/-- R107. The harvest has read and cleared G at every granule home and set D; the held thread resumes. -/
def execHarvComplete (slot : Nat) (s : State) : Host.Outcome State Fault Refusal :=
  .next (evHarvComplete slot s)
/-- R105. Every 1 ms the hub evaluates the granule counters, chooses pages to migrate and clears the counts. -/
def execMigrationEvaluation (s : State) : Host.Outcome State Fault Refusal :=
  .next (evMigrationEvaluation s)
/-- R106. A page's lines are moved, its leaf rewritten and shot down, and the old frame is returned to the pool. -/
def execPageMigrationComplete (k : Nat) (s : State) : Host.Outcome State Fault Refusal :=
  .next (evPageMigrationComplete k s)
/-- R104. A line access arrives at a home slice, is checked, counted, leased or granted ownership, and performed or forwarded. -/
def execHomeLineAccess (id : Served) (s : State) : Host.Outcome State Fault Refusal :=
  .next (evHomeLineAccess id.id id.ok s)
/-- R276. An atomic is performed at its home or engine port as one action and its old value returned. -/
def execAtomicPerform (id : Served) (s : State) : Host.Outcome State Fault Refusal :=
  .next (evAtomicPerform id.id id.ok s)
/-- R116. A packet advances through a router by dimension-ordered routing on its virtual channel. -/
def execPacketRoute (id : Nat) (s : State) : Host.Outcome State Fault Refusal :=
  .next (evPacketRoute id s)
/-- R126. A merging router receives the reply of a merged atomic and answers both issuers. -/
def execMergedReplySplit (id : Nat) (s : State) : Host.Outcome State Fault Refusal :=
  .next (evMergedReplySplit id s)
/-- R120. A response arrives at a master's interface, is delivered, and frees its response-receive slot or store-buffer entry. -/
def execResponseReceive (id : Nat) (s : State) : Host.Outcome State Fault Refusal :=
  .next (evResponseReceive id s)
/-- R121. A bounced packet returns to its master and is injected again under the same slot. -/
def execBounceReinject (id : Nat) (s : State) : Host.Outcome State Fault Refusal :=
  .next (evBounceReinject id s)
/-- R122. A flit arrives and is checked by CRC and sequence, or discarded with a replay request. -/
def execFlitReceive (link : LinkId) (ok : Bool) (s : State) : Host.Outcome State Fault Refusal :=
  .next (evFlitReceive (linkKey link.x link.y link.port) ok s)
/-- R122. A sender receives a replay request and resends from its replay buffer. -/
def execReplayRequest (link : LinkId) (s : State) : Host.Outcome State Fault Refusal :=
  .next (evReplayRequest (linkKey link.x link.y link.port) s)
/-- R122. A receiver acknowledges flits cumulatively at least every 16 cc. -/
def execLinkAck (link : LinkId) (s : State) : Host.Outcome State Fault Refusal :=
  .next (evLinkAck (linkKey link.x link.y link.port) s)
/-- R122. Retraining ends: held flits are sent, or on failure the package goes out of service. -/
def execLinkRetrainDone (link : LinkId) (ok : Bool) (s : State) : Host.Outcome State Fault Refusal :=
  .next (evLinkRetrainDone (linkKey link.x link.y link.port) ok s)
/-- R119. A credit flit returns a free buffer slot to the sender. -/
def execCreditReturn (link : LinkId) (resp : Bool) (s : State) : Host.Outcome State Fault Refusal :=
  .next (evCreditReturn (linkKey link.x link.y link.port) resp s)
/-- R123. Every 256 cc a receiver sends a credit-sync flit on each input and channel. -/
def execCreditSyncSend (link : LinkId) (resp : Bool) (s : State) : Host.Outcome State Fault Refusal :=
  .next (evCreditSyncSend (linkKey link.x link.y link.port) resp s)
/-- R123. A sender resets its credit count from a credit-sync flit. -/
def execCreditSyncReceive (link : LinkId) (resp : Bool) (s : State) : Host.Outcome State Fault Refusal :=
  .next (evCreditSyncReceive (linkKey link.x link.y link.port) resp s)
/-- R131. At the end of each 1 ms window a lane receiver measures W and decides code changes or leaving service. -/
def execBerWindow (lane : Nat) (w : BitVec 32) (uncorr : Nat) (s : State) : Host.Outcome State Fault Refusal :=
  .next (evBerWindow lane w uncorr s)
/-- R132. The sending device receives a code request, finishes its codeword and sends a marker before switching code. -/
def execCodeRequest (lane : Nat) (code : BitVec 2) (s : State) : Host.Outcome State Fault Refusal :=
  .next (evCodeRequest lane code.toNat s)
/-- R132. No marker arrives within 1 ms and the receiver repeats its code request. -/
def execCodeMarkerTimeout (lane : Nat) (s : State) : Host.Outcome State Fault Refusal :=
  .next (evCodeMarkerTimeout lane s)
/-- R132. The receiver decodes the marker, switches code and sends a completion; both record CODE_CHANGE. -/
def execCodeChange (lane : Nat) (s : State) : Host.Outcome State Fault Refusal :=
  .next (evCodeChange lane s)
/-- R137. An ORD frame arrives and is applied in pair sequence order or held in the reorder buffer. -/
def execOrdFrameReceive (f : FrameRef) (s : State) : Host.Outcome State Fault Refusal :=
  .next (evOrdFrameReceive f s)
/-- R139. A BULK frame arrives, duplicates are discarded, and it is applied and acknowledged. -/
def execBulkFrameReceive (f : FrameRef) (s : State) : Host.Outcome State Fault Refusal :=
  .next (evBulkFrameReceive f s)
/-- R183. A held FLAG frame is applied once every APPLIED count reaches its carried SENT count. -/
def execFlagFrameApply (f : FrameRef) (s : State) : Host.Outcome State Fault Refusal :=
  .next (evFlagFrameApply f s)
/-- R139. An end-to-end acknowledgement arrives and the sender releases the frame. -/
def execFrameAckReceive (id : Nat) (s : State) : Host.Outcome State Fault Refusal :=
  .next (evFrameAckReceive id s)
/-- R138. A CTRL frame returns end-to-end receive credits to the sender. -/
def execEndToEndCredit (peer : Nat) (ord : Nat) (bulk : Nat) (s : State) : Host.Outcome State Fault Refusal :=
  .next (evEndToEndCredit peer ord bulk s)
/-- R139. A frame unacknowledged for 20 µs is sent again on a usable path. -/
def execFrameResendTimeout (id : Nat) (path : Nat) (s : State) : Host.Outcome State Fault Refusal :=
  .next (if sentOn s id path then evFrameResendTimeout id s else s)
/-- R140. A frame not delivered within 50 µs of entering the fabric is discarded where it is held. -/
def execFrameAgeDiscard (id : Nat) (s : State) : Host.Outcome State Fault Refusal :=
  .next (evFrameAgeDiscard id s)
/-- R140. A frame lost on a lane is replayed from the lane's buffer. -/
def execLaneFrameReplay (id : Nat) (s : State) : Host.Outcome State Fault Refusal :=
  .next (evLaneFrameReplay id s)
/-- R138. A relay forwards a held frame into the destination's reservation. -/
def execRelayForward (id : Nat) (s : State) : Host.Outcome State Fault Refusal :=
  .next (evRelayForward id s)
/-- R143. At least every 10 µs a device sends a keepalive to each reachable member. -/
def execKeepaliveSend (peer : Nat) (s : State) : Host.Outcome State Fault Refusal :=
  .next (evKeepaliveSend peer s)
/-- R143. After 50 µs with no frame from a peer, only keepalives are sent to it. -/
def execPeerSilenceHold (peer : Nat) (s : State) : Host.Outcome State Fault Refusal :=
  .next (evPeerSilenceHold peer s)
/-- R143. After 100 µs without a path or a frame, a peer is declared unreachable and its outstanding accesses and copies are ended. -/
def execPeerLost (peer : Nat) (s : State) : Host.Outcome State Fault Refusal :=
  .next (evPeerLost peer s)
/-- R143. A path to an unreachable peer returns; credits and sequence numbers are exchanged afresh and relays refilled. -/
def execPeerBack (peer : Nat) (s : State) : Host.Outcome State Fault Refusal :=
  .next (evPeerBack peer s)
/-- R385. Within 1 ms of PEER_LOST the firmware refills RLYTAB with the lost device treated as absent. -/
def execRelayRefill (peer : Nat) (s : State) : Host.Outcome State Fault Refusal :=
  .next (evRelayRefill peer s)
/-- R142. An engine's comb fails and its 32 transmit lanes leave service. -/
def execCombLoss (engine : Nat) (s : State) : Host.Outcome State Fault Refusal :=
  .next (evCombLoss engine s)
/-- R142. A failed comb locks again and its lanes retrain. -/
def execCombRelock (engine : Nat) (s : State) : Host.Outcome State Fault Refusal :=
  .next (evCombRelock engine s)
/-- R141. A transmit or receive ring loses tuning and its lane leaves service. -/
def execTuneLoss (lane : Nat) (rx : Bool) (s : State) : Host.Outcome State Fault Refusal :=
  .next (evTuneLoss lane rx s)
/-- R141. A lane loses its signal and leaves service. -/
def execLaneDown (lane : Nat) (rx : Bool) (s : State) : Host.Outcome State Fault Refusal :=
  .next (evLaneDown lane rx s)
/-- R141. A retrained lane returns to service at strong code. -/
def execLaneUp (lane : Nat) (rx : LaneEnd) (s : State) : Host.Outcome State Fault Refusal :=
  .next (evLaneUp lane rx.rx rx.tag s)
/-- R144. A CTRL notice of a lane event at a peer or relay arrives and is recorded. -/
def execLaneNotice (rec : PeerNotice) (s : State) : Host.Outcome State Fault Refusal :=
  .next (evLaneNotice rec.src rec.record s)
/-- R152. 240 cc after a path is set, a SETTLING or REPAIRING handle becomes LIVE. -/
def execCircuitSettled (ctx : Nat) (h : Nat) (s : State) : Host.Outcome State Fault Refusal :=
  .next (evCircuitSettled ctx h s)
/-- R159. A circuit's path fails; the handle enters DOWN and CIRC_FAIL is recorded. -/
def execCircuitFailure (ctx : Nat) (h : Nat) (cause : Nat) (s : State) : Host.Outcome State Fault Refusal :=
  .next (evCircuitFailure ctx h cause s)
/-- R159. Under basic policy the sequencer starts a repair, entering REPAIRING with a new generation. -/
def execCircuitRepairStart (ctx : Nat) (h : Nat) (s : State) : Host.Outcome State Fault Refusal :=
  .next (evCircuitRepairStart ctx h s)
/-- R159. The 2 µs route search ends with a new route set or the handle back in DOWN. -/
def execCircuitRepairSearchEnd (ctx : Nat) (h : Nat) (found : Bool) (src : Nat) (s : State) : Host.Outcome State Fault Refusal :=
  .next (evCircuitRepairSearchEnd ctx h found src s)
/-- R156. A pending tear performs after every member has issued vc T − 1, and the circuit drains. -/
def execTearPerform (ctx : Nat) (h : Nat) (s : State) : Host.Outcome State Fault Refusal :=
  .next (evTearPerform ctx h s)
/-- R156. The last accepted vector or chunk lands and the handle becomes IDLE. -/
def execTearComplete (ctx : Nat) (h : Nat) (s : State) : Host.Outcome State Fault Refusal :=
  .next (evTearComplete ctx h s)
/-- R167. A vector lands in the next ring slot once its word 0 is empty, setting full bits and LANDED. -/
def execCsendLanding (port : Nat) (s : State) : Host.Outcome State Fault Refusal :=
  .next (evCsendLanding port s)
/-- R163. An automatic circuit unused for 20 µs is torn. -/
def execAutoCircuitIdleTear (src : Nat) (s : State) : Host.Outcome State Fault Refusal :=
  .next (evAutoCircuitIdleTear src s)
/-- R176. A copy word starts after the previous word, pops its tokens and chooses its route. -/
def execCopyWordStart (slot : Nat) (c : Chan) (s : State) : Host.Outcome State Fault Refusal :=
  .next (evCopyWordStart slot c s)
/-- R251. An M word starts after its predecessor, or when granted the array. -/
def execMatrixWordStart (slot : Nat) (s : State) : Host.Outcome State Fault Refusal :=
  .next (evMatrixWordStart slot s)
/-- R268. One iteration of a matrix nest pops, checks, loads A if needed and multiplies. -/
def execNestIteration (slot : Nat) (s : State) : Host.Outcome State Fault Refusal :=
  .next (evNestIteration slot s)
/-- R173. An engine word finishes and pushes its tokens. -/
def execEngineWordFinish (slot : Nat) (e : Eng) (s : State) : Host.Outcome State Fault Refusal :=
  .next (evEngineWordFinish slot e s)
/-- R283. A chain's packet reaches a home, is translated and read, and is forwarded or fetched. -/
def execChainStep (id : Nat) (k : Nat) (s : State) : Host.Outcome State Fault Refusal :=
  .next (if atStep s id k then evChainStep id s else s)
/-- R285. A chain's data or fault status returns and is written at DEST and STAT. -/
def execChainReturn (id : Nat) (k : Nat) (s : State) : Host.Outcome State Fault Refusal :=
  .next (if forEntry s id k then evChainReturn id s else s)
/-- R294. A barrier operation acts on its object as one action, flipping the phase when complete. -/
def execBarrierAction (id : Nat) (s : State) : Host.Outcome State Fault Refusal :=
  .next (evBarrierAction id s)
/-- R297. A barwait's FELIMIT deadline passes and FE_TIMEOUT is raised. -/
def execBarwaitTimeout (slot : Nat) (s : State) : Host.Outcome State Fault Refusal :=
  .next (evBarwaitTimeout slot s)
/-- R314. A fence whose outstanding writes have no path completes after FENCE_LIMIT, reporting them dropped. -/
def execFenceLimitExpiry (slot : Nat) (s : State) : Host.Outcome State Fault Refusal :=
  .next (evFenceLimitExpiry slot s)
/-- R339. The hub reads a launch's descriptor and arguments, takes an entry and answers with a status. -/
def execLaunchRequest (slot : Nat) (entry : Nat) (s : State) : Host.Outcome State Fault Refusal :=
  .next (evLaunchRequest slot entry s)
/-- R339. A launch.w finds no entry within LNCHLIM and answers timed out. -/
def execLaunchWaitTimeout (slot : Nat) (s : State) : Host.Outcome State Fault Refusal :=
  .next (evLaunchWaitTimeout slot s)
/-- R329. The hub performs a join or leave in one action and answers with a status. -/
def execCohortRequest (slot : Nat) (cohort : Nat) (s : State) : Host.Outcome State Fault Refusal :=
  .next (evCohortRequest slot cohort s)
/-- R355. A shapepub's performance resolves the node: blocks commit or are squashed, and the tail group and cicada are updated. -/
def execShapeResolution (slot : Nat) (s : State) : Host.Outcome State Fault Refusal :=
  .next (evShapeResolution slot s)
/-- R363. A shapew expires after LNCHLIM without a resolution. -/
def execShapewTimeout (slot : Nat) (s : State) : Host.Outcome State Fault Refusal :=
  .next (evShapewTimeout slot s)
/-- R342. The hub places the next block of a ready node on a free slot and starts it. -/
def execBlockDispatch (entry : Nat) (place : Placement) (s : State) : Host.Outcome State Fault Refusal :=
  .next (evBlockDispatch entry place s)
/-- R343. A lockstep node is placed whole as a new cohort and its circuit program is checked and bound. -/
def execGangDispatch (entry : Nat) (cohort : Nat) (ctx : Nat) (places : List Placement) (s : State) : Host.Outcome State Fault Refusal :=
  .next (evGangDispatch entry cohort ctx places s)
/-- R344. A lockstep node waiting 100 µs takes a reservation of slots, windows and context. -/
def execGangReservation (entry : Nat) (places : List Placement) (s : State) : Host.Outcome State Fault Refusal :=
  .next (evGangReservation entry places s)
/-- R348. A node completes: the completion word is written, successors are released and the entry is freed. -/
def execNodeCompletion (entry : Nat) (s : State) : Host.Outcome State Fault Refusal :=
  .next (evNodeCompletion entry s)
/-- R379. A thread or cohort stops at a bundle boundary, drains and has its context saved. -/
def execPreemption (slot : Nat) (s : State) : Host.Outcome State Fault Refusal :=
  .next (evPreemption slot s)
/-- R381. A saved context is restored on a core with matching windows, reissuing chains and re-establishing circuits. -/
def execContextRestore (k : Nat) (slots : List Nat) (cohort : Nat) (ctx : Nat) (s : State) : Host.Outcome State Fault Refusal :=
  .next (evContextRestore k slots cohort ctx s)
/-- R82. A write that changes ASIDREG revokes every VALID handle of the thread. -/
def execAsidregWrite (slot : Nat) (v : BitVec 64) (s : State) : Host.Outcome State Fault Refusal :=
  .next (evAsidregWrite slot v s)
/-- R35. A write to SRSEED reseeds all 96 lane LFSR states. -/
def execSrseedWrite (slot : Nat) (v : BitVec 64) (s : State) : Host.Outcome State Fault Refusal :=
  .next (evSrseedWrite slot v s)
/-- R148. A write to FRECPOP removes the oldest fault record. -/
def execFrecpop (slot : Nat) (s : State) : Host.Outcome State Fault Refusal :=
  .next (evFrecpop slot s)
/-- R166. A write to LANDWIN claims or releases a landing side and sets the ring. -/
def execLandwinWrite (slot : Nat) (v : BitVec 64) (s : State) : Host.Outcome State Fault Refusal :=
  .next (evLandwinWrite slot v s)
/-- R175. Writing 1 to DROP0 or DROP1 discards a halted copy channel's word and queue. -/
def execChdrop (slot : Nat) (v : BitVec 64) (s : State) : Host.Outcome State Fault Refusal :=
  .next (evChdrop slot v s)
/-- R269. Writing DROP discards M's halted word and the rest of its queue. -/
def execMnest1Drop (slot : Nat) (s : State) : Host.Outcome State Fault Refusal :=
  .next (evMnest1Drop slot s)
/-- R370. A write to WDLIMIT sets the watchdog limit and restarts its count. -/
def execWdlimitWrite (slot : Nat) (v : BitVec 64) (s : State) : Host.Outcome State Fault Refusal :=
  .next (evWdlimitWrite slot v s)
/-- R133. A write of PIN or PCODE to a lane in service starts a code-change handshake. -/
def execLanePinWrite (lane : Nat) (pin : Bool) (pcode : BitVec 2) (s : State) : Host.Outcome State Fault Refusal :=
  .next (evLanePinWrite lane pin pcode.toNat s)
/-- R133. Setting DIS takes a lane out of service; clearing it lets it retrain. -/
def execLaneDisWrite (lane : Nat) (dis : Bool) (s : State) : Host.Outcome State Fault Refusal :=
  .next (evLaneDisWrite lane dis s)
/-- R390. A write that sets CMDRING.EN resets the slot index and pass count and starts consumption. -/
def execCmdringEnable (v : BitVec 64) (s : State) : Host.Outcome State Fault Refusal :=
  .next (evCmdringEnable v s)
/-- R390. A write with EN = 0 stops consumption after the slot being read. -/
def execCmdringDisable (v : BitVec 64) (s : State) : Host.Outcome State Fault Refusal :=
  .next (evCmdringDisable v s)
/-- R113. A firmware write to an access table takes effect when every mirror holds it. -/
def execAccessTableWrite (table : Nat) (index : Nat) (v : BitVec 128) (s : State) : Host.Outcome State Fault Refusal :=
  .next (evAccessTableWrite table index v s)
/-- R6. A write to a register with no behaviour of its own sets its writable fields. -/
def execRegisterWrite (reg : RegRef) (v : BitVec 64) (s : State) : Host.Outcome State Fault Refusal :=
  .next (evRegisterWrite reg v s)
/-- R389. A host read or write through BAR0 or BAR2 is checked and performed as an ordinary access. -/
def execHostAccess (x : HostReq) (s : State) : Host.Outcome State Fault Refusal :=
  .next (evHostAccess x s)
/-- R389. A host AtomicOp to BAR2 is performed at the line's home slice. -/
def execHostAtomicop (x : HostAtomic) (s : State) : Host.Outcome State Fault Refusal :=
  .next (evHostAtomicop x s)
/-- R392. The hub consumes a ring slot whose valid byte matches the pass and writes the consumed count. -/
def execCommandConsume (s : State) : Host.Outcome State Fault Refusal :=
  .next (evCommandConsume s)
/-- R393. A command's work ends and the hub writes its completion word and sends its message. -/
def execCommandCompletion (k : Nat) (s : State) : Host.Outcome State Fault Refusal :=
  .next (evCommandCompletion k s)
/-- R394. The NOP command completes when consumed. -/
def execNopCommand (k : Nat) (s : State) : Host.Outcome State Fault Refusal :=
  .next (evNopCommand k s)
/-- R395. Creates all the nodes of a node table in the command's ASID, or none. -/
def execLaunchCommand (k : Nat) (entries : List Nat) (s : State) : Host.Outcome State Fault Refusal :=
  .next (evLaunchCommand k entries s)
/-- R102. Invalidates up to 29 pages in the command's ASID as xinval does. -/
def execShootdown (k : Nat) (s : State) : Host.Outcome State Fault Refusal :=
  .next (evShootdown k s)
/-- R108. Harvests dirty bits over a range into a host buffer. -/
def execHarvest (k : Nat) (s : State) : Host.Outcome State Fault Refusal :=
  .next (evHarvest k s)
/-- R394. Saves a node's resident blocks and returns them to the head of their list. -/
def execPreempt (k : Nat) (s : State) : Host.Outcome State Fault Refusal :=
  .next (evPreempt k s)
/-- R399. Writes a signed attestation report to the host. -/
def execAttest (k : Nat) (s : State) : Host.Outcome State Fault Refusal :=
  .next (evAttest k s)
/-- R394. Removes the redirect of eviction or SUBST for a device. -/
def execRedirclr (k : Nat) (s : State) : Host.Outcome State Fault Refusal :=
  .next (evRedirclr k s)
/-- R397. Writes TVECDEF. -/
def execSettvec (k : Nat) (s : State) : Host.Outcome State Fault Refusal :=
  .next (evSettvec k s)
/-- R394. Kills a node's resident blocks, runs no more of them and completes the node with a fault. -/
def execAbort (k : Nat) (s : State) : Host.Outcome State Fault Refusal :=
  .next (evAbort k s)
/-- R386. Redirects accesses to listed ranges of a lost device to a substitute. -/
def execSubst (k : Nat) (s : State) : Host.Outcome State Fault Refusal :=
  .next (evSubst k s)
/-- R403. The management START command begins a warm or cold start. -/
def execStart (warm : Bool) (keepHbm : Bool) (s : State) : Host.Outcome State Fault Refusal :=
  .next (evStart warm keepHbm s)
/-- R382. The management EVICT command begins eviction to a neighbour, entering STOPPING. -/
def execEvict (cmd : List (BitVec 8)) (s : State) : Host.Outcome State Fault Refusal :=
  .next (evEvict cmd s)
/-- R402. A private I3C read returns bytes of the identity memory, powered or not. -/
def execIdentityMemoryRead (offset : Nat) (count : Nat) (s : State) : Host.Outcome State Fault Refusal :=
  .next (evIdentityMemoryRead offset count s)
/-- R382. Stopping ends and contexts, nodes and ranges are copied to the neighbour. -/
def execEvictionMoving (s : State) : Host.Outcome State Fault Refusal :=
  .next (evEvictionMoving s)
/-- R382. The move ends and peers redirect frames for moved ranges to the neighbour. -/
def execEvictionRedirected (s : State) : Host.Outcome State Fault Refusal :=
  .next (evEvictionRedirected s)
/-- R382. No frame to or from the evicted device remains in flight. -/
def execEvictionDrained (s : State) : Host.Outcome State Fault Refusal :=
  .next (evEvictionDrained s)
/-- R382. The combs are dark and the package is unpowered. -/
def execSafeToUnlatch (s : State) : Host.Outcome State Fault Refusal :=
  .next (evSafeToUnlatch s)
/-- R382. The neighbour refused or was lost and the device restores its contexts and returns to IDLE. -/
def execEvictionFailed (cause : Nat) (s : State) : Host.Outcome State Fault Refusal :=
  .next (evEvictionFailed cause s)
/-- R383. A peer receiving an EVICT notice removes the device from RLYTAB and holds new frames for it. -/
def execEvictNotice (dev : Nat) (dest : Nat) (s : State) : Host.Outcome State Fault Refusal :=
  .next (evEvictNotice dev dest s)
/-- R383. On the neighbour's announcement, peers send the held frames to the neighbour. -/
def execMoveDoneNotice (dev : Nat) (dest : Nat) (ranges : List MoveRange) (s : State) : Host.Outcome State Fault Refusal :=
  .next (evMoveDoneNotice dev dest ranges s)
/-- R400. Power-on starts a cold start. -/
def execPowerOn (s : State) : Host.Outcome State Fault Refusal :=
  .next (evPowerOn s)
/-- R400. The last start step ends and the device joins its domain. -/
def execStartComplete (s : State) : Host.Outcome State Fault Refusal :=
  .next (evStartComplete s)
/-- R385. The module loses power or is removed, and its peers lose it. -/
def execPowerLoss (s : State) : Host.Outcome State Fault Refusal :=
  .next (evPowerLoss s)
/-- R378. The firmware stops dispatch, kills every thread and stops transmitting. -/
def execPackageOutOfService (s : State) : Host.Outcome State Fault Refusal :=
  .next (evPackageOutOfService s)
/-- R396. The scheduling pair's stores differ; it resumes from its checkpoint, or a second mismatch within 1 s takes the package out of service. -/
def execLockstepMismatch (s : State) : Host.Outcome State Fault Refusal :=
  .next (evLockstepMismatch s)
/-- R396. A faulting worker core's command is parsed again by another worker. -/
def execWorkerFault (worker : Nat) (s : State) : Host.Outcome State Fault Refusal :=
  .next (evWorkerFault worker s)
/-- R404. A hot inlet or die makes each core issue in at most 3 of every 4 cc. -/
def execThermalThrottle (s : State) : Host.Outcome State Fault Refusal :=
  .next (evThermalThrottle s)
/-- R404. A die reaches its limit and the package is taken out of service. -/
def execDieLimit (s : State) : Host.Outcome State Fault Refusal :=
  .next (evDieLimit s)
/-- R51. A bundle holding an unassigned S, V or A opcode, an unassigned engine word or modifier, or a nonzero reserved field is presented for issue and raises ILLEGAL_OP. -/
def execIllegalOp (s : State) : Host.Outcome State Fault Refusal :=
  .next (evIllegalOp s)
/-- R143. A CTRL keepalive from a domain member arrives and counts as a frame received from that peer. -/
def execKeepaliveReceive (peer : Nat) (s : State) : Host.Outcome State Fault Refusal :=
  .next (evKeepaliveReceive peer s)
/-- R140. A cumulative per-lane acknowledgement by frame number arrives and releases frames from the lane's replay buffer. -/
def execLaneFrameAck (lane : Nat) (upTo : Nat) (s : State) : Host.Outcome State Fault Refusal :=
  .next (evLaneFrameAck lane upTo s)
/-- R313. The Erard host link goes down, so the writes to host memory that are still outstanding become known dropped. -/
def execErardLinkDown (s : State) : Host.Outcome State Fault Refusal :=
  .next (evErardLinkDown s)
/-- R404. The inlet temperature and die temperatures fall back within limits, and the cores resume issuing in every cc. -/
def execThrottleRelease (s : State) : Host.Outcome State Fault Refusal :=
  .next (evThrottleRelease s)

end Sys2Proof.Machine
end

