-- ==== Sys2Proof/Machine/Dispatch.lean ====
section
/-! DEFINITION. One arm per operation and per step of the other agents: each calls its own meaning. -/

namespace Sys2Proof.Machine

def exec (i : Instr) (s : State) : Host.Outcome State Fault Refusal :=
  match i with
  | .sNop x => Sys2Proof.Machine.execSNop x s
  | .add a b w => Sys2Proof.Machine.execAdd a b w s
  | .sub a b w => Sys2Proof.Machine.execSub a b w s
  | .mul a b w => Sys2Proof.Machine.execMul a b w s
  | .mulh a b w => Sys2Proof.Machine.execMulh a b w s
  | .mulhu a b w => Sys2Proof.Machine.execMulhu a b w s
  | .div a b w => Sys2Proof.Machine.execDiv a b w s
  | .divu a b w => Sys2Proof.Machine.execDivu a b w s
  | .rem a b w => Sys2Proof.Machine.execRem a b w s
  | .remu a b w => Sys2Proof.Machine.execRemu a b w s
  | .and a b w => Sys2Proof.Machine.execAnd a b w s
  | .or a b w => Sys2Proof.Machine.execOr a b w s
  | .xor a b w => Sys2Proof.Machine.execXor a b w s
  | .andn a b w => Sys2Proof.Machine.execAndn a b w s
  | .shl a b w => Sys2Proof.Machine.execShl a b w s
  | .shr a b w => Sys2Proof.Machine.execShr a b w s
  | .sar a b w => Sys2Proof.Machine.execSar a b w s
  | .rotl a b w => Sys2Proof.Machine.execRotl a b w s
  | .min a b w => Sys2Proof.Machine.execMin a b w s
  | .max a b w => Sys2Proof.Machine.execMax a b w s
  | .minu a b w => Sys2Proof.Machine.execMinu a b w s
  | .maxu a b w => Sys2Proof.Machine.execMaxu a b w s
  | .clz a w => Sys2Proof.Machine.execClz a w s
  | .ctz a w => Sys2Proof.Machine.execCtz a w s
  | .popc a w => Sys2Proof.Machine.execPopc a w s
  | .sext a width => Sys2Proof.Machine.execSext a width s
  | .zext a width => Sys2Proof.Machine.execZext a width s
  | .keep d b => Sys2Proof.Machine.execKeep d b s
  | .ceq a b w => Sys2Proof.Machine.execCeq a b w s
  | .cne a b w => Sys2Proof.Machine.execCne a b w s
  | .clt a b w => Sys2Proof.Machine.execClt a b w s
  | .cltu a b w => Sys2Proof.Machine.execCltu a b w s
  | .cle a b w => Sys2Proof.Machine.execCle a b w s
  | .cleu a b w => Sys2Proof.Machine.execCleu a b w s
  | .sel a b c => Sys2Proof.Machine.execSel a b c s
  | .li i0 => Sys2Proof.Machine.execLi i0 s
  | .lih a i0 => Sys2Proof.Machine.execLih a i0 s
  | .addi a i0 => Sys2Proof.Machine.execAddi a i0 s
  | .andi a i0 => Sys2Proof.Machine.execAndi a i0 s
  | .ori a i0 => Sys2Proof.Machine.execOri a i0 s
  | .shli a s0 => Sys2Proof.Machine.execShli a s0 s
  | .fadd a b r d => Sys2Proof.Machine.execFadd a b r d s
  | .fsub a b r d => Sys2Proof.Machine.execFsub a b r d s
  | .fmul a b r d => Sys2Proof.Machine.execFmul a b r d s
  | .ffma a b c r d => Sys2Proof.Machine.execFfma a b c r d s
  | .fmin a b d => Sys2Proof.Machine.execFmin a b d s
  | .fmax a b d => Sys2Proof.Machine.execFmax a b d s
  | .fceq a b r d => Sys2Proof.Machine.execFceq a b r d s
  | .fclt a b r d => Sys2Proof.Machine.execFclt a b r d s
  | .fcle a b r d => Sys2Proof.Machine.execFcle a b r d s
  | .fcvt a f t r => Sys2Proof.Machine.execFcvt a f t r s
  | .br c o => Sys2Proof.Machine.execBr c o s
  | .brz c o => Sys2Proof.Machine.execBrz c o s
  | .jmp o => Sys2Proof.Machine.execJmp o s
  | .call o => Sys2Proof.Machine.execCall o s
  | .ret a => Sys2Proof.Machine.execRet a s
  | .loop k o => Sys2Proof.Machine.execLoop k o s
  | .halt => Sys2Proof.Machine.execHalt s
  | .epush a e => Sys2Proof.Machine.execEpush a e s
  | .tkwait s0 k => Sys2Proof.Machine.execTkwait s0 k s
  | .tksig s0 k => Sys2Proof.Machine.execTksig s0 k s
  | .estat e => Sys2Proof.Machine.execEstat e s
  | .getid s0 => Sys2Proof.Machine.execGetid s0 s
  | .join a new lock => Sys2Proof.Machine.execJoin a new lock s
  | .leave a => Sys2Proof.Machine.execLeave a s
  | .vclk => Sys2Proof.Machine.execVclk s
  | .launch a b => Sys2Proof.Machine.execLaunch a b s
  | .launchW a b => Sys2Proof.Machine.execLaunchW a b s
  | .shapepub a b => Sys2Proof.Machine.execShapepub a b s
  | .shapeq a => Sys2Proof.Machine.execShapeq a s
  | .shapew a => Sys2Proof.Machine.execShapew a s
  | .rdsys r => Sys2Proof.Machine.execRdsys r s
  | .wrsys a r => Sys2Proof.Machine.execWrsys a r s
  | .trap code => Sys2Proof.Machine.execTrap code s
  | .rft => Sys2Proof.Machine.execRft s
  | .yield => Sys2Proof.Machine.execYield s
  | .vNop x => Sys2Proof.Machine.execVNop x s
  | .vadd a b m t r => Sys2Proof.Machine.execVadd a b m t r s
  | .vsub a b m t r => Sys2Proof.Machine.execVsub a b m t r s
  | .vmul a b m t r => Sys2Proof.Machine.execVmul a b m t r s
  | .vfma a b c m t r => Sys2Proof.Machine.execVfma a b c m t r s
  | .vfms a b c m t r => Sys2Proof.Machine.execVfms a b c m t r s
  | .vfnma a b c m t r => Sys2Proof.Machine.execVfnma a b c m t r s
  | .vmin a b m t => Sys2Proof.Machine.execVmin a b m t s
  | .vmax a b m t => Sys2Proof.Machine.execVmax a b m t s
  | .vabs a m t => Sys2Proof.Machine.execVabs a m t s
  | .vneg a m t => Sys2Proof.Machine.execVneg a m t s
  | .viadd a b m t => Sys2Proof.Machine.execViadd a b m t s
  | .visub a b m t => Sys2Proof.Machine.execVisub a b m t s
  | .vimul a b m t => Sys2Proof.Machine.execVimul a b m t s
  | .vimulh a b m t u => Sys2Proof.Machine.execVimulh a b m t u s
  | .viand a b m t => Sys2Proof.Machine.execViand a b m t s
  | .vior a b m t => Sys2Proof.Machine.execVior a b m t s
  | .vixor a b m t => Sys2Proof.Machine.execVixor a b m t s
  | .vishl a b m t => Sys2Proof.Machine.execVishl a b m t s
  | .vishr a b m t => Sys2Proof.Machine.execVishr a b m t s
  | .visar a b m t => Sys2Proof.Machine.execVisar a b m t s
  | .vimin a b m t u => Sys2Proof.Machine.execVimin a b m t u s
  | .vimax a b m t u => Sys2Proof.Machine.execVimax a b m t u s
  | .vcmp a b u k m t => Sys2Proof.Machine.execVcmp a b u k m t s
  | .vsel a b m t => Sys2Proof.Machine.execVsel a b m t s
  | .mand x y m => Sys2Proof.Machine.execMand x y m s
  | .mor x y m => Sys2Proof.Machine.execMor x y m s
  | .mxor x y m => Sys2Proof.Machine.execMxor x y m s
  | .mnot x m => Sys2Proof.Machine.execMnot x m s
  | .mpop x m => Sys2Proof.Machine.execMpop x m s
  | .mfirst x m => Sys2Proof.Machine.execMfirst x m s
  | .vcvt a g m s0 r p => Sys2Proof.Machine.execVcvt a g m s0 r p s
  | .vcvts a g m s0 p => Sys2Proof.Machine.execVcvts a g m s0 p s
  | .vqnt4 a b q m n => Sys2Proof.Machine.execVqnt4 a b q m n s
  | .vdq4 a b m r => Sys2Proof.Machine.execVdq4 a b m r s
  | .vrcp a m t r => Sys2Proof.Machine.execVrcp a m t r s
  | .vrsq a m t r => Sys2Proof.Machine.execVrsq a m t r s
  | .vsqrt a m t r => Sys2Proof.Machine.execVsqrt a m t r s
  | .vexp2 a m t r => Sys2Proof.Machine.execVexp2 a m t r s
  | .vlog2 a m t r => Sys2Proof.Machine.execVlog2 a m t r s
  | .vperm a b m t => Sys2Proof.Machine.execVperm a b m t s
  | .vrot a b m t => Sys2Proof.Machine.execVrot a b m t s
  | .vbcast a m t => Sys2Proof.Machine.execVbcast a m t s
  | .vext a m t => Sys2Proof.Machine.execVext a m t s
  | .vins a b m t => Sys2Proof.Machine.execVins a b m t s
  | .viota a m => Sys2Proof.Machine.execViota a m s
  | .vredadd a m t r => Sys2Proof.Machine.execVredadd a m t r s
  | .vredmax a m t u => Sys2Proof.Machine.execVredmax a m t u s
  | .vredmin a m t u => Sys2Proof.Machine.execVredmin a m t u s
  | .vscan a m t r => Sys2Proof.Machine.execVscan a m t r s
  | .vkeep d b m => Sys2Proof.Machine.execVkeep d b m s
  | .mkeep d b m => Sys2Proof.Machine.execMkeep d b m s
  | .aNop x => Sys2Proof.Machine.execANop x s
  | .ld b sz i0 => Sys2Proof.Machine.execLd b sz i0 s
  | .st b sz d i0 => Sys2Proof.Machine.execSt b sz d i0 s
  | .vld b i0 => Sys2Proof.Machine.execVld b i0 s
  | .vst b d i0 => Sys2Proof.Machine.execVst b d i0 s
  | .vlds a b => Sys2Proof.Machine.execVlds a b s
  | .vsts a b c => Sys2Proof.Machine.execVsts a b c s
  | .vgath a b => Sys2Proof.Machine.execVgath a b s
  | .vscat a b c => Sys2Proof.Machine.execVscat a b c s
  | .ldwf b i0 => Sys2Proof.Machine.execLdwf b i0 s
  | .ldwfe b i0 => Sys2Proof.Machine.execLdwfe b i0 s
  | .stwe b d i0 => Sys2Proof.Machine.execStwe b d i0 s
  | .stf b d i0 => Sys2Proof.Machine.execStf b d i0 s
  | .feset b i0 => Sys2Proof.Machine.execFeset b i0 s
  | .feclr b i0 => Sys2Proof.Machine.execFeclr b i0 s
  | .fetest b i0 => Sys2Proof.Machine.execFetest b i0 s
  | .gld b h sz i0 => Sys2Proof.Machine.execGld b h sz i0 s
  | .gst b h d sz i0 => Sys2Proof.Machine.execGst b h d sz i0 s
  | .gvld b h i0 => Sys2Proof.Machine.execGvld b h i0 s
  | .gvst b h d i0 => Sys2Proof.Machine.execGvst b h d i0 s
  | .gwait => Sys2Proof.Machine.execGwait s
  | .xlat a h p => Sys2Proof.Machine.execXlat a h p s
  | .hdrop h => Sys2Proof.Machine.execHdrop h s
  | .hchk a h => Sys2Proof.Machine.execHchk a h s
  | .hinfo h => Sys2Proof.Machine.execHinfo h s
  | .amo a b h o w => Sys2Proof.Machine.execAmo a b h o w s
  | .cas a b c h w => Sys2Proof.Machine.execCas a b c h w s
  | .cas2 a b h => Sys2Proof.Machine.execCas2 a b h s
  | .chain a => Sys2Proof.Machine.execChain a s
  | .chainq a => Sys2Proof.Machine.execChainq a s
  | .barinit a b g => Sys2Proof.Machine.execBarinit a b g s
  | .bararr a b g => Sys2Proof.Machine.execBararr a b g s
  | .bardrop a b g => Sys2Proof.Machine.execBardrop a b g s
  | .barjoin a b g => Sys2Proof.Machine.execBarjoin a b g s
  | .barwait a b g => Sys2Proof.Machine.execBarwait a b g s
  | .barbytes a b g => Sys2Proof.Machine.execBarbytes a b g s
  | .barq a b g => Sys2Proof.Machine.execBarq a b g s
  | .csend b h => Sys2Proof.Machine.execCsend b h s
  | .cstat h => Sys2Proof.Machine.execCstat h s
  | .fenceQ q => Sys2Proof.Machine.execFenceQ q s
  | .fenceSys => Sys2Proof.Machine.execFenceSys s
  | .fenceHost => Sys2Proof.Machine.execFenceHost s
  | .harv a => Sys2Proof.Machine.execHarv a s
  | .xinval a z => Sys2Proof.Machine.execXinval a z s
  | .engineNop => Sys2Proof.Machine.execEngineNop s
  | .lit e v => Sys2Proof.Machine.execLit e v s
  | .litx e v => Sys2Proof.Machine.execLitx e v s
  | .commonNop => Sys2Proof.Machine.execCommonNop s
  | .dup e => Sys2Proof.Machine.execDup e s
  | .drop e => Sys2Proof.Machine.execDrop e s
  | .swap e => Sys2Proof.Machine.execSwap e s
  | .tokenOnly e tk => Sys2Proof.Machine.execTokenOnly e tk s
  | .lda tk t => Sys2Proof.Machine.execLda tk t s
  | .ldac tk i0 t => Sys2Proof.Machine.execLdac tk i0 t s
  | .mma tk t => Sys2Proof.Machine.execMma tk t s
  | .mmaz tk t => Sys2Proof.Machine.execMmaz tk t s
  | .drain tk fe f => Sys2Proof.Machine.execDrain tk fe f s
  | .drainq tk n s0 => Sys2Proof.Machine.execDrainq tk n s0 s
  | .nest tk => Sys2Proof.Machine.execNest tk s
  | .zacc tk => Sys2Proof.Machine.execZacc tk s
  | .msync tk take => Sys2Proof.Machine.execMsync tk take s
  | .mstat tk clr => Sys2Proof.Machine.execMstat tk clr s
  | .g2s c tk path fe => Sys2Proof.Machine.execG2s c tk path fe s
  | .s2g c tk path fe => Sys2Proof.Machine.execS2g c tk path fe s
  | .s2s c tk path fe => Sys2Proof.Machine.execS2s c tk path fe s
  | .s2w c tk => Sys2Proof.Machine.execS2w c tk s
  | .g2w c tk path => Sys2Proof.Machine.execG2w c tk path s
  | .g2g c tk path fe => Sys2Proof.Machine.execG2g c tk path fe s
  | .circ c tk fe => Sys2Proof.Machine.execCirc c tk fe s
  | .cflag c tk fe => Sys2Proof.Machine.execCflag c tk fe s
  | .cnest c tk path fe => Sys2Proof.Machine.execCnest c tk path fe s
  | .cbar c tk g => Sys2Proof.Machine.execCbar c tk g s
  | .channelCstat c tk => Sys2Proof.Machine.execChannelCstat c tk s
  | .step ctx => Sys2Proof.Machine.execStep ctx s
  | .rptRepetition ctx => Sys2Proof.Machine.execRptRepetition ctx s
  | .waitc ctx => Sys2Proof.Machine.execWaitc ctx s
  | .resultPush slot => Sys2Proof.Machine.execResultPush slot s
  | .lateItemArrival slot => Sys2Proof.Machine.execLateItemArrival slot s
  | .bundleFetchFault slot => Sys2Proof.Machine.execBundleFetchFault slot s
  | .slotSwitch core => Sys2Proof.Machine.execSlotSwitch core s
  | .quantumExpiry core => Sys2Proof.Machine.execQuantumExpiry core s
  | .watchdogExpiry slot => Sys2Proof.Machine.execWatchdogExpiry slot s
  | .trapEntry slot => Sys2Proof.Machine.execTrapEntry slot s
  | .boundaryTrap slot => Sys2Proof.Machine.execBoundaryTrap slot s
  | .feWaiterPerform word => Sys2Proof.Machine.execFeWaiterPerform word s
  | .feTimeout word waiter => Sys2Proof.Machine.execFeTimeout word waiter s
  | .vgathPass slot => Sys2Proof.Machine.execVgathPass slot s
  | .enginePortAccess slot e k => Sys2Proof.Machine.execEnginePortAccess slot e k s
  | .pageWalkComplete slot tag => Sys2Proof.Machine.execPageWalkComplete slot tag s
  | .xinvalComplete slot => Sys2Proof.Machine.execXinvalComplete slot s
  | .harvComplete slot => Sys2Proof.Machine.execHarvComplete slot s
  | .migrationEvaluation => Sys2Proof.Machine.execMigrationEvaluation s
  | .pageMigrationComplete k => Sys2Proof.Machine.execPageMigrationComplete k s
  | .homeLineAccess id => Sys2Proof.Machine.execHomeLineAccess id s
  | .atomicPerform id => Sys2Proof.Machine.execAtomicPerform id s
  | .packetRoute id => Sys2Proof.Machine.execPacketRoute id s
  | .mergedReplySplit id => Sys2Proof.Machine.execMergedReplySplit id s
  | .responseReceive id => Sys2Proof.Machine.execResponseReceive id s
  | .bounceReinject id => Sys2Proof.Machine.execBounceReinject id s
  | .flitReceive link ok => Sys2Proof.Machine.execFlitReceive link ok s
  | .replayRequest link => Sys2Proof.Machine.execReplayRequest link s
  | .linkAck link => Sys2Proof.Machine.execLinkAck link s
  | .linkRetrainDone link ok => Sys2Proof.Machine.execLinkRetrainDone link ok s
  | .creditReturn link resp => Sys2Proof.Machine.execCreditReturn link resp s
  | .creditSyncSend link resp => Sys2Proof.Machine.execCreditSyncSend link resp s
  | .creditSyncReceive link resp => Sys2Proof.Machine.execCreditSyncReceive link resp s
  | .berWindow lane w uncorr => Sys2Proof.Machine.execBerWindow lane w uncorr s
  | .codeRequest lane code => Sys2Proof.Machine.execCodeRequest lane code s
  | .codeMarkerTimeout lane => Sys2Proof.Machine.execCodeMarkerTimeout lane s
  | .codeChange lane => Sys2Proof.Machine.execCodeChange lane s
  | .ordFrameReceive f => Sys2Proof.Machine.execOrdFrameReceive f s
  | .bulkFrameReceive f => Sys2Proof.Machine.execBulkFrameReceive f s
  | .flagFrameApply f => Sys2Proof.Machine.execFlagFrameApply f s
  | .frameAckReceive id => Sys2Proof.Machine.execFrameAckReceive id s
  | .endToEndCredit peer ord bulk => Sys2Proof.Machine.execEndToEndCredit peer ord bulk s
  | .frameResendTimeout id path => Sys2Proof.Machine.execFrameResendTimeout id path s
  | .frameAgeDiscard id => Sys2Proof.Machine.execFrameAgeDiscard id s
  | .laneFrameReplay id => Sys2Proof.Machine.execLaneFrameReplay id s
  | .relayForward id => Sys2Proof.Machine.execRelayForward id s
  | .keepaliveSend peer => Sys2Proof.Machine.execKeepaliveSend peer s
  | .peerSilenceHold peer => Sys2Proof.Machine.execPeerSilenceHold peer s
  | .peerLost peer => Sys2Proof.Machine.execPeerLost peer s
  | .peerBack peer => Sys2Proof.Machine.execPeerBack peer s
  | .relayRefill peer => Sys2Proof.Machine.execRelayRefill peer s
  | .combLoss engine => Sys2Proof.Machine.execCombLoss engine s
  | .combRelock engine => Sys2Proof.Machine.execCombRelock engine s
  | .tuneLoss lane rx => Sys2Proof.Machine.execTuneLoss lane rx s
  | .laneDown lane rx => Sys2Proof.Machine.execLaneDown lane rx s
  | .laneUp lane rx => Sys2Proof.Machine.execLaneUp lane rx s
  | .laneNotice rec => Sys2Proof.Machine.execLaneNotice rec s
  | .circuitSettled ctx h => Sys2Proof.Machine.execCircuitSettled ctx h s
  | .circuitFailure ctx h cause => Sys2Proof.Machine.execCircuitFailure ctx h cause s
  | .circuitRepairStart ctx h => Sys2Proof.Machine.execCircuitRepairStart ctx h s
  | .circuitRepairSearchEnd ctx h found src => Sys2Proof.Machine.execCircuitRepairSearchEnd ctx h found src s
  | .tearPerform ctx h => Sys2Proof.Machine.execTearPerform ctx h s
  | .tearComplete ctx h => Sys2Proof.Machine.execTearComplete ctx h s
  | .csendLanding port => Sys2Proof.Machine.execCsendLanding port s
  | .autoCircuitIdleTear src => Sys2Proof.Machine.execAutoCircuitIdleTear src s
  | .copyWordStart slot c => Sys2Proof.Machine.execCopyWordStart slot c s
  | .matrixWordStart slot => Sys2Proof.Machine.execMatrixWordStart slot s
  | .nestIteration slot => Sys2Proof.Machine.execNestIteration slot s
  | .engineWordFinish slot e => Sys2Proof.Machine.execEngineWordFinish slot e s
  | .chainStep slot k => Sys2Proof.Machine.execChainStep slot k s
  | .chainReturn slot k => Sys2Proof.Machine.execChainReturn slot k s
  | .barrierAction id => Sys2Proof.Machine.execBarrierAction id s
  | .barwaitTimeout slot => Sys2Proof.Machine.execBarwaitTimeout slot s
  | .fenceLimitExpiry slot => Sys2Proof.Machine.execFenceLimitExpiry slot s
  | .launchRequest slot entry => Sys2Proof.Machine.execLaunchRequest slot entry s
  | .launchWaitTimeout slot => Sys2Proof.Machine.execLaunchWaitTimeout slot s
  | .cohortRequest slot cohort => Sys2Proof.Machine.execCohortRequest slot cohort s
  | .shapeResolution slot => Sys2Proof.Machine.execShapeResolution slot s
  | .shapewTimeout slot => Sys2Proof.Machine.execShapewTimeout slot s
  | .blockDispatch entry place => Sys2Proof.Machine.execBlockDispatch entry place s
  | .gangDispatch entry cohort ctx places => Sys2Proof.Machine.execGangDispatch entry cohort ctx places s
  | .gangReservation entry places => Sys2Proof.Machine.execGangReservation entry places s
  | .nodeCompletion entry => Sys2Proof.Machine.execNodeCompletion entry s
  | .preemption slot => Sys2Proof.Machine.execPreemption slot s
  | .contextRestore k slots cohort ctx => Sys2Proof.Machine.execContextRestore k slots cohort ctx s
  | .asidregWrite slot v => Sys2Proof.Machine.execAsidregWrite slot v s
  | .srseedWrite slot v => Sys2Proof.Machine.execSrseedWrite slot v s
  | .frecpop slot => Sys2Proof.Machine.execFrecpop slot s
  | .landwinWrite slot v => Sys2Proof.Machine.execLandwinWrite slot v s
  | .chdrop slot v => Sys2Proof.Machine.execChdrop slot v s
  | .mnest1Drop slot => Sys2Proof.Machine.execMnest1Drop slot s
  | .wdlimitWrite slot v => Sys2Proof.Machine.execWdlimitWrite slot v s
  | .lanePinWrite lane pin pcode => Sys2Proof.Machine.execLanePinWrite lane pin pcode s
  | .laneDisWrite lane dis => Sys2Proof.Machine.execLaneDisWrite lane dis s
  | .cmdringEnable v => Sys2Proof.Machine.execCmdringEnable v s
  | .cmdringDisable v => Sys2Proof.Machine.execCmdringDisable v s
  | .accessTableWrite table index v => Sys2Proof.Machine.execAccessTableWrite table index v s
  | .registerWrite reg v => Sys2Proof.Machine.execRegisterWrite reg v s
  | .hostAccess x => Sys2Proof.Machine.execHostAccess x s
  | .hostAtomicop x => Sys2Proof.Machine.execHostAtomicop x s
  | .commandConsume => Sys2Proof.Machine.execCommandConsume s
  | .commandCompletion k => Sys2Proof.Machine.execCommandCompletion k s
  | .nopCommand k => Sys2Proof.Machine.execNopCommand k s
  | .launchCommand k entries => Sys2Proof.Machine.execLaunchCommand k entries s
  | .shootdown k => Sys2Proof.Machine.execShootdown k s
  | .harvest k => Sys2Proof.Machine.execHarvest k s
  | .preempt k => Sys2Proof.Machine.execPreempt k s
  | .attest k => Sys2Proof.Machine.execAttest k s
  | .redirclr k => Sys2Proof.Machine.execRedirclr k s
  | .settvec k => Sys2Proof.Machine.execSettvec k s
  | .abort k => Sys2Proof.Machine.execAbort k s
  | .subst k => Sys2Proof.Machine.execSubst k s
  | .start warm keepHbm => Sys2Proof.Machine.execStart warm keepHbm s
  | .evict cmd => Sys2Proof.Machine.execEvict cmd s
  | .identityMemoryRead offset count => Sys2Proof.Machine.execIdentityMemoryRead offset count s
  | .evictionMoving => Sys2Proof.Machine.execEvictionMoving s
  | .evictionRedirected => Sys2Proof.Machine.execEvictionRedirected s
  | .evictionDrained => Sys2Proof.Machine.execEvictionDrained s
  | .safeToUnlatch => Sys2Proof.Machine.execSafeToUnlatch s
  | .evictionFailed cause => Sys2Proof.Machine.execEvictionFailed cause s
  | .evictNotice dev dest => Sys2Proof.Machine.execEvictNotice dev dest s
  | .moveDoneNotice dev dest ranges => Sys2Proof.Machine.execMoveDoneNotice dev dest ranges s
  | .powerOn => Sys2Proof.Machine.execPowerOn s
  | .startComplete => Sys2Proof.Machine.execStartComplete s
  | .powerLoss => Sys2Proof.Machine.execPowerLoss s
  | .packageOutOfService => Sys2Proof.Machine.execPackageOutOfService s
  | .lockstepMismatch => Sys2Proof.Machine.execLockstepMismatch s
  | .workerFault worker => Sys2Proof.Machine.execWorkerFault worker s
  | .thermalThrottle => Sys2Proof.Machine.execThermalThrottle s
  | .dieLimit => Sys2Proof.Machine.execDieLimit s
  | .illegalOp => Sys2Proof.Machine.execIllegalOp s
  | .keepaliveReceive peer => Sys2Proof.Machine.execKeepaliveReceive peer s
  | .laneFrameAck lane upTo => Sys2Proof.Machine.execLaneFrameAck lane upTo s
  | .erardLinkDown => Sys2Proof.Machine.execErardLinkDown s
  | .throttleRelease => Sys2Proof.Machine.execThrottleRelease s

end Sys2Proof.Machine
end

