-- ==== Sys2Proof/Machine/Schedule.lean ====
section
/-! DEFINITION. The order of what happens when the agenda is empty (log entry 1). A cc has three parts: results are pushed,
traps are entered and slots are switched; then each core presents a bundle, its ports acting before those of the engines
(R191); then every other event of the machine's own that can take place takes place. Events that the outside world causes,
or whose moment the spec leaves to an agent, come from the agenda. -/

namespace Sys2Proof.Machine

/-- The steps that are bundles' operations; every other constructor is an event. -/
def isEvent (i : Instr) : Bool := (opOf i).isNone

/-- R223, R297, R355, R363: after whatever happens, every `barwait` that waits is evaluated, halted threads with nothing left end,
speculative blocks whose node has resolved commit or are squashed, and the hub answers what is due. -/
def settle (s : State) : State := reapHalted (answerQueries (settleNodes (wakeBarriers s)))

/-! What may happen, in the order in which it is tried. -/

def engineEvents (k : Nat) (e : Eng) (t : Thread) : List (State → State) :=
  match (getEngine t e).run with
  | none => []
  | some r => if r.waiting then [evEnginePortAccess k e 0] else r.lines.map fun l => evEnginePortAccess k e l.1
/-- R201, R324: the waiter of a word that is to act is a thread of the scratchpad's core, whose bundle is then ready at once. -/
def localFirst (s : State) (word : Nat) : Bool :=
  match (firstWaiter s word).bind fun i => ((look s.waiters word).getD [])[i]? with
  | some (.thread _ _ _ _) => true
  | some (.remote _ _) => false
  | some (.msync _ _ _) => false
  | none => false
/-- What happens to a thread before the cores present their bundles. -/
def earlyEvents (k : Nat) : List (State → State) := [evResultPush k, evTrapEntry k, evWatchdogExpiry k, evBoundaryTrap k]
/-- What happens to a thread after that. -/
def threadEvents (k : Nat) (t : Thread) : List (State → State) :=
  [evLateItemArrival k, evXinvalComplete k, evHarvComplete k, evBarwaitTimeout k, evShapewTimeout k, evFenceLimitExpiry k,
    evLaunchWaitTimeout k, evShapeResolution k, evCopyWordStart k .c0, evCopyWordStart k .c1, evMatrixWordStart k, evNestIteration k,
    evEngineWordFinish k .m, evEngineWordFinish k .c0, evEngineWordFinish k .c1, evPreemption k]
    ++ engineEvents k .c0 t ++ engineEvents k .c1 t
def accessEvents (id : Nat) : List (State → State) :=
  [evHomeLineAccess id true, evAtomicPerform id true, evBarrierAction id, evChainStep id, evMergedReplySplit id, evResponseReceive id,
    evChainReturn id, evBounceReinject id, evPacketRoute id]
def linkEvents (n : Nat) : List (State → State) :=
  [evFlitReceive n true, evReplayRequest n, evLinkAck n, evLinkRetrainDone n true, evCreditReturn n false, evCreditReturn n true,
    evCreditSyncSend n false, evCreditSyncSend n true, evCreditSyncReceive n false, evCreditSyncReceive n true]
def frameEvents (id : Nat) : List (State → State) := [evRelayForward id, evFrameAckReceive id, evFrameAgeDiscard id, evFrameResendTimeout id]
/-- R159: the transmit side a repair moves to: another free one of the tile after a failure of the source ring. -/
def repairPort (s : State) (y : CHandle) : Option Nat :=
  if y.cause = 2 then ((List.range 8).map fun i => y.src / 8 * 8 + i).find? fun p => decide (p ≠ y.src) && !portUsed s p else some y.src
/-- R159: a search finds its route at once where a port is there, and otherwise ends at its limit; one for a landing
ring finds none (log entry 1). -/
def repairEnd (s : State) (c h : Nat) (y : CHandle) : State → State :=
  let late := decide (y.since + usCc 2 ≤ s.cc)
  match repairPort s y with
  | some p => if y.cause ≠ 3 ∧ (y.cause ≠ 4 ∨ ¬ s.combsFailed.contains (y.sink - 128)) then evCircuitRepairSearchEnd c h true p
      else if late then evCircuitRepairSearchEnd c h false p else id
  | none => if late then evCircuitRepairSearchEnd c h false y.src else id
def circuitEvents (s : State) (c : Nat) (x : Ctx) : List (State → State) :=
  [evStep c, evRptRepetition c, evWaitc c]
    ++ x.handles.flatMap fun h => [evTearPerform c h.1, evTearComplete c h.1, evCircuitRepairStart c h.1] ++ (if h.2.state = .repairing then [repairEnd s c h.1 h.2] else [])
def commandEvents (k : Nat) : List (State → State) :=
  [evNopCommand k, evShootdown k, evHarvest k, evPreempt k, evAttest k, evRedirclr k, evSettvec k, evAbort k, evSubst k, evCommandCompletion k]

/-! The hub's choices of entries and places. -/

/-- The least free entries of the node table. -/
def freeEntries (s : State) (n : Nat) : List Nat := ((List.range 8192).filter (entryFree s)).take n
def leastEntry (s : State) : Nat := (freeEntries s 1).getD 0 0
def freeCohort (s : State) : Nat := ((List.range 4096).find? (cohortFree s)).getD 0
def freeCtx (s : State) : Nat := ((List.range 16).find? fun c => (look s.ctxs c).isNone).getD 0
def blockPlace (s : State) (id : Nat) (y : Node) : List (State → State) :=
  let x := if y.placedOnce then y else { y with predicted := if y.desc.shape then predict s y else y.desc.gx }
  match nextBlock x with
  | none => if y.placedOnce then [] else [evBlockDispatch id ⟨0, 0, 0, 0⟩]
  | some b => match preferredCore s id x b with
    | none => if x.desc.strict && (namedCores s x b 0).isEmpty then [evBlockDispatch id ⟨0, 0, 0, 0⟩] else []
    | some c => (match fitOn (usesOn s id c) x.desc (blocksOn s ⟨id, x.gen⟩ c) c with
      | some p => [evBlockDispatch id p]
      | none => [])
def nodeEvents (s : State) (id : Nat) (x : Node) : List (State → State) :=
  if x.desc.lock then
    let n := x.desc.gx * x.desc.gy
    let kept := match s.reservation with | some r => if r.node = id then r.places else [] | none => []
    let places := if kept.isEmpty then gangPlaces s x (usesOn s id) n else kept
    [evNodeCompletion id, evGangDispatch id (freeCohort s) (freeCtx s) places,
      evGangReservation id (gangPlaces s x (fun _ => []) n)]
  else evNodeCompletion id :: blockPlace s id x
def restoreEvents (s : State) (i : Nat) (c : Context) : List (State → State) :=
  let cohort := ((c.threads.filterMap fun x => x.thread.cohort).map Membership.id).headD 0
  [evContextRestore i ((restorePlaces s c).map fun p => p.2.slot) cohort (freeCtx s)]
def hubEvents (s : State) : List (State → State) :=
  (s.hubReqs.flatMap fun r => [evLaunchRequest r.slot (leastEntry s), evCohortRequest r.slot (freeCohort s)])
    ++ s.commands.flatMap (fun c => commandEvents c.1 ++ [evLaunchCommand c.1 (freeEntries s (cmdSmall c.2))])
    ++ [evCommandConsume, evMigrationEvaluation, evStartComplete, evEvictionMoving, evEvictionRedirected, evEvictionDrained, evSafeToUnlatch]
    ++ s.nodes.flatMap (fun n => nodeEvents s n.1 n.2)
    ++ s.contexts.flatMap fun c => restoreEvents s c.1 c.2

/-- The cores whose threads may present a bundle. -/
def busyCores (s : State) : List Nat := s.threads.map fun t => coreOf t.1
/-- The events before the cores present their bundles. -/
def earlyCandidates (s : State) : List (State → State) :=
  s.threads.flatMap (fun t => earlyEvents t.1) ++ s.waiters.flatMap (fun w => if localFirst s w.1 then [evFeWaiterPerform w.1] else [])
    ++ (s.ctxs.flatMap fun c => c.2.handles.map fun h => evCircuitSettled c.1 h.1)
    ++ (busyCores s).flatMap fun c => [evSlotSwitch c, evQuantumExpiry c]
/-- The other events of the machine's own, with the operands that the state gives them. -/
def candidates (s : State) : List (State → State) :=
  s.threads.map (fun t => evVgathPass t.1)
    ++ s.ctxs.flatMap (fun c => circuitEvents s c.1 c.2)
    ++ s.threads.flatMap (fun t => threadEvents t.1 t.2)
    ++ s.waiters.flatMap (fun w => evFeWaiterPerform w.1 :: (List.range w.2.length).map fun i => evFeTimeout w.1 i)
    ++ s.walks.map (fun w => evPageWalkComplete w.slot w.tag)
    ++ s.accesses.flatMap (fun a => accessEvents a.1)
    ++ s.links.flatMap (fun l => linkEvents l.1)
    ++ s.frames.flatMap (fun f => frameEvents f.1)
    ++ s.relayed.flatMap (fun f => [evRelayForward f.1, evFrameAgeDiscard f.1])
    ++ s.peers.flatMap (fun p => [evKeepaliveSend p.1, evPeerSilenceHold p.1, evPeerLost p.1, evRelayRefill p.1])
    ++ s.lanes.flatMap (fun l => [evCodeMarkerTimeout l.1, evCodeChange l.1])
    ++ s.autos.map (fun a => evAutoCircuitIdleTear a.src)
    ++ s.ports.map (fun p => evCsendLanding p.1)
    ++ (List.range s.migrations.length).map (fun k => evPageMigrationComplete k)
    ++ hubEvents s

/-- At most this many events of the default schedule in one part of a cc, so that time passes. -/
def eventsPerPart : Nat := 65536
/-- What the first event that changes the state makes of it. -/
def firstChange (s : State) : List (State → State) → Option State
  | [] => none
  | f :: fs => let t := f s; if t = s then firstChange s fs else some t
/-- `acted` counts the events of a cc; the last part has begun once it has reached the limit of the first. -/
def nextEarly (s : State) : Option State :=
  if eventsPerPart ≤ s.acted + 1 then none else (firstChange s (earlyCandidates s)).map fun t => { t with acted := s.acted + 1 }
def nextEvent (s : State) : Option State :=
  if 2 * eventsPerPart ≤ s.acted then none
  else (firstChange s (candidates s)).map fun t => { t with acted := max eventsPerPart s.acted + 1 }
/-- A core whose current slot holds a thread that may present a bundle in this cc. -/
def nextCore (s : State) : Option Nat :=
  if eventsPerPart ≤ s.acted then none
  else (busyCores s).find? fun c => issueAllowed s c && (match getThread s (currentSlot s c) with
    | some t => mayPresent s t
    | none => false)

/-! The end of a cc (R322, R370). -/

/-- R322: a thread that is ready and not current keeps the cc since which it waits. -/
def waitingSince (s : State) (k : Nat) (t : Thread) : Nat :=
  if currentSlot s (coreOf k) ≠ k ∧ ready s k then t.readySince else s.cc + 1
/-- R370: the watchdog counts the cc in user mode. -/
def tickThread (s : State) (k : Nat) (t : Thread) : Thread :=
  { t with readySince := waitingSince s k t, watch := if t.system then t.watch else t.watch + 1 }
/-- R372: a quantum that `yield` ended in an earlier cc, for which no other slot was ready, goes on. -/
def lapseYield (s : State) (c : Core) : Core := if c.lastIssue = some s.cc then c else { c with expired := false }
/-- R376: what a core's own ports read is corrected and counted by the end of the cc (DESIGN CHOICE, log entry 116). -/
def scrub (s : State) : State :=
  s.eccSoft.foldl (fun s l => match regionOf (64 * l) with
    | .scratch _ _ => fixSoft (64 * l) 1 s
    | .weight _ _ _ => fixSoft (64 * l) 1 s
    | .hbm => s | .l2ctl => s | .tileReg _ => s | .hub _ => s | .unassigned => s) s
def tick (s : State) : State :=
  { lapseGrants (scrub s) with cc := s.cc + 1, acted := 0, departed := [], cores := (lapseGrants s).cores.map (fun c => (c.1, lapseYield s c.2)), threads := s.threads.map fun x => (x.1, tickThread s x.1 x.2) }

end Sys2Proof.Machine
end

