-- ==== Sys2Proof/Machine/Step.lean ====
section
/-! DEFINITION. One step of the machine: one event, the bundle of one core, or the end of a cc. -/

namespace Sys2Proof.Machine

/-- What the head of the agenda asks for; an agenda cannot ask for a bundle's operation outside its bundle. -/
def happen (h : Happening) (s : State) : Host.Outcome State Fault Refusal :=
  match h with
  | .event i => if isEvent i then exec i s else .next s
  | .issue c => issueCore c s
  | .tick => .next (tick s)
  | .hostWrite a b => .next (hostWrites a b s)

/-- What happens when the agenda is empty: the parts of a cc in their order, then its end. -/
def unscheduled (s : State) : Host.Outcome State Fault Refusal :=
  match nextEarly s with
  | some t => .next t
  | none => match nextCore s with
    | some c => issueCore c s
    | none => match nextEvent s with
      | some t => .next t
      | none => .next (tick s)

/-- What follows from anything that happens follows at once (R223, R297). -/
def settled : Host.Outcome State Fault Refusal → Host.Outcome State Fault Refusal
  | .next s => .next (settle s)
  | .fault f => .fault f
  | .refused r => .refused r
/-- One step of the machine (log entry 1). -/
def step (s : State) : Host.Outcome State Fault Refusal :=
  match s.agenda with
  | h :: hs => settled (happen h { s with agenda := hs })
  | [] => settled (unscheduled s)

/-! The placing of one instruction for the next step (log entry 3). -/

/-- A descriptor of one block that has the whole scratchpad and weight buffer of its core. -/
def fetchDesc : Desc :=
  { entry := 0, gx := 1, gy := 1, prio := 0, lock := false, shape := false, policy := 0, circ := false, strict := false,
    slots := 1, pred := 0, scratch := 256, acccols := 512, wdata := 1024, whdr := 1024, sig := 0, floor := 0, ceil := 0,
    pin := 0, perblk := 0, pool := 0, cprog := 0, cplen := 0, args := List.replicate 8 0, succ := [], oper := [], comp := 0 }
def fetchNode : Node := { gen := 0, asid := 0, desc := fetchDesc, args := List.replicate 8 0, count := 0 }
/-- The first byte of the HBM of this device, where the bundle stands. -/
def fetchBase (s : State) : Nat := paOf s.cfg.device 0 0
/-- The translation of virtual page 0 to it, with X. -/
def fetchTlb (s : State) : Tlb :=
  { asid := 0, base := 0, size := .k64, leaf := BitVec.ofNat 64 (fetchBase s + 2 ^ 7 + 2 ^ 4 + 1), level := 3 }
/-- The slot of the bundle that a word of the table goes to. -/
def wordPlace (nbits w : Nat) : WordSlot := (tableSlot nbits w).getD (if nbits ≤ 16 then .e else .s)
def fetchBundleBits (nbits w : Nat) : Nat := bundleOfWord ⟨wordPlace nbits w, w⟩

/-- A block whose next bundle is the given word among NOPs stands in slot 0 and is presented in the next step. -/
def State.withFetchWord (s : State) (nbits w : Nat) : State :=
  { s with
    threads := put s.threads 0 (blockThread s 0 fetchNode 0 ⟨0, 0, 0, 0⟩ false)
    cores := put s.cores 0 {}
    tlb1 := put s.tlb1 0 [fetchTlb s]
    mem := s.mem.store (fetchBase s) (leBytes 16 (fetchBundleBits nbits w))
    service := .running
    throttled := false
    redirects := []
    eccSoft := s.eccSoft.filter fun l => decide (l ≠ fetchBase s / 64)
    eccBad := s.eccBad.filter fun l => decide (l ≠ fetchBase s / 64)
    agenda := .issue 0 :: s.agenda }

end Sys2Proof.Machine
end

