-- ==== Sys2Proof/Safety.lean ====
section
/-! DEFINITION. The terms in which statements about the machine are made: the thread whose bundle is presented, what a
bundle leaves behind, values by width, lane by lane results, and the invariant of every run. -/

namespace Sys2Proof.Machine

/-! The invariant of every run. -/

/-- The three memories keep their canonical form, whatever happens. -/
def State.Inv (s : State) : Prop := s.mem.wf = true ∧ s.hostMem.wf = true ∧ s.mirror.wf = true

/-! The thread whose bundle is presented. -/

/-- The slot whose turn it is holds thread t, and t may present a bundle. -/
def AtTurn (s : State) (t : Thread) : Prop := getThread s s.turn = some t ∧ presentable t = true
/-- The slot whose turn it is after the bundle of t has issued (R49, R327). -/
def afterBundle (s : State) (t : Thread) : State := setThread s s.turn (advance t s.cc)
/-- The same, the thread changed further. -/
def afterWith (s : State) (t : Thread) (f : Thread → Thread) : State := setThread s s.turn (f (advance t s.cc))
/-- The bundle of t has issued and one result is in flight (R71); `rank` is 0, 1 or 2 for the A, S or V slot. -/
def pushes (s : State) (t : Thread) (rank lat : Nat) (r : Result) (f : FpFlags) : State :=
  afterWith s t fun u => { u with flight := t.flight ++ [itemOf t rank lat r f] }
/-- A scalar from the S slot that raises no flag. -/
def pushesS (s : State) (t : Thread) (lat : Nat) (v : W64) : State := pushes s t 1 lat (.scalar (.val v)) .none
/-- A scalar from the A slot. -/
def pushesA (s : State) (t : Thread) (lat : Nat) (v : W64) : State := pushes s t 0 lat (.scalar (.val v)) .none
/-- A vector from the V slot. -/
def pushesV (s : State) (t : Thread) (lat : Nat) (v : Vec) (f : FpFlags) : State := pushes s t 2 lat (.vector (.val v)) f

/-! The part of a bundle an operation stands in (R49). -/

/-- Where an operation stands: 0 the S syllable, 1 V, 2 A, 3 the upper engine word; an event stands nowhere. -/
def placeOf (i : Instr) : Option Nat :=
  (encode i).map fun x => match x.slot with | .s => 0 | .v => 1 | .a => 2 | .e => 3
/-- The operations of a bundle that are no NOPs, with their parts. -/
def partsOf (b : Bundle) : List (Nat × Instr) :=
  [(0, b.s), (1, b.v), (2, b.a), (3, b.upper), (4, b.lower)].filter fun x => !x.2.isNop

/-! Values (R215). -/

/-- f on N-bit operands, N = 32 when W is set and 64 otherwise, zero-extended. -/
def inWidth (w : Bool) (f : (n : Nat) → BitVec n → BitVec n → BitVec n) (x y : W64) : W64 :=
  if w then (f 32 (x.setWidth 32) (y.setWidth 32)).setWidth 64 else f 64 x y
/-- A truth value as a word. -/
def truth (b : Bool) : W64 := if b then 1 else 0
/-- A truth value of N-bit operands. -/
def testWidth (w : Bool) (p : (n : Nat) → BitVec n → BitVec n → Bool) (x y : W64) : W64 :=
  truth (if w then p 32 (x.setWidth 32) (y.setWidth 32) else p 64 x y)
/-- The first bit number below n that meets p, else n. -/
def firstBit (n : Nat) (p : Nat → Bool) : W64 := BitVec.ofNat 64 (((List.range n).find? p).getD n)
/-- PC + 16 × offset (R54). -/
def target (t : Thread) (o : BitVec 20) : W64 := t.pc + 16 * o.signExtend 64

/-! Vectors (R229). -/

/-- Instruction i pushes, with a latency, the vector whose active lanes are given by g and whose other lanes are 0; the
flags of the active lanes are ORed. -/
def LaneResult (s : State) (t : Thread) (i : Instr) (lat : Nat) (m : Fin 8) (g : Nat → Nat × FpFlags) : Prop :=
  exec i s = .next (pushesV s t lat
    ((List.range 96).map fun l => if maskBit (readMask t m) l then BitVec.ofNat 32 (g l).1 else 0)
    (orAll ((List.range 96).map fun l => if maskBit (readMask t m) l then (g l).2 else .none)))
/-- The same, element by element of a type: element j of lane l is f of the elements j of lane l of the operands. -/
def ElemResult (s : State) (t : Thread) (i : Instr) (lat : Nat) (m : Fin 8) (ty : VType) (a b : VSpec)
    (f : Nat → Nat → Nat × FpFlags) : Prop :=
  LaneResult s t i lat m fun l => laneElems ty fun j => f (elemAt ty (lane (readVec t a) l) j) (elemAt ty (lane (readVec t b) l) j)
/-- An integer result of elements, which raises no flag. -/
def IntElems (s : State) (t : Thread) (i : Instr) (lat : Nat) (m : Fin 8) (ty : VType) (a b : VSpec)
    (f : (n : Nat) → BitVec n → BitVec n → BitVec n) : Prop :=
  ElemResult s t i lat m ty a b fun x y => ((f ty.width (BitVec.ofNat ty.width x) (BitVec.ofNat ty.width y)).toNat, .none)
/-- Instruction i pushes the vector whose lane l is g l. -/
def VectorOut (s : State) (t : Thread) (i : Instr) (lat : Nat) (g : Nat → W32) : Prop :=
  exec i s = .next (pushesV s t lat ((List.range 96).map g) .none)

/-- R242: the value of node j of level n of the fixed tree over lanes x under the operation g, with the flags of the nodes
below it and its own ORed. -/
def treeNode (g : Nat → Nat → Nat × FpFlags) (x : Nat → Nat) : Nat → Nat → Nat × FpFlags
  | 0, j => (x j, .none)
  | n + 1, j =>
    let a := treeNode g x n (2 * j)
    let b := treeNode g x n (2 * j + 1)
    ((g a.1 b.1).1, (a.2.or b.2).or (g a.1 b.1).2)
/-- R242: (T5[0] ⊕ T5[1]) ⊕ T5[2]. -/
def treeResult (g : Nat → Nat → Nat × FpFlags) (x : Nat → Nat) : Nat × FpFlags :=
  let a := treeNode g x 6 0
  let b := treeNode g x 5 2
  ((g a.1 b.1).1, (a.2.or b.2).or (g a.1 b.1).2)
/-- R243: lane i after n steps of the scan over lanes x under the operation g. -/
def scanNode (g : Nat → Nat → Nat × FpFlags) (x : Nat → Nat) : Nat → Nat → Nat
  | 0, i => x i
  | n + 1, i => if 2 ^ n ≤ i then (g (scanNode g x n (i - 2 ^ n)) (scanNode g x n i)).1 else scanNode g x n i
/-- R243: the flags of every addition of the scan. -/
def scanFlags (g : Nat → Nat → Nat × FpFlags) (x : Nat → Nat) : FpFlags :=
  (List.range 7).foldl (fun f n => f.or (orAll ((List.range 96).map fun i =>
    if 2 ^ n ≤ i then (g (scanNode g x n (i - 2 ^ n)) (scanNode g x n i)).2 else .none))) .none

/-! Engine stacks and queues (R63, R65, R66). -/

/-- The bundle of t has issued and an engine's parameter stack holds l. -/
def withStack (s : State) (t : Thread) (e : Eng) (l : List W64) : State :=
  afterWith s t fun u => setEngine u e { getEngine t e with stack := l }
/-- The queue entry of an engine word whose parameters are taken from the stack, the deepest first. -/
def entryOf (t : Thread) (e : Eng) (i : Instr) (n : Nat) : QWord :=
  { instr := i, params := ((getEngine t e).stack.take n).reverse, scrwin := t.sys.scrwin, wgtwin := t.sys.wgtwin
    accwin := t.sys.accwin, caps := (queueEntry e i t).caps, seq := (getEngine t e).lastSeq + 1 }
/-- The bundle of t has issued and the word has taken n parameters and entered the queue. -/
def queued (s : State) (t : Thread) (e : Eng) (i : Instr) (n : Nat) : State :=
  afterWith s t fun u =>
    setEngine u e { getEngine t e with
      stack := (getEngine t e).stack.drop n
      queue := (getEngine t e).queue ++ [entryOf t e i n]
      lastSeq := (getEngine t e).lastSeq + 1 }
/-- The checks at issue of an engine word pass: its parameters are on the stack and in range, its queue has room. -/
def WordOk (t : Thread) (e : Eng) (i : Instr) (n : Nat) : Prop :=
  n ≤ (getEngine t e).stack.length ∧ (getEngine t e).queue.length < 16
    ∧ paramTraps 3 (paramForms i) (((getEngine t e).stack.take n).reverse) = []
    ∧ (if e = .m then matrixTraps 3 t i (((getEngine t e).stack.take n).reverse)
       else copyTraps 3 t i (((getEngine t e).stack.take n).reverse)) = []

/-! Scratchpad accesses (R196). -/

/-- An access of n bytes at x passes the checks: aligned, below 2^20, in the window. -/
def ScratchOk (t : Thread) (x : W64) (n : Nat) : Prop :=
  x.toNat % min n 64 = 0 ∧ x.toNat < 2 ^ 20 ∧ inScr t.sys.scrwin x.toNat n = true
/-- The ports of the scratchpad of the presenting thread are free, and no earlier device access of it is unperformed, so
that an access to the scratchpad performs as its bundle issues (R74, R300, R302). -/
def PortFree (s : State) : Prop := portBusy s s.turn = false
def LineGood (s : State) (x : W64) (n : Nat) : Prop := lineBad s (ownPa s s.turn x) n = false
def LocalFree (s : State) : Prop := localHeld s s.turn = false
/-- The bundle of t has issued with an access to a scratchpad, or the end of a wait: the thread's clock has advanced (R304). -/
def afterLocal (s : State) (t : Thread) : State := afterWith s t fun u => { u with clock := t.clock + 1 }
/-- The same, with one result of latency 5 of the A slot in flight. -/
def pushesLocal (s : State) (t : Thread) (r : Result) : State :=
  afterWith s t fun u => { u with clock := t.clock + 1, flight := t.flight ++ [itemOf t 0 5 r .none] }
/-- R376: what a read of n bytes at x gives: the value, or the poison of an uncorrectable error in its lines. -/
def loaded {α : Type} (s : State) (x : W64) (n : Nat) (v : α) : Entry α :=
  if lineBad s (ownPa s s.turn x) n then
    .poison { code := tMemUncorrectable, place := 0xB, cause := 1, arg0 := BitVec.ofNat 64 (ownPa s s.turn x / 64 * 64) }
  else .val v
/-- The thread of the turn stays at its bundle and waits. -/
def waiting (s : State) (t : Thread) (w : Wait) : State := setThread s s.turn { t with wait := some w }
/-- Every byte outside [pa, pa + n) reads as before. -/
def SameOutside (s u : State) (pa n : Nat) : Prop := ∀ a, a < pa ∨ pa + n ≤ a → u.mem.read a = s.mem.read a

/-! Accesses under way (R103, R205). -/

/-- Access number id is under way for the thread in slot k. -/
def UnderWay (u : State) (id k : Nat) (op : AccOp) (pa tag : Nat) (buffered : Bool) : Prop :=
  ∃ a, look u.accesses id = some a ∧ a.owner = .thread k ∧ a.op = op ∧ a.pa = pa ∧ a.tag = tag ∧ a.buffered = buffered
    ∧ a.performed = false ∧ a.answer = none
/-- The thread in slot k is t after its bundle, one late result with a tag and latency in flight. -/
def Awaits (s u : State) (t : Thread) (rank lat tag need : Nat) : Prop :=
  ∃ t' i, getThread u s.turn = some t' ∧ t'.flight = t.flight ++ [i] ∧ i.due = clockOf t + lat - 1 ∧ i.rank = rank
    ∧ i.tag = tag ∧ i.need = need ∧ i.value = none ∧ t'.pc = t.pc + 16 ∧ t'.regs = t.regs ∧ t'.sys = t.sys

/-- R116: b is the access a in a new place, the last of the queue there. -/
def StandsAt (s : State) (a b : Access) (p : Place) : Prop :=
  ∃ n, b = { a with place := p, entered := s.cc, order := n } ∧ ∀ c ∈ s.accesses, slotAt c.2 = slotAt b → c.2.order < n

end Sys2Proof.Machine
end

