-- ==== Sys2Proof/Certificates/Slice0/Obligations.lean ====
section
/-! DEFINITION. The statements for the provers. Each is made for every state and operand that meets its premises; a
premise names only the state and the operands. -/

open Sys2Proof Sys2Proof.Machine

/-- A NOP of any slot issues whatever its other bits hold: the thread moves to its next bundle and nothing else changes;
gwait does the same once every earlier store and atomic of the thread has performed, the clock of the thread
advancing by one (a choice of the model, log entry 90), and is held until then. (R51, R49, R204.) -/
def Obligations.NopsAdvance : Prop :=
  ∀ s t, AtTurn s t → ∀ x y z,
  exec (.sNop x) s = .next (afterBundle s t) ∧ exec (.vNop y) s = .next (afterBundle s t) ∧ exec (.aNop z) s = .next (afterBundle s t)
  ∧ exec .engineNop s = .next (afterBundle s t) ∧ exec .commonNop s = .next (afterBundle s t)
  ∧ (storesPerformed s s.turn = true → exec .gwait s = .next (afterLocal s t))
  ∧ (storesPerformed s s.turn = false → exec .gwait s = .next s)

/-- add, sub and mul give the sum, difference and product modulo 2^N; mulh and mulhu give the upper N bits of the signed
and the unsigned product. div and rem are signed and truncate toward zero, divu and remu unsigned; a zero divisor
gives a quotient of all ones and the dividend as remainder, the most negative number by -1 itself and remainder 0.
The result is in flight with latency 1, 3 or 24 and nothing else changes. (R215, R71.) -/
def Obligations.IntegerArithmetic : Prop :=
  ∀ s t a b w, AtTurn s t → poisonS t [a, b] = [] →
  let out := fun (lat : Nat) (f : (n : Nat) → BitVec n → BitVec n → BitVec n) =>
    (.next (pushesS s t lat (inWidth w f (readS t a) (readS t b))) : Host.Outcome State Fault Refusal)
  exec (.add a b w) s = out 1 (fun _ x y => x + y) ∧ exec (.sub a b w) s = out 1 (fun _ x y => x - y)
  ∧ exec (.mul a b w) s = out 3 (fun _ x y => x * y)
  ∧ exec (.mulh a b w) s = out 3 (fun n x y => BitVec.ofInt n (x.toInt * y.toInt / 2 ^ n))
  ∧ exec (.mulhu a b w) s = out 3 (fun n x y => BitVec.ofNat n (x.toNat * y.toNat / 2 ^ n))
  ∧ exec (.div a b w) s = out 24 (fun n x y => if y = 0 then BitVec.allOnes n else x.sdiv y)
  ∧ exec (.divu a b w) s = out 24 (fun n x y => if y = 0 then BitVec.allOnes n else x / y)
  ∧ exec (.rem a b w) s = out 24 (fun _ x y => if y = 0 then x else x.srem y)
  ∧ exec (.remu a b w) s = out 24 (fun _ x y => if y = 0 then x else x % y)

/-- and, or, xor and andn work bit by bit; shl, shr, sar and rotl move by the low bits of b that number the N bits (y
mod N). (R215.) -/
def Obligations.IntegerLogicAndShifts : Prop :=
  ∀ s t a b w, AtTurn s t → poisonS t [a, b] = [] →
  let out := fun (f : (n : Nat) → BitVec n → BitVec n → BitVec n) =>
    (.next (pushesS s t 1 (inWidth w f (readS t a) (readS t b))) : Host.Outcome State Fault Refusal)
  exec (.and a b w) s = out (fun _ x y => x &&& y) ∧ exec (.or a b w) s = out (fun _ x y => x ||| y)
  ∧ exec (.xor a b w) s = out (fun _ x y => x ^^^ y) ∧ exec (.andn a b w) s = out (fun _ x y => x &&& ~~~y)
  ∧ exec (.shl a b w) s = out (fun n x y => x <<< (y.toNat % n)) ∧ exec (.shr a b w) s = out (fun n x y => x >>> (y.toNat % n))
  ∧ exec (.sar a b w) s = out (fun n x y => x.sshiftRight (y.toNat % n))
  ∧ exec (.rotl a b w) s = out (fun n x y => x.rotateLeft (y.toNat % n))

/-- It formalises R217. ceq, cne, clt, cltu, cle and cleu push 1 when the relation holds on N bits and 0 otherwise, sel
pushes b when a is nonzero and c when it is zero, as 64-bit values; all with latency 1. -/
def Obligations.ComparesAndSelect : Prop :=
  ∀ s t a b c w, AtTurn s t →
  (poisonS t [a, b] = [] →
    let test := fun (p : (n : Nat) → BitVec n → BitVec n → Bool) =>
      (.next (pushesS s t 1 (testWidth w p (readS t a) (readS t b))) : Host.Outcome State Fault Refusal)
    exec (.ceq a b w) s = test (fun _ x y => x == y) ∧ exec (.cne a b w) s = test (fun _ x y => x != y)
    ∧ exec (.clt a b w) s = test (fun _ x y => decide (x.toInt < y.toInt)) ∧ exec (.cltu a b w) s = test (fun _ x y => decide (x.toNat < y.toNat))
    ∧ exec (.cle a b w) s = test (fun _ x y => decide (x.toInt ≤ y.toInt)) ∧ exec (.cleu a b w) s = test (fun _ x y => decide (x.toNat ≤ y.toNat)))
  ∧ (poisonS t [a, b, c] = [] → exec (.sel a b c) s = .next (pushesS s t 1 (if readS t a ≠ 0 then readS t b else readS t c)))

/-- It formalises R216. sext pushes the low 8, 16 or 32 bits of a sign-extended to 64 bits, zext the same bits zero-
extended, with latency 1. -/
def Obligations.Extensions : Prop :=
  ∀ s t a k, AtTurn s t → poisonS t [a] = [] →
  exec (.sext a k) s = .next (pushesS s t 1 (BitVec.ofInt 64 ((readS t a).setWidth k.bits).toInt))
  ∧ exec (.zext a k) s = .next (pushesS s t 1 (BitVec.ofNat 64 ((readS t a).toNat % 2 ^ k.bits)))
  ∧ ExtWidth.w8.bits = 8 ∧ ExtWidth.w16.bits = 16 ∧ ExtWidth.w32.bits = 32

/-- min and max compare as signed, minu and maxu as unsigned; clz and ctz count the zero bits above the highest and
below the lowest 1 (N when there is none), popc the 1 bits; li pushes the sign-extended immediate; lih shifts a left
by 20 and adds the zero-extended immediate; addi, andi and ori combine with the sign-extended immediate; shli shifts
left by its field. (R215, R218.) -/
def Obligations.ExtremesCountsAndImmediates : Prop :=
  ∀ s t a b w i k, AtTurn s t →
  let x := readS t a
  let n := if w then 32 else 64
  (poisonS t [a, b] = [] →
    let out := fun (f : (n : Nat) → BitVec n → BitVec n → BitVec n) =>
      (.next (pushesS s t 1 (inWidth w f (readS t a) (readS t b))) : Host.Outcome State Fault Refusal)
    exec (.min a b w) s = out (fun _ x y => if x.sle y then x else y) ∧ exec (.max a b w) s = out (fun _ x y => if x.sle y then y else x)
    ∧ exec (.minu a b w) s = out (fun _ x y => if x ≤ y then x else y) ∧ exec (.maxu a b w) s = out (fun _ x y => if x ≤ y then y else x))
  ∧ exec (.li i) s = .next (pushesS s t 1 (i.signExtend 64))
  ∧ (poisonS t [a] = [] →
    exec (.clz a w) s = .next (pushesS s t 1 (firstBit n fun i => x.getLsbD (n - 1 - i)))
    ∧ exec (.ctz a w) s = .next (pushesS s t 1 (firstBit n fun i => x.getLsbD i))
    ∧ exec (.popc a w) s = .next (pushesS s t 1 (BitVec.ofNat 64 ((List.range n).filter fun i => x.getLsbD i).length))
    ∧ exec (.lih a i) s = .next (pushesS s t 1 (x <<< 20 + i.zeroExtend 64))
    ∧ exec (.addi a i) s = .next (pushesS s t 1 (x + i.signExtend 64))
    ∧ exec (.andi a i) s = .next (pushesS s t 1 (x &&& i.signExtend 64))
    ∧ exec (.ori a i) s = .next (pushesS s t 1 (x ||| i.signExtend 64))
    ∧ exec (.shli a k) s = .next (pushesS s t 1 (x <<< k.toNat)))

/-- keep writes a named scalar; vkeep writes the lanes of a named vector that the mask selects; mkeep writes the bits of
a named mask that the mask selects to whether the lane of b is nonzero. m0 is not written. Nothing else changes but
the advance to the next bundle. (R214, R212.) -/
def Obligations.KeepsWriteNamed : Prop :=
  ∀ s t b v m, AtTurn s t → poisonS t [b] = [] → poisonV t [v] = [] →
  (∀ d, exec (.keep d b) s = .next (afterWith s t fun u => { u with regs := { u.regs with n := u.regs.n.set d.val (readS t b) } }))
  ∧ (∀ d, exec (.vkeep d v m) s = .next (afterWith s t fun u => { u with regs := { u.regs with
      v := u.regs.v.set d.val ((List.range 96).map fun l =>
        if maskBit (readMask t m) l then (readVec t v).getD l 0 else (t.regs.v.getD d.val zeroVec).getD l 0) } }))
  ∧ exec (.mkeep 0 v m) s = .next (afterBundle s t)
  ∧ ∀ d : Fin 8, d ≠ 0 → ∃ x : Mask,
      exec (.mkeep d v m) s = .next (afterWith s t fun u => { u with regs := { u.regs with m := u.regs.m.set d.val x } })
      ∧ ∀ l, l < 96 → maskBit x l = if maskBit (readMask t m) l then decide ((readVec t v).getD l 0 ≠ 0) else maskBit (readMask t d) l

/-- Each scalar floating-point operation pushes, with latency 4, the result of its arithmetic in FP32 or FP64 in the
mode in force, with its flags; compares push 0 or 1; fcvt converts. (R219, R220, R221, R28.) -/
def Obligations.ScalarFloat : Prop :=
  ∀ s t a b c r d f g, AtTurn s t → poisonS t [a, b, c] = [] →
  let x := (readS t a).toNat % 2 ^ (fmtOf d).width
  let y := (readS t b).toNat % 2 ^ (fmtOf d).width
  let z := (readS t c).toNat % 2 ^ (fmtOf d).width
  let rm := modeInForce t.sys.fpc r
  let out := fun (v : Nat × FpFlags) => (.next (pushes s t 1 4 (.scalar (.val (BitVec.ofNat 64 v.1))) v.2) : Host.Outcome State Fault Refusal)
  let test := fun (v : Bool × FpFlags) => (.next (pushes s t 1 4 (.scalar (.val (truth v.1))) v.2) : Host.Outcome State Fault Refusal)
  exec (.fadd a b r d) s = out (fpAdd (fmtOf d) rm x y) ∧ exec (.fsub a b r d) s = out (fpSub (fmtOf d) rm x y)
  ∧ exec (.fmul a b r d) s = out (fpMul (fmtOf d) rm x y) ∧ exec (.ffma a b c r d) s = out (fpFma (fmtOf d) rm x y z)
  ∧ exec (.fmin a b d) s = out (minMaxNum (fmtOf d) false x y) ∧ exec (.fmax a b d) s = out (minMaxNum (fmtOf d) true x y)
  ∧ exec (.fceq a b r d) s = test (fpEq (fmtOf d) x y) ∧ exec (.fclt a b r d) s = test (fpLt (fmtOf d) x y)
  ∧ exec (.fcle a b r d) s = test (fpLe (fmtOf d) x y)
  ∧ exec (.fcvt a f g r) s = out (sConvert (sValue f (readS t a)) g rm (fpcOvf8 t.sys.fpc))

/-- br and brz move PC by 16 times the offset when the condition is nonzero or zero, jmp and call always, ret to an
address that is a multiple of 16; call pushes PC + 16; loop decrements its named scalar modulo 2^64 and moves while
it is not zero. ret to another address raises ALIGN. With no store outstanding, no engine word, no gather and no
deferred fault pending, halt of a block that is not speculative frees its slot, counts the block as done at its
node, releases its landing side, and leaves memory and the other threads as they are, but for the memberships that
end with the cohort. With a store outstanding or an engine busy the bundle is held. (R222, R54, R223, R347.) -/
def Obligations.ControlTransfers : Prop :=
  (∀ s t a o, AtTurn s t → poisonS t [a] = [] →
  let goes := fun (p : Bool) => (.next (afterWith s t fun u => { u with pc := if p then target t o else t.pc + 16 }) : Host.Outcome State Fault Refusal)
  exec (.br a o) s = goes (decide (readS t a ≠ 0)) ∧ exec (.brz a o) s = goes (decide (readS t a = 0)) ∧ exec (.jmp o) s = goes true
  ∧ exec (.call o) s = .next (afterWith s t fun u =>
      { u with pc := target t o, flight := t.flight ++ [itemOf t 1 1 (.scalar (.val (t.pc + 16))) .none] })
  ∧ ((readS t a).toNat % 16 = 0 → exec (.ret a) s = .next (afterWith s t fun u => { u with pc := readS t a }))
  ∧ ((readS t a).toNat % 16 ≠ 0 → feDone t = false → exec (.ret a) s = .next (raiseTrap s.turn (trapOf tAlign 0 (readS t a)) s))
  ∧ ∀ c, exec (.loop c o) s = .next (afterWith s t fun u =>
      let n := t.regs.n.getD c.val 0 - 1
      { u with regs := { u.regs with n := u.regs.n.set c.val n }, pc := if n ≠ 0 then target t o else t.pc + 16 }))
  ∧ (∀ s t, AtTurn s t → pendingFaults t allEngines = [] →
    (keysRise s.threads = true → t.spec = false → t.gather = none → bufferUsed s s.turn = 0 → (∀ e, engineIdle (getEngine t e) = true) →
      ∃ u, exec .halt s = .next u ∧ getThread u s.turn = none
        ∧ (∀ k, k ≠ s.turn → (getThread u k).map (fun x => { x with leaving := [] }) = (getThread s k).map fun x => { x with leaving := [] })
        ∧ u.mem = s.mem ∧ u.hostMem = s.hostMem ∧ (∀ c ∈ u.claims, c.2 ≠ s.turn)
        ∧ ∀ x, look s.nodes t.node.id = some x → x.gen = t.node.gen → (look u.nodes t.node.id).map Node.done = some (x.done + 1))
    ∧ (bufferUsed s s.turn ≠ 0 ∨ (∃ e, engineIdle (getEngine t e) = false) → exec .halt s = .next s))

/-- epush pushes a scalar, lit a sign-extended literal; litx makes the top 2048 times itself plus its literal; dup, drop
and swap act on the top entries. A push on a stack of eight raises ENGINE_STACK with the number of the stack. tkwait
subtracts its count when the token count, without what was pushed in this cc, holds that many, the clock of the
thread advancing by one as with every wait that ends (a choice of the model, log entry 90), and is held otherwise;
tksig adds its count and notes it as pushed in this cc, and one that would pass 255 raises ENGINE_STACK with cause
3. (R63, R65, R224, R225, R226, R255.) -/
def Obligations.EngineStacksAndTokens : Prop :=
  ∀ s t e a v x, AtTurn s t → poisonS t [a] = [] →
  let l := (getEngine t e).stack
  (l.length < 8 →
    exec (.epush a e) s = .next (withStack s t e (readS t a :: l)) ∧ exec (.lit e v) s = .next (withStack s t e (v.signExtend 64 :: l))
    ∧ (∀ y ys, l = y :: ys → exec (.dup e) s = .next (withStack s t e (y :: y :: ys))))
  ∧ (8 ≤ l.length → feDone t = false → exec (.lit e v) s = .next (raiseTrap s.turn (trapOf tEngineStack 3 0 0 (engineNo e)) s))
  ∧ (∀ y ys, l = y :: ys → l.length ≤ 8 →
    exec (.litx e x) s = .next (withStack s t e ((y * 2048 + x.zeroExtend 64) :: ys)) ∧ exec (.drop e) s = .next (withStack s t e ys))
  ∧ (∀ y z ys, l = y :: z :: ys → l.length ≤ 8 → exec (.swap e) s = .next (withStack s t e (z :: y :: ys)))
  ∧ (l = [] → feDone t = false → exec (.drop e) s = .next (raiseTrap s.turn (trapOf tEngineStack 3 0 0 (engineNo e)) s))
  ∧ ∀ d n, pendingFaults t allEngines = [] →
    let c := waitReady s.cc t d
    let g := sigCount t.tokens d
    (n.toNat ≤ c → exec (.tkwait d n) s = .next (afterWith s t fun u => { u with clock := t.clock + 1, tokens := setWaitCount t.tokens (waitCount t.tokens d - n.toNat) d }))
    ∧ (c < n.toNat → exec (.tkwait d n) s = .next s)
    ∧ (t.pushedAt ≠ s.cc → c = waitCount t.tokens d)
    ∧ (g + n.toNat ≤ 255 → exec (.tksig d n) s = .next (afterWith s t fun u => { u with
        tokens := setSigCount t.tokens (g + n.toNat) d
        pushed := (let p := if t.pushedAt = s.cc then t.pushed else {}; setSigCount p (sigCount p d + n.toNat) d)
        pushedAt := s.cc }))
    ∧ (255 < g + n.toNat → feDone t = false → exec (.tksig d n) s = .next (raiseTrap s.turn (trapOf tEngineStack 0 0 0 3) s))

/-- getid pushes the identity its selector names (slot, core, tile, device, block coordinates among them), vclk the vc
of its bundle, estat the engine status word, rdsys the register; a privileged register read in user mode raises
PRIVILEGE with its number. (R326, R327, R228, R371, R70.) -/
def Obligations.StatusReads : Prop :=
  ∀ s t, AtTurn s t →
  (∀ n : BitVec 4, n.toNat < 12 → exec (.getid n) s = .next (pushesS s t 1 (identity s s.turn t n.toNat)))
  ∧ identity s s.turn t 0 = BitVec.ofNat 64 s.turn ∧ identity s s.turn t 1 = BitVec.ofNat 64 (s.turn / 4)
  ∧ identity s s.turn t 2 = BitVec.ofNat 64 (s.turn / 48) ∧ identity s s.turn t 3 = BitVec.ofNat 64 s.cfg.device
  ∧ identity s s.turn t 4 = BitVec.ofNat 64 t.bx ∧ identity s s.turn t 5 = BitVec.ofNat 64 t.bY
  ∧ exec .vclk s = .next (pushesS s t 1 (BitVec.ofNat 64 t.vc))
  ∧ (∀ e, pendingFaults t [e] = [] → exec (.estat e) s = .next (pushesS s t 1 (engineStatus t e)))
  ∧ (∀ r : BitVec 10, readPrivileged r.toNat = false ∨ t.system = true → exec (.rdsys r) s = .next (pushesS s t 1 (readSys t r.toNat)))
  ∧ (∀ r : BitVec 10, readPrivileged r.toNat = true → t.system = false → feDone t = false →
      exec (.rdsys r) s = .next (raiseTrap s.turn (trapOf tPrivilege 0 (BitVec.ofNat 64 r.toNat)) s))
  ∧ (∀ n, readPrivileged n = true ↔ 0x010 ≤ n ∧ n ≤ 0x014)

/-- In the mode that may write the register, wrsys stores the writable bits of the value: a later read gives them and
the reserved bits read as zero. A privileged register written in user mode raises PRIVILEGE and nothing of the
bundle is performed. yield ends the quantum of the core and changes nothing else. (R371, R372, R32, R70.) -/
def Obligations.SystemRegisterWrites : Prop :=
  ∀ s t a, AtTurn s t → poisonS t [a] = [] →
  (∀ r : BitVec 10, (writePrivileged r.toNat = false ∨ t.system = true) → writeTraps t r.toNat (readS t a) = [] → (t.spec = false ∨ r.toNat ≠ 0x066) →
    ∃ u, exec (.wrsys a r) s = .next u ∧ u.mem = s.mem ∧ ∃ t', getThread u s.turn = some t' ∧ t'.pc = t.pc + 16 ∧ t'.regs = t.regs ∧ t'.flight = t.flight
      ∧ ∀ m : W64, (r.toNat, m) ∈ [(0x000, (0x1F07 : W64)), (0x001, 0xFFFFFFFF), (0x002, 0xFFFF), (0x010, 0xFFFFFFFFFFFFFFF1),
          (0x012, 0xFFFFFFFFFFFFFFFF), (0x013, 0xFFFFFFFFFFFFFFFF), (0x014, 0xFFFFFFFFFFFFFFF0), (0x015, 0xFFFFFFFF), (0x042, 0xFFFFFFFF),
          (0x043, 0x3FF), (0x045, 0xFFFFFFFF), (0x06A, 0xFFFFF000)] → readSys t' r.toNat = readS t a &&& m)
  ∧ (∀ r : BitVec 10, writePrivileged r.toNat = true → t.system = false → feDone t = false →
      exec (.wrsys a r) s = .next (raiseTrap s.turn (trapOf tPrivilege 0 (BitVec.ofNat 64 r.toNat)) s))
  ∧ exec .yield s = .next (modCore (coreOf s.turn) (fun c => { c with expired := true }) (afterBundle s t))

/-- In user mode with a handler enabled and no result missing, trap saves the queues and the results in flight, pushes
those results in order with their flags, sets TRAPPC to the next bundle, TRAPINFO to SOFTWARE with the code, enters
system mode and goes to TRAPVEC; that the handler finds their flags in FPC is a reading of the model (log entry 82),
and a handle that an xlat in flight fills is written then, once (a choice of the model, log entry 42). In system
mode rft releases each engine whose deferred fault has been observed and restores the saved queues and results,
leaves system mode and goes to TRAPPC; after SOFTWARE the clock is one further. Of the results of the handler in
flight only the handles they fill and the memberships they start or end stay (a choice of the model, log entry 42).
In user mode rft raises PRIVILEGE. (R372, R373, R374, R368, R33.) -/
def Obligations.SoftwareTrapAndReturn : Prop :=
  ∀ s t, AtTurn s t →
  (∀ c : BitVec 8, feDone t = false → t.spec = false → t.system = false → flag t.sys.trapvec.toNat 0 = true → arrived t.flight = true →
    ∃ u t', exec (.trap c) s = .next u ∧ getThread u s.turn = some t' ∧ u.mem = s.mem
      ∧ t'.system = true ∧ t'.pc = t.sys.trapvec &&& 0xFFFFFFFFFFFFFFF0 ∧ t'.hvc = 0 ∧ t'.vc = t.vc ∧ t'.flight = []
      ∧ t'.saved = some { t := t.vc, q := t.regs.q, y := t.regs.y, pending := t.flight.map handleDone }
      ∧ (let w := (sortItems t.flight).foldl (fun v i => writeHandle (pushValue v i) i) t
         t'.handles = w.handles ∧ t'.regs = w.regs ∧ t'.sys.fpc = w.sys.fpc)
      ∧ t'.sys.trappc = (t.pc + 16) &&& 0xFFFFFFFFFFFFFFF0 ∧ t'.sys.trapinfo = BitVec.ofNat 64 (0x19 * 2 ^ 56 + c.toNat * 2 ^ 44)
      ∧ t'.sys.traparg0 = 0 ∧ t'.sys.traparg1 = 0 ∧ t'.regs.n = t.regs.n ∧ t'.regs.v = t.regs.v ∧ t'.regs.m = t.regs.m)
  ∧ (t.system = true → ∀ v, t.saved = some v →
    ∃ u t', exec .rft s = .next u ∧ getThread u s.turn = some t' ∧ u.mem = s.mem
      ∧ t'.system = false ∧ t'.pc = t.sys.trappc ∧ t'.regs.q = v.q ∧ t'.regs.y = v.y ∧ t'.flight = muteItems s s.turn t.flight ++ v.pending ∧ t'.saved = none
      ∧ t'.vc = (if bits t.sys.trapinfo.toNat 56 8 = 0x19 then v.t + 1 else v.t) ∧ t'.regs.n = t.regs.n
      ∧ ∀ e f, (getEngine t e).fault = some f → (getEngine t' e).fault = if f.observed then none else some f)
  ∧ (t.system = false → feDone t = false → exec .rft s = .next (raiseTrap s.turn (trapOf tPrivilege 0) s))

/-- Each records one request at the hub with the thread, its address space and its operands, and a result of latency 12
that the hub will answer. launch and launch.w wait for the store buffer to be empty. join with NEW does not read its
operand. The request of a launch keeps LNCHLIM, which bounds its wait for an entry unless it is 0. (R329, R339,
R340.) -/
def Obligations.HubRequests : Prop :=
  ∀ s t a b, AtTurn s t → poisonS t [a, b] = [] → t.spec = false →
  let asks := fun (i : Instr) (q : HubAsk) => ∃ u, exec i s = .next u ∧ Awaits s u t 1 12 s.fresh 1 ∧ u.mem = s.mem
    ∧ u.hubReqs = s.hubReqs ++ [{ slot := s.turn, tag := s.fresh, who := t.dispatched, ask := q, asid := bits t.sys.asidreg.toNat 0 16, clock := t.clock, sys := t.system, asked := s.cc }]
  let limit := t.sys.lnchlim.toNat
  (∀ lock, asks (.join a true lock) (.join 0 true lock) ∧ asks (.join a false lock) (.join (readS t a) false lock))
  ∧ asks (.leave a) (.leave (readS t a))
  ∧ (storesDone s s.turn = true → asks (.launch a b) (.launch (readS t a) (readS t b) false limit)
      ∧ asks (.launchW a b) (.launch (readS t a) (readS t b) true limit))
  ∧ (storesDone s s.turn = false → exec (.launch a b) s = .next s)

/-- shapepub puts a publication of its extent under way to the hub as a store; shapeq asks the hub, which answers with
the shape word as it then holds it, the result having latency 12 (that the answer comes in a later cc, which one the
spec does not say, is log entry 95); shapew issues at once when the named extent is not open, and otherwise waits
with the deadline of LNCHLIM, after which it issues; its end advances the clock of the thread (log entry 90). A
handle that named a node of another device stands here for the word it was given (R384). A speculative block buffers
a store to the HBM of its package in a line of its own, over what it has buffered there, and memory stays; its load
through a handle carries the bytes that it has buffered; its trap is deferred. In a cc after the resolution of its
node (which cc is log entry 56, DEDUCED) a block below the extent commits, its buffered bytes entering memory,
unless a load that it made before them has still to perform, in which case it is held; a block at or beyond the
extent is squashed: its lines are discarded, its slot is free, and of memory only its scratchpad window changes.
(R361, R363, R384, R73, R316, R353, R354, R355, R356.) -/
def Obligations.ShapeInstructions : Prop :=
  (∀ s t a b, AtTurn s t → poisonS t [a, b] = [] →
  (t.spec = false → bufferRoom s s.turn 1 = true → ∃ u c, exec (.shapepub a b) s = .next u ∧ getThread u s.turn = some (advance t s.cc)
    ∧ look u.accesses s.fresh = some c ∧ c.owner = .thread s.turn ∧ c.op = .shapepub (nameOf t (readS t a)) (bits (readS t b).toNat 0 16)
    ∧ c.buffered = true ∧ c.place = .waiting ∧ u.mem = s.mem)
  ∧ (∃ u, exec (.shapeq a) s = .next u ∧ Awaits s u t 1 12 s.fresh 1 ∧ u.mem = s.mem
      ∧ u.hubReqs = s.hubReqs ++ [{ slot := s.turn, tag := s.fresh, who := t.dispatched, ask := .query (nameOf t (readS t a))
                                    asid := bits t.sys.asidreg.toNat 0 16, clock := t.clock, sys := t.system, asked := s.cc }])
  ∧ (shapeOpen s (nameOf t (readS t a)) = false → exec (.shapew a) s = .next (afterLocal s t))
  ∧ (shapeOpen s (nameOf t (readS t a)) = true → t.sWait = none → exec (.shapew a) s = .next (setThread s s.turn { t with
      sWait := some { kind := .shape, since := s.cc, deadline := if t.sys.lnchlim = 0 then none else some (s.cc + t.sys.lnchlim.toNat) } }))
  ∧ (∀ w, shapeOpen s (nameOf t (readS t a)) = true → t.sWait = some w →
      exec (.shapew a) s = .next (if w.expired then afterLocal s t else s))
  ∧ (∀ w, t.names = [] → nameOf t w = w))
  ∧ (∀ s r w t, s.hubReqs = [r] → r.ask = .query w → r.tag ≠ 0 → getThread s r.slot = some t →
    (s.cc ≤ r.asked → answerQueries s = s)
    ∧ (r.asked < s.cc → r.asked + Config.hubDelay r.tag ≤ s.cc → ∃ t', getThread (answerQueries s) r.slot = some t' ∧ (answerQueries s).hubReqs = []
        ∧ ∀ i ∈ t'.flight, i.tag = r.tag → i.value = some (.scalar (.val (shapeWord s w)))))
  ∧ (∀ s t b h d sz i j, AtTurn s t → poisonS t [b, d] = [] → t.spec = true →
    let off := globalOff t b i sz.bytes
    let x := (handleOf t h).origin + off
    let pa := redirect s (handlePa (handleOf t h) x)
    (handleTraps s t (threadMaster s s.turn) 2 h off sz.bytes sz.bytes rightW permW = [] → specLocal s (handleOf t h) x = true → handlePa (handleOf t h) x % sz.bytes = 0 →
      specRoom s t [pa / 64 * 64] = true →
      ∃ u l, exec (.gst b h d sz i) s = .next u ∧ u.mem = s.mem ∧ u.accesses = s.accesses ∧ getThread u s.turn = some { advance t s.cc with clock := t.clock + 1 }
        ∧ ownLine u t (pa / 64 * 64) = some l ∧ ∀ n, n < 64 → l.bytes.getD n none =
          if pa % 64 ≤ n ∧ n < pa % 64 + sz.bytes then some ((readS t d >>> (8 * (n - pa % 64))).setWidth 8)
          else match ownLine s t (pa / 64 * 64) with | some o => o.bytes.getD n none | none => none)
    ∧ (∀ ld : LoadSize, let off := globalOff t b j ld.bytes
      let y := (handleOf t h).origin + off
      handleTraps s t (threadMaster s s.turn) 2 h off ld.bytes ld.bytes rightR permR = [] → specLocal s (handleOf t h) y = true → handlePa (handleOf t h) y % ld.bytes = 0 →
      loadHits s s.turn t (handleOf t h) y ld.bytes = false → storeWaiting s s.turn = false → respRoom s (.thread s.turn) 1 = true →
      ∃ u c, exec (.gld b h ld j) s = .next u ∧ u.mem = s.mem ∧ look u.accesses (s.fresh + 1) = some c ∧ c.op = .read ld.bytes
        ∧ c.ownBytes = specOver s t (redirect s (handlePa (handleOf t h) y)) ld.bytes)
    ∧ ∀ c : BitVec 8, feDone t = false → exec (.trap c) s = .next (setThread s s.turn { t with
        deferredTrap := some { trapOf tSoftware 0 0 0 c.toNat with spec := true }, wait := none, sWait := none }))
  ∧ ∀ s n k t f, keysRise s.threads = true → getThread s k = some t → t.node = n → t.spec = true → specBlocks s n (fun _ => true) = [t.line] →
    (f ≤ t.line → let u := settleNode n f s
      getThread u k = none ∧ (∀ l ∈ u.specLines, l.isOf n t.line = false)
      ∧ (s.mem.wf = true → ∀ a, a < scratchPa s (coreOf k) (scrBase t.sys.scrwin) ∨ scratchPa s (coreOf k) (scrEnd t.sys.scrwin) ≤ a → u.mem.read a = s.mem.read a))
    ∧ (t.line < f → earlierLoads s n t.line = true → settleNode n f s = holdBlocks n s)
    ∧ (t.line < f → earlierLoads s n t.line = false → t.life = .running → t.deferredTrap = none → (∀ l ∈ s.specLines, isReg l.pa = false) →
      ∃ t', getThread (settleNode n f s) k = some t' ∧ t'.spec = false ∧ t'.regs = t.regs ∧ t'.pc = t.pc ∧ (∀ l ∈ (settleNode n f s).specLines, l.isOf n t.line = false)
        ∧ (settleNode n f s).mem = (s.specLines.filter fun l => l.isOf n t.line).foldl (fun m l => m.storeMasked l.pa l.bytes) s.mem)

/-- Each floating-point V operation computes element by element in its type and the mode in force on the active lanes,
pushes 0 in the others and ORs the flags of active lanes; vabs and vneg act on the sign bit and turn a NaN into the
canonical NaN. vrcp, vrsq, vsqrt, vexp2 and vlog2 apply their function with latency 8. (R229, R231, R232, R240.) -/
def Obligations.VectorFloat : Prop :=
  ∀ s t a b c m ty r, AtTurn s t → poisonV t [a, b, c] = [] →
  let f := vFmt ty
  let rm := modeInForce t.sys.fpc r
  let three := fun (i : Instr) (g : Nat → Nat → Nat → Nat × FpFlags) => LaneResult s t i 4 m fun l => laneElems ty fun j =>
    g (elemAt ty (lane (readVec t a) l) j) (elemAt ty (lane (readVec t b) l) j) (elemAt ty (lane (readVec t c) l) j)
  let sign := fun (x : Nat) (v : Nat) => if (f.decode x).isNan then (f.nanBits, ({ nv := (f.decode x).isSnan } : FpFlags)) else (v, .none)
  ElemResult s t (.vadd a b m ty r) 3 m ty a b (fpAdd f rm) ∧ ElemResult s t (.vsub a b m ty r) 3 m ty a b (fpSub f rm)
  ∧ ElemResult s t (.vmul a b m ty r) 4 m ty a b (fpMul f rm)
  ∧ three (.vfma a b c m ty r) (fpFma f rm) ∧ three (.vfms a b c m ty r) (fpFms f rm) ∧ three (.vfnma a b c m ty r) (fpFnma f rm)
  ∧ ElemResult s t (.vmin a b m ty) 3 m ty a b (minMaxNum f false) ∧ ElemResult s t (.vmax a b m ty) 3 m ty a b (minMaxNum f true)
  ∧ ElemResult s t (.vabs a m ty) 3 m ty a a (fun x _ => sign x (if flag x (f.width - 1) then x - f.signBit else x))
  ∧ ElemResult s t (.vneg a m ty) 3 m ty a a (fun x _ => sign x (if flag x (f.width - 1) then x - f.signBit else x + f.signBit))
  ∧ ElemResult s t (.vrcp a m ty r) 8 m ty a a (fun x _ => fpElem .rcp f rm x) ∧ ElemResult s t (.vrsq a m ty r) 8 m ty a a (fun x _ => fpElem .rsq f rm x)
  ∧ ElemResult s t (.vsqrt a m ty r) 8 m ty a a (fun x _ => fpElem .sqrt f rm x)
  ∧ ElemResult s t (.vexp2 a m ty r) 8 m ty a a (fun x _ => fpElem .exp2 f rm x) ∧ ElemResult s t (.vlog2 a m ty r) 8 m ty a a (fun x _ => fpElem .log2 f rm x)

/-- The integer V operations act element by element modulo the element width, signed or unsigned as their field says,
shifts by the amount modulo the width; inactive lanes are 0 and no flag rises. (R229, R233.) -/
def Obligations.VectorInteger : Prop :=
  ∀ s t a b m ty, AtTurn s t → poisonV t [a, b] = [] →
  IntElems s t (.viadd a b m ty) 3 m ty a b (fun _ x y => x + y) ∧ IntElems s t (.visub a b m ty) 3 m ty a b (fun _ x y => x - y)
  ∧ IntElems s t (.vimul a b m ty) 4 m ty a b (fun _ x y => x * y)
  ∧ IntElems s t (.vimulh a b m ty false) 4 m ty a b (fun n x y => BitVec.ofInt n (x.toInt * y.toInt / 2 ^ n))
  ∧ IntElems s t (.vimulh a b m ty true) 4 m ty a b (fun n x y => BitVec.ofNat n (x.toNat * y.toNat / 2 ^ n))
  ∧ IntElems s t (.viand a b m ty) 3 m ty a b (fun _ x y => x &&& y) ∧ IntElems s t (.vior a b m ty) 3 m ty a b (fun _ x y => x ||| y)
  ∧ IntElems s t (.vixor a b m ty) 3 m ty a b (fun _ x y => x ^^^ y)
  ∧ IntElems s t (.vishl a b m ty) 3 m ty a b (fun n x y => x <<< (y.toNat % n))
  ∧ IntElems s t (.vishr a b m ty) 3 m ty a b (fun n x y => x >>> (y.toNat % n))
  ∧ IntElems s t (.visar a b m ty) 3 m ty a b (fun n x y => x.sshiftRight (y.toNat % n))
  ∧ IntElems s t (.vimin a b m ty false) 3 m ty a b (fun _ x y => if x.sle y then x else y)
  ∧ IntElems s t (.vimin a b m ty true) 3 m ty a b (fun _ x y => if x ≤ y then x else y)
  ∧ IntElems s t (.vimax a b m ty false) 3 m ty a b (fun _ x y => if x.sle y then y else x)
  ∧ IntElems s t (.vimax a b m ty true) 3 m ty a b (fun _ x y => if x ≤ y then y else x)

/-- vcmp fills an element with ones where its condition holds and zeros where it does not; vsel takes a where the mask
holds and b elsewhere; mand, mor, mxor and mnot push masks as lanes of ones and zeros; mpop counts and mfirst finds
the first set bit, 96 when there is none. (R234, R235, R236, R213.) -/
def Obligations.VectorComparesAndMasks : Prop :=
  ∀ s t a b u k m ty x y, AtTurn s t → poisonV t [a, b] = [] →
  let p := readMask t x
  let q := readMask t y
  let w := readMask t m
  let ones := fun (v : Bool) => if v then BitVec.allOnes 32 else 0
  ElemResult s t (.vcmp a b u k m ty) 3 m ty a b (fun e g =>
    let c : Bool × FpFlags := if ty.isInt then (intCond ty.width u k e g, .none) else fpCond (vFmt ty) k e g
    (if c.1 then 2 ^ ty.width - 1 else 0, c.2))
  ∧ VectorOut s t (.vsel a b m ty) 3 (fun l => if w.getLsbD l then (readVec t a).getD l 0 else (readVec t b).getD l 0)
  ∧ VectorOut s t (.mand x y m) 1 (fun l => ones (p.getLsbD l && q.getLsbD l && w.getLsbD l))
  ∧ VectorOut s t (.mor x y m) 1 (fun l => ones ((p.getLsbD l || q.getLsbD l) && w.getLsbD l))
  ∧ VectorOut s t (.mxor x y m) 1 (fun l => ones ((p.getLsbD l ^^ q.getLsbD l) && w.getLsbD l))
  ∧ VectorOut s t (.mnot x m) 1 (fun l => ones (!p.getLsbD l && w.getLsbD l))
  ∧ exec (.mpop x m) s = .next (pushes s t 2 3 (.scalar (.val (BitVec.ofNat 64
      ((List.range 96).filter fun l => p.getLsbD l && w.getLsbD l).length))) .none)
  ∧ exec (.mfirst x m) s = .next (pushes s t 2 3 (.scalar (.val (BitVec.ofNat 64
      (((List.range 96).find? fun l => p.getLsbD l && w.getLsbD l).getD 96)))) .none)

/-- vcvt pushes, on the active lanes, the conversion of the lane in the mode in force, and 0 on the others; vcvts the
stochastic conversion with the LFSR of the lane, which steps once for each element converted, the LFSRs of inactive
lanes staying; vqnt4 pushes the 64 bytes of the block that the active lanes of a, the others taken as zeros, give
with the scale in lane 0 of b, in lanes 0 to 15, and 0 above; vdq4 decodes a block of a valid format and multiplies
its elements by lane 0 of b on the active lanes (with NV also for a NaN element under a signalling NaN: log entry
107, DESIGN CHOICE), and raises FORMAT with the code found on another. Nothing else changes. (R237, R36, R46, R238,
R239, R42.) -/
def Obligations.VectorConversions : Prop :=
  ∀ s t a b g m sty r p q n, AtTurn s t → poisonV t [a, b] = [] →
  let ovf := fpcOvf8 t.sys.fpc
  let on := maskBit (readMask t m)
  let x := fun (l : Nat) => lane (readVec t a) l
  let st := fun (l : Nat) => convLane (x l) sty g p.toNat .rne true ovf (t.lfsr.getD l 0)
  let block := quantise4 ((List.range 96).map fun l => if on l then x l else 0) (lane (readVec t b) 0) q.toNat (if n then 0x4A else 0x4B)
  LaneResult s t (.vcvt a g m sty r p) 3 m (fun l => (convLane (x l) sty g p.toNat (modeInForce t.sys.fpc r) false ovf 0).1)
  ∧ exec (.vcvts a g m sty p) s = .next (afterWith s t fun u => { u with
      lfsr := (List.range 96).map fun l => if on l then (st l).2 else t.lfsr.getD l 0
      flight := t.flight ++ [itemOf t 2 3 (.vector (.val ((List.range 96).map fun l => if on l then BitVec.ofNat 32 (st l).1.1 else 0)))
        (orAll ((List.range 96).map fun l => if on l then (st l).1.2 else .none))] })
  ∧ (∀ l : Nat, (st l).2 = (List.range (min sty.perLane g.perLane)).foldl (fun v _ => lfsrNext v) (t.lfsr.getD l 0))
  ∧ exec (.vqnt4 a b q m n) s = .next (pushesV s t 8
      ((List.range 96).map fun l => if l < 16 then BitVec.ofNat 32 (leNat ((block.1.drop (4 * l)).take 4)) else 0) block.2)
  ∧ block.1.length = 64
  ∧ (∀ vs, decodeBlock (blockOfLanes (readVec t a)) = some vs → LaneResult s t (.vdq4 a b m r) 8 m (fun l =>
      dq4Lane (vs.getD l (.zero false)) (Fmt.f32.decode (lane (readVec t b) 0)) (modeInForce t.sys.fpc r)))
  ∧ (decodeBlock (blockOfLanes (readVec t a)) = none → feDone t = false →
      exec (.vdq4 a b m r) s = .next (raiseTrap s.turn (trapOf tFormat 1 0 (BitVec.ofNat 64 (byteAt (blockOfLanes (readVec t a)) 0))) s))

/-- vperm takes the lane of a that b names and 0 when it is not below 96; vrot rotates by lane 0 of b modulo 96; vbcast,
vext and vins act at the first active lane; viota counts the active lanes below from lane 0 of a. (R241, R212.) -/
def Obligations.VectorMoves : Prop :=
  ∀ s t a b m ty, AtTurn s t → poisonV t [a, b] = [] →
  let x := readVec t a
  let y := readVec t b
  let w := readMask t m
  let first := (List.range 96).find? fun l => w.getLsbD l
  VectorOut s t (.vperm a b m ty) 4 (fun l => if w.getLsbD l ∧ (y.getD l 0).toNat < 96 then x.getD (y.getD l 0).toNat 0 else 0)
  ∧ VectorOut s t (.vrot a b m ty) 4 (fun l => if w.getLsbD l then x.getD ((l + (y.getD 0 0).toNat % 96) % 96) 0 else 0)
  ∧ VectorOut s t (.vbcast a m ty) 3 (fun _ => match first with | some f => x.getD f 0 | none => 0)
  ∧ exec (.vext a m ty) s = .next (pushes s t 2 3 (.scalar (.val (match first with | some f => (x.getD f 0).zeroExtend 64 | none => 0))) .none)
  ∧ VectorOut s t (.vins a b m ty) 3 (fun l => if first = some l then y.getD 0 0 else x.getD l 0)
  ∧ VectorOut s t (.viota a m) 3 (fun l => if w.getLsbD l
      then x.getD 0 0 + BitVec.ofNat 32 ((List.range l).filter fun j => w.getLsbD j).length else 0)

/-- A reduction pushes into every lane the root of the fixed tree over the 96 lanes, an inactive lane entering as the
identity: for f32 the rounded sum in the mode in force with -0, MaxNum with -infinity and MinNum with +infinity, for
i32 the sum modulo 2^32 with 0 and the signed or unsigned greatest and least with the end of their range; the flags
of every node are ORed. vredadd over i32 is so the sum modulo 2^32 of the active lanes. vscan pushes the prefix sums
in the fixed order of seven steps, the left operand from the lower lane, with 0 in the inactive lanes; over i32 each
active lane gets the sum modulo 2^32 of the active lanes up to it. Nothing else changes. (R242, R243.) -/
def Obligations.VectorReductions : Prop :=
  ∀ s t a m r u, AtTurn s t → poisonV t [a] = [] →
  let w := readMask t m
  let part := fun (n : Nat) => BitVec.ofNat 32 (((List.range n).map fun l => if w.getLsbD l then (lane (readVec t a) l) else 0).foldl (· + ·) 0)
  let x := fun (e : Nat) (l : Nat) => if w.getLsbD l then lane (readVec t a) l else e
  let tree := fun (i : Instr) (e : Nat) (g : Nat → Nat → Nat × FpFlags) =>
    exec i s = .next (pushesV s t 6 (List.replicate 96 (BitVec.ofNat 32 (treeResult g (x e)).1)) (treeResult g (x e)).2)
  let scan := fun (i : Instr) (e : Nat) (g : Nat → Nat → Nat × FpFlags) =>
    exec i s = .next (pushesV s t 8 ((List.range 96).map fun l => if w.getLsbD l then BitVec.ofNat 32 (scanNode g (x e) 7 l) else 0) (scanFlags g (x e)))
  let add := fpAdd .f32 (modeInForce t.sys.fpc r)
  let sum := fun (p q : Nat) => ((p + q) % 2 ^ 32, FpFlags.none)
  let pick := fun (b : (BitVec 32 → BitVec 32 → Bool)) (p q : Nat) => (if b (BitVec.ofNat 32 p) (BitVec.ofNat 32 q) then p else q, FpFlags.none)
  tree (.vredadd a m .f32 r) 0x80000000 add ∧ tree (.vredadd a m .i32 r) 0 sum
  ∧ tree (.vredmax a m .f32 u) 0xFF800000 (minMaxNum .f32 true) ∧ tree (.vredmin a m .f32 u) 0x7F800000 (minMaxNum .f32 false)
  ∧ tree (.vredmax a m .i32 false) 0x80000000 (pick fun p q => !p.sle q) ∧ tree (.vredmin a m .i32 false) 0x7FFFFFFF (pick fun p q => p.sle q)
  ∧ tree (.vredmax a m .i32 true) 0 (pick fun p q => !p.ule q) ∧ tree (.vredmin a m .i32 true) 0xFFFFFFFF (pick fun p q => p.ule q)
  ∧ scan (.vscan a m .f32 r) 0x80000000 add ∧ scan (.vscan a m .i32 r) 0 sum
  ∧ exec (.vredadd a m .i32 r) s = .next (pushesV s t 6 (List.replicate 96 (part 96)) .none)
  ∧ exec (.vscan a m .i32 r) s = .next (pushesV s t 8 ((List.range 96).map fun l => if w.getLsbD l then part (l + 1) else 0) .none)

/-- ld pushes the little-endian bytes at its address, sign- or zero-extended; vld the 96 lanes under m7 with 0 in the
others; vlds a lane from each strided address that is active. Latency is 5; the clock of the thread advances by one
(a choice of the model, log entry 90) and nothing else changes. A line with an uncorrectable error poisons the
result. While the port is taken or an earlier device access of the thread is unperformed, the bundle is held (log
entry 89). (R196, R197, R58, R59, R376.) -/
def Obligations.ScratchpadLoads : Prop :=
  ∀ s t b, AtTurn s t → poisonS t [b] = [] →
  (∀ sz i, let x := effAddr t b i sz.bytes; ScratchOk t x sz.bytes →
    let v := BitVec.ofNat (8 * sz.bytes) (leNat (s.mem.bytes (ownPa s s.turn x) sz.bytes))
    (LocalFree s → exec (.ld b sz i) s = .next (pushesLocal s t (.scalar (loaded s x sz.bytes (if sz.signed then v.signExtend 64 else v.setWidth 64)))))
    ∧ (localHeld s s.turn = true → exec (.ld b sz i) s = .next s))
  ∧ (∀ i, let x := effAddr t b i 64; ScratchOk t x 384 → LocalFree s →
    exec (.vld b i) s = .next (pushesLocal s t (.vector (loaded s x 384 ((List.range 96).map fun l =>
      if maskBit (readMask t 7) l then BitVec.ofNat 32 (leNat (s.mem.bytes (ownPa s s.turn x + 4 * l) 4)) else 0)))))
  ∧ (∀ c, poisonS t [c] = [] → let as := laneAddrs t (strideAddr t b c)
    (∀ p ∈ as, ScratchOk t p.2 4) → (∀ k, k < 16 → bankLoad as k ≤ 8) → LocalFree s →
    ((∀ p ∈ as, LineGood s p.2 4) → exec (.vlds b c) s = .next (pushesLocal s t (.vector (.val ((List.range 96).map fun l =>
      if maskBit (readMask t 7) l then BitVec.ofNat 32 (leNat (s.mem.bytes (ownPa s s.turn (readS t b + BitVec.ofNat 64 l * readS t c)) 4)) else 0)))))
    ∧ ((∃ p ∈ as, ¬ LineGood s p.2 4) → ∃ tr, tr.code = tMemUncorrectable ∧ exec (.vlds b c) s = .next (pushesLocal s t (.vector (.poison tr)))))

/-- st stores the low bytes of its data at its address, vst the lanes that m7 selects and vsts each lane that m7 selects
at its strided address, in ascending order of the lanes. The thread advances, its clock by one too (a choice of the
model, log entry 90), nothing is pushed and nothing else changes. A stored byte reads as stored and every other byte
reads as before; of lanes stored to one word the highest stands. (R196, R197, R198, R59.) -/
def Obligations.ScratchpadStores : Prop :=
  ∀ s t b, AtTurn s t → poisonS t [b] = [] → LocalFree s →
  let pa := ownPa s s.turn
  let goes := fun (e : Instr) (m : Memory) => exec e s = .next { afterLocal s t with mem := m }
  (∀ sz d i, poisonS t [d] = [] → let x := effAddr t b i sz.bytes; ScratchOk t x sz.bytes →
    goes (.st b sz d i) (s.mem.store (pa x) (leBytes sz.bytes (readS t d).toNat))
    ∧ (s.mem.wf = true → ∀ u, exec (.st b sz d i) s = .next u → SameOutside s u (pa x) sz.bytes
      ∧ ∀ j, j < sz.bytes → u.mem.read (pa x + j) = (readS t d >>> (8 * j)).setWidth 8))
  ∧ (∀ d i, poisonV t [d] = [] → let x := effAddr t b i 64; ScratchOk t x 384 →
    goes (.vst b d i) (s.mem.storeMasked (pa x) (maskStore (readMask t 7) (readVec t d)))
    ∧ (s.mem.wf = true → ∀ u, exec (.vst b d i) s = .next u → SameOutside s u (pa x) 384
      ∧ ∀ l j, l < 96 → j < 4 → u.mem.read (pa x + 4 * l + j) =
          if maskBit (readMask t 7) l then (((readVec t d).getD l 0) >>> (8 * j)).setWidth 8 else s.mem.read (pa x + 4 * l + j)))
  ∧ (∀ c d, poisonS t [c] = [] → poisonV t [d] = [] → let as := laneAddrs t (strideAddr t b c)
    (∀ p ∈ as, ScratchOk t p.2 4) → (∀ k, k < 16 → bankLoad as k ≤ 8) →
    goes (.vsts b c d) (as.foldl (fun m p => m.store (pa p.2) (leBytes 4 ((readVec t d).getD p.1 0).toNat)) s.mem)
    ∧ (∀ p, p ∈ as ↔ p.1 < 96 ∧ maskBit (readMask t 7) p.1 = true ∧ p.2 = readS t b + BitVec.ofNat 64 p.1 * readS t c)
    ∧ (s.mem.wf = true → ∀ u, exec (.vsts b c d) s = .next u →
      (∀ a, (∀ p ∈ as, a < pa p.2 ∨ pa p.2 + 4 ≤ a) → u.mem.read a = s.mem.read a)
      ∧ ∀ p ∈ as, (∀ q ∈ as, p.1 < q.1 → q.2 ≠ p.2) → ∀ j, j < 4 →
          u.mem.read (pa p.2 + j) = (((readVec t d).getD p.1 0) >>> (8 * j)).setWidth 8))

/-- A load or store at an address that is not a multiple of its size raises ALIGN with the address; an aligned one at or
above 2^20 or outside the window raises SCRATCH_BOUND with it. The same holds of vld and vst, whose alignment is 64.
(R196, R366.) -/
def Obligations.ScratchpadChecks : Prop :=
  ∀ s t b, AtTurn s t → poisonS t [b] = [] → feDone t = false →
  let traps := fun (i : Instr) (x : W64) (n : Nat) =>
    (x.toNat % min n 64 ≠ 0 → exec i s = .next (raiseTrap s.turn (trapOf tAlign 2 x) s))
    ∧ (x.toNat % min n 64 = 0 → (2 ^ 20 ≤ x.toNat ∨ inScr t.sys.scrwin x.toNat n = false) →
        exec i s = .next (raiseTrap s.turn (trapOf tScratchBound 2 x) s))
  (∀ sz i, traps (.ld b sz i) (effAddr t b i sz.bytes) sz.bytes) ∧ (∀ i, traps (.vld b i) (effAddr t b i 64) 384)
  ∧ (∀ sz d i, poisonS t [d] = [] → traps (.st b sz d i) (effAddr t b i sz.bytes) sz.bytes)
  ∧ (∀ d i, poisonV t [d] = [] → traps (.vst b d i) (effAddr t b i 64) 384)

/-- When no bank holds more than 8 active lanes, one pass does all: vgath has in flight, with latency 13, the vector of
the active lanes read at their addresses and 0 in the others, poisoned when a line read has an uncorrectable error,
and vscat stores the active lanes in ascending order. With more, the first pass serves up to 8 lanes of each bank at
issue and the others are left to the next passes, the result of vgath being late. Both advance the thread, and its
clock by one (a choice of the model, log entry 90); a gather changes no memory and a scatter no byte outside the
words of its active lanes. (R74, R198, R197.) -/
def Obligations.GathersAndScatters : Prop :=
  ∀ s t a b, AtTurn s t → poisonS t [a] = [] → poisonV t [b] = [] → LocalFree s →
  let pa := ownPa s s.turn
  let as := laneAddrs t (gatherAddr t a b)
  let one := ∀ k, k < 16 → bankLoad as k ≤ 8
  let kept := fun (i : Item) => i.tag ≠ s.fresh
  let item : Item := { due := clockOf t + 12, issued := clockOf t, rank := 0, tag := s.fresh, form := .vector 0, need := 1, notBefore := s.cc + 12 }
  let lanes : Vec := (List.range 96).map fun l => if maskBit (readMask t 7) l
    then BitVec.ofNat 32 (leNat (s.mem.bytes (pa (readS t a + ((readVec t b).getD l 0).zeroExtend 64)) 4)) else 0
  (∀ p ∈ as, ScratchOk t p.2 4) →
  (0 < s.fresh → (∀ i ∈ t.flight, kept i) → (∀ v, t.saved = some v → ∀ i ∈ v.pending, kept i) →
    (one → (∀ p ∈ as, LineGood s p.2 4) → exec (.vgath a b) s = .next { afterWith s t fun u => { u with
        clock := t.clock + 1, flight := t.flight ++ [{ item with value := some (.vector (.val lanes)) }], gather := none } with fresh := s.fresh + 1 })
    ∧ (one → (∃ p ∈ as, ¬ LineGood s p.2 4) → ∃ tr, tr.code = tMemUncorrectable ∧ exec (.vgath a b) s = .next { afterWith s t fun u => { u with
        clock := t.clock + 1, flight := t.flight ++ [{ item with value := some (.vector (.poison tr)) }], gather := none } with fresh := s.fresh + 1 })
    ∧ (¬ one → (∀ p ∈ as, LineGood s p.2 4) → exec (.vgath a b) s = .next { afterWith s t fun u => { u with
        clock := t.clock + 1
        flight := t.flight ++ [{ item with notBefore := s.cc + 12 + (passCount as - 1), late := true }]
        gather := some { tag := s.fresh, store := false, left := (splitPass (as.map fun p => (p.1, p.2.toNat, 0)) fun _ => 0).2, last := s.cc
                         got := (splitPass (as.map fun p => (p.1, p.2.toNat, 0)) fun _ => 0).1.map fun p =>
                           (p.1, BitVec.ofNat 32 (leNat (s.mem.bytes (scratchPa s (coreOf s.turn) p.2.1) 4))) } } with fresh := s.fresh + 1 }))
  ∧ (∀ c, poisonV t [c] = [] →
    let data := fun (l : Nat) => leBytes 4 ((readVec t c).getD l 0).toNat
    let cut := splitPass (as.map fun p => (p.1, p.2.toNat, (readVec t c).getD p.1 0)) fun _ => 0
    (one → exec (.vscat a b c) s = .next { afterWith s t fun u => { u with clock := t.clock + 1, gather := none } with
        mem := as.foldl (fun m p => m.store (pa p.2) (data p.1)) s.mem })
    ∧ (¬ one → exec (.vscat a b c) s = .next { afterWith s t fun u => { u with
        clock := t.clock + 1, gather := some { tag := 0, store := true, left := cut.2, got := [], last := s.cc } } with
        mem := cut.1.foldl (fun m p => m.store (scratchPa s (coreOf s.turn) p.2.1) (leBytes 4 p.2.2.toNat)) s.mem })
    ∧ (s.mem.wf = true → ∀ u, exec (.vscat a b c) s = .next u →
        ∀ x, (∀ p ∈ as, x < pa p.2 ∨ pa p.2 + 4 ≤ x) → u.mem.read x = s.mem.read x))

/-- On an own word whose condition holds: ldwf and ldwfe push a full word and ldwfe empties it; stwe fills an empty word
with its data; stf fills it whatever it was; feset and feclr set and clear the full bit; fetest pushes it. Nothing
else changes but the clock of the thread (a choice of the model, log entry 90). While the port is taken or an
earlier device access of the thread is unperformed, the bundle of a form on an own word is held (a choice of the
model, log entry 89). A form whose condition fails joins the waiters of its word and its bundle does not issue; on a
word of another core it sends one access and waits for the answer. Once the wait is answered the bundle issues with
the value answered; at its deadline it raises FE_TIMEOUT with the address; until then it is held. (R199, R200, R201,
R202, R189.) -/
def Obligations.FullEmptyForms : Prop :=
  ∀ s t b d i j, AtTurn s t → poisonS t [b, d] = [] → t.chains = [] →
  let pa := ownPa s s.turn
  let bit := fun (x : W64) (f : Bool) (u : State) => { u with
    full := if f then addSet u.full (pa x / 8) else delSet u.full (pa x / 8)
    woken := if isFull s (pa x) = f then u.woken else put u.woken (pa x / 8) s.cc : State }
  let pushed := fun (x w : W64) => pushesLocal s t (.scalar (loaded s x 8 w))
  let forms : List (FeKind × Instr × W64 × W64) :=
    [(.ldwf, .ldwf b i, effAddr t b i 8, 0), (.ldwfe, .ldwfe b i, effAddr t b i 8, 0), (.stwe, .stwe b d j, effAddr t b j 8, readS t d),
     (.stf, .stf b d j, effAddr t b j 8, readS t d), (.feset, .feset b i, effAddr t b i 8, 0), (.feclr, .feclr b i, effAddr t b i 8, 0),
     (.fetest, .fetest b i, effAddr t b i 8, 0)]
  (t.wait = none → LocalFree s →
    (let x := effAddr t b i 8; ScratchOk t x 8 →
      let old := BitVec.ofNat 64 (leNat (s.mem.bytes (pa x) 8))
      (isFull s (pa x) = true → exec (.ldwf b i) s = .next (pushed x old) ∧ exec (.ldwfe b i) s = .next (bit x false (pushed x old)))
      ∧ exec (.feset b i) s = .next (bit x true (afterLocal s t)) ∧ exec (.feclr b i) s = .next (bit x false (afterLocal s t))
      ∧ exec (.fetest b i) s = .next (pushed x (truth (isFull s (pa x)))))
    ∧ (let x := effAddr t b j 8; ScratchOk t x 8 →
      let stored := bit x true { afterLocal s t with mem := s.mem.store (pa x) (leBytes 8 (readS t d).toNat) }
      exec (.stf b d j) s = .next stored ∧ (isFull s (pa x) = false → exec (.stwe b d j) s = .next stored)))
  ∧ (∀ f ∈ forms, let k := f.1; let e := f.2.1; let x := f.2.2.1; let v := f.2.2.2
    (t.wait = none → ScratchOk t x 8 →
      (localHeld s s.turn = true → exec e s = .next s)
      ∧ (LocalFree s → (k = .ldwf ∨ k = .ldwfe) ∧ isFull s (pa x) = false ∨ k = .stwe ∧ isFull s (pa x) = true →
          exec e s = .next { waiting s t { kind := .fe, deadline := feDeadline s t, since := s.cc } with
            waiters := put s.waiters (pa x / 8) ((look s.waiters (pa x / 8)).getD [] ++ [.thread s.turn k v (feDeadline s t)]) }))
    ∧ (t.wait = none → feRemote x = true → x.toNat % 8 = 0 → bits x.toNat 20 8 ≤ 191 →
        refuse s (threadMaster s s.turn) (feRemotePa s x) 8 (feRight k) = none → t.spec = false → storeWaiting s s.turn = false →
        respRoom s (.thread s.turn) 1 = true →
        ∃ u c, exec e s = .next u ∧ u.mem = s.mem ∧ getThread u s.turn = some { t with wait := some { kind := .fe, deadline := none, since := s.cc } }
          ∧ look u.accesses s.fresh = some c ∧ c.owner = .thread s.turn ∧ c.op = .fe k v ∧ c.performed = false ∧ c.answer = none
          ∧ c.pa = redirect s (scratchPa s (bits x.toNat 20 8) (bits x.toNat 0 20)))
    ∧ (∀ w, t.wait = some w → w.kind = .fe → x.toNat < 2 ^ 20 ∧ ScratchOk t x 8 ∨ feRemote x = true →
      (w.answered = true → exec e s = .next (if k = .ldwf ∨ k = .ldwfe ∨ k = .fetest
          then pushes s t 0 5 (.scalar (match w.bad with | some tr => .poison tr | none => .val w.value)) .none else afterBundle s t))
      ∧ (w.answered = false → w.expired = false → exec e s = .next s)
      ∧ (w.answered = false → w.expired = true → exec e s = .next (raiseTrap s.turn (trapOf tFeTimeout 2 x) s))))

/-- xlat of an address that the TLB holds puts in flight, with latency 8, the word of the handle it makes, VALID or
FAULTED, and the handle is written with the push; a non-canonical address makes a handle FAULTED with cause 2, one
of the system half in user mode with cause 3; one that the TLB does not hold starts a walk, whose end makes the late
result. With no permissions asked the lookup is made again for the origin and the permissions of the handle; of an
EMPTY handle its word is pushed. hdrop empties a handle; hchk pushes the bytes left in the page and 0 outside it,
hinfo the handle word. Nothing else changes. (R92, R94, R95, R96.) -/
def Obligations.HandleInstructions : Prop :=
  ∀ s t a h, AtTurn s t →
  let h0 := handleOf t h
  let gives := fun (p : BitVec 3) (v : Handle) => exec (.xlat a h p) s = .next (afterWith s t fun u =>
      { u with flight := t.flight ++ [{ itemOf t 0 8 (.scalar (.val (handleWord v))) .none with post := .handle h v }] })
  let looks := fun (p : BitVec 3) (va : W64) (req : Nat) =>
    (canonical va = false → gives p { state := .faulted, origin := va, req := req, cause := 2 })
    ∧ (canonical va = true → systemHalf va = true → t.system = false → gives p { state := .faulted, origin := va, req := req, cause := 3 })
    ∧ (canonical va = true → systemHalf va = false ∨ t.system = true →
      (∀ w l, tlbLookup s s.turn (spaceOf t va) va = some (w, l) →
        (flag w.toNat 6 = true → t.system = false →
          gives p { state := .faulted, origin := va, req := req, cause := 3, level := l, asid := spaceOf t va })
        ∧ (flag w.toNat 6 = false ∨ t.system = true →
          gives p { state := .valid, origin := va, req := req, size := leafSize l, base := va.toNat / (leafSize l).bytes * (leafSize l).bytes
                    frame := bits w.toNat 16 40 * 2 ^ 16, host := decide (bits w.toNat 62 2 = 1), asid := spaceOf t va
                    grant := req &&& ((if flag w.toNat 5 then 4 else 0) + (if flag w.toNat 3 then 2 else 0) + (if flag w.toNat 2 then 1 else 0)) }))
      ∧ (tlbLookup s s.turn (spaceOf t va) va = none →
        exec (.xlat a h p) s = .next { afterWith s t fun u => { u with flight := t.flight ++ [
            { due := clockOf t + 7, issued := clockOf t, rank := 0, tag := s.fresh, form := .walk h va req, need := 1 }] } with
          walks := s.walks ++ [{ slot := s.turn, tag := s.fresh, asid := spaceOf t va, va := va, fetch := false, tile := tileOf s.turn }]
          fresh := s.fresh + 1 }))
  (poisonS t [a] = [] → ∀ p : BitVec 3, p ≠ 0 → looks p (readS t a) p.toNat)
  ∧ (h0.state ≠ .empty → looks 0 h0.origin h0.req)
  ∧ (h0.state = .empty → exec (.xlat a h 0) s = .next (afterWith s t fun u =>
      { u with flight := t.flight ++ [{ itemOf t 0 8 (.scalar (.val 0)) .none with post := .word h }] }))
  ∧ exec (.hdrop h) s = .next (afterWith s t fun u => { u with handles := t.handles.set h.val {} })
  ∧ (poisonS t [a] = [] →
    let x := (h0.origin + readS t a).toNat
    exec (.hchk a h) s = .next (pushesA s t 1 (if h0.state = .valid ∧ h0.base ≤ x ∧ x < h0.base + h0.size.bytes
      then BitVec.ofNat 64 (h0.base + h0.size.bytes - x) else 0)))
  ∧ exec (.hinfo h) s = .next (pushesA s t 1 (handleWord h0))

/-- When the checks of the handle pass, the line is not in L1 and there is room, gld and gvld put one read for each line
under way and one late result of latency 12 in flight; memory does not change. (R97, R103, R204.) -/
def Obligations.GlobalLoads : Prop :=
  ∀ s t b h, AtTurn s t → poisonS t [b] = [] → t.spec = false → storeWaiting s s.turn = false →
  let reads := fun (i : Instr) (off : W64) (n align : Nat) =>
    let x := (handleOf t h).origin + off
    let ps := linePieces (handlePa (handleOf t h) x) n
    handleTraps s t (threadMaster s s.turn) 2 h off n align rightR permR = [] → loadHits s s.turn t (handleOf t h) x n = false →
    respRoom s (.thread s.turn) ps.length = true →
    ∃ u, exec i s = .next u ∧ u.mem = s.mem ∧ u.hostMem = s.hostMem ∧ Awaits s u t 0 12 s.fresh ps.length
      ∧ ∀ j p, ps[j]? = some p → UnderWay u (s.fresh + 1 + j) s.turn (.read p.2)
          (if (handleOf t h).host then p.1 else redirect s p.1) s.fresh false
  (∀ sz i, reads (.gld b h sz i) (globalOff t b i sz.bytes) sz.bytes sz.bytes)
  ∧ (∀ i, reads (.gvld b h i) (globalOff t b i 64) 384 64)

/-- When the checks pass and the store buffer has room, gst and gvst put one buffered write for each line under way,
which waits to be injected; memory does not change at issue, and nothing is pushed. Without room the bundle is held.
(R97, R204, R205, R197.) -/
def Obligations.GlobalStores : Prop :=
  ∀ s t b h, AtTurn s t → poisonS t [b] = [] → t.spec = false →
  let writes := fun (i : Instr) (off : W64) (n align : Nat) (data : List (Option Byte)) =>
    let x := (handleOf t h).origin + off
    let pa := handlePa (handleOf t h) x
    let ps := linePieces pa n
    handleTraps s t (threadMaster s s.turn) 2 h off n align rightW permW = [] →
    (bufferRoom s s.turn ps.length = true →
      ∃ u, exec i s = .next u ∧ u.mem = s.mem ∧ u.hostMem = s.hostMem ∧ getThread u s.turn = some (advance t s.cc)
        ∧ ∀ j p, ps[j]? = some p → UnderWay u (s.fresh + j) s.turn (.write ((data.drop (p.1 - pa)).take p.2))
            (if (handleOf t h).host then p.1 else redirect s p.1) 0 true)
    ∧ (bufferRoom s s.turn ps.length = false → exec i s = .next s)
  (∀ d sz i, poisonS t [d] = [] → writes (.gst b h d sz i) (globalOff t b i sz.bytes) sz.bytes sz.bytes ((leBytes sz.bytes (readS t d).toNat).map some))
  ∧ (∀ d i, poisonV t [d] = [] → writes (.gvst b h d i) (globalOff t b i 64) 384 64 (maskStore (readMask t 7) (readVec t d)))

/-- When the checks pass and the store buffer has room, an atomic puts one buffered access under way at its bytes and a
late result of latency 24 in flight; without room the bundle is held. cas2 reads its expected and new values from
its record in the own scratchpad, and a bad line of the record poisons its result. Performed on its bytes, an amo
leaves the sum modulo the width, the and, or, xor, the lesser or greater as signed or unsigned, the operand itself,
or the floating-point sum; cas and cas2 store the new value when the old one equals the expected one and otherwise
leave it; each answers the old bytes. (R273, R274, R275, R276.) -/
def Obligations.AtomicInstructions : Prop :=
  ∀ s t a b c h, AtTurn s t → poisonS t [a, b, c] = [] → t.spec = false →
  let place := handlePa (handleOf t h) ((handleOf t h).origin + readS t a)
  let sends := fun (i : Instr) (n : Nat) (op : AccOp) =>
    handleTraps s (withoutHostA t h op) (threadMaster s s.turn) 2 h (readS t a) n n rightA permA = [] →
    (bufferRoom s s.turn 1 = true → ∃ u x, exec i s = .next u ∧ u.mem = s.mem ∧ Awaits s u t 0 24 s.fresh 1
      ∧ look u.accesses (s.fresh + 1) = some x ∧ x.owner = .thread s.turn ∧ x.op = op ∧ x.tag = s.fresh ∧ x.buffered = true ∧ x.place = .waiting
      ∧ x.pa = if (handleOf t h).host then place else redirect s place)
    ∧ (bufferRoom s s.turn 1 = false → exec i s = .next s)
  let obj := s.mem.bytes (ownPa s s.turn (readS t b)) 32
  (∀ o w, sends (.amo a b h o w) w.bytes (.amo o w (readS t b)))
  ∧ (∀ w, sends (.cas a b c h w) w.bytes (.cas w (readS t b) (readS t c)))
  ∧ (PortFree s → ScratchOk t (readS t b) 32 → LineGood s (readS t b) 32 →
      sends (.cas2 a b h) 16 (.cas2 (leNat (obj.take 16)) (leNat (obj.drop 16))))
  ∧ (PortFree s → ScratchOk t (readS t b) 32 → ¬ LineGood s (readS t b) 32 → bufferRoom s s.turn 1 = true →
      handleTraps s t (threadMaster s s.turn) 2 h (readS t a) 16 16 rightA permA = [] →
      ∃ tr, tr.code = tMemUncorrectable ∧ exec (.cas2 a b h) s = .next (pushes s t 0 24 (.scalars (.poison tr) (.poison tr)) .none))
  ∧ ∀ pa (w : AmoWidth) (v e n : W64),
      let z := 8 * w.bytes
      let old := leNat (s.mem.bytes pa w.bytes)
      let x := v.toNat % 2 ^ z
      let stored := fun (k new : Nat) => ({ s with mem := s.mem.store pa (leBytes k new) } : State)
      let amo := fun (o : AmoOp) (new : Nat) (f : FpFlags) =>
        performAtomic (.amo o w v) pa s = (s.mem.bytes pa w.bytes, f, stored w.bytes new)
      let lesser := decide ((BitVec.ofNat z old).toInt ≤ (BitVec.ofNat z x).toInt)
      let sum := fpAdd (if w = .w4 then Fmt.f32 else Fmt.f64) .rne old x
      amo .add ((old + x) % 2 ^ z) .none ∧ amo .and (old &&& x) .none ∧ amo .or (old ||| x) .none ∧ amo .xor (old ^^^ x) .none
      ∧ amo .min (if lesser then old else x) .none ∧ amo .max (if lesser then x else old) .none
      ∧ amo .minu (min old x) .none ∧ amo .maxu (max old x) .none ∧ amo .swap x .none ∧ amo .fadd sum.1 sum.2
      ∧ performAtomic (.cas w e n) pa s = (s.mem.bytes pa w.bytes, .none, stored w.bytes (if old = e.toNat % 2 ^ z then n.toNat % 2 ^ z else old))
      ∧ (∀ e2 n2, performAtomic (.cas2 e2 n2) pa s = (s.mem.bytes pa 16, .none,
          stored 16 (if leNat (s.mem.bytes pa 16) = e2 then n2 else leNat (s.mem.bytes pa 16))))

/-- chain with a valid descriptor takes the lowest free entry, which is PENDING with the destination, status word and
length of the descriptor, clears the status word and empties it and the words of the destination, sends the packet
with the first address, the steps, masks and offsets of the descriptor, and advances the thread; the bytes of the
descriptor are taken as they stand (also over an uncorrectable error: log entry 109, DESIGN CHOICE); a descriptor
that is not valid raises CHAIN_FAULT with cause 0x0F and its address; without a free entry the bundle is held.
chainq pushes the status word with latency 5 and frees the FAULTED entry that has it. (R280, R281, R282, R286.) -/
def Obligations.ChainInstructions : Prop :=
  ∀ s t a, AtTurn s t → poisonS t [a] = [] →
  let x := readS t a
  let d := s.mem.bytes (ownPa s s.turn x) 128
  let stat := scratchPa s (coreOf s.turn) (fieldAt d 12 4)
  let dest := scratchPa s (coreOf s.turn) (fieldAt d 8 4)
  (∀ n, PortFree s → ScratchOk t x 128 → chainDescOk t.sys.scrwin x.toNat d = true → freeChain t = some n → respRoom s (.thread s.turn) 1 = true →
    s.mem.wf = true → setRises s.full = true →
    ∃ u t' c y p, exec (.chain a) s = .next u ∧ getThread u s.turn = some t' ∧ t' = { advance t s.cc with chains := put t.chains n c }
      ∧ c = { state := .pending, addr := x.toNat, dest := fieldAt d 8 4, stat := fieldAt d 12 4, flen := fieldAt d 17 1, gen := t.windowGen
              order := s.fresh, sys := t.system, asid := bits t.sys.asidreg.toNat 0 16 }
      ∧ u.mem = s.mem.store stat (List.replicate 8 0) ∧ u.mem.bytes stat 8 = List.replicate 8 0 ∧ SameOutside s u stat 8
      ∧ isFull u stat = false ∧ (∀ j, j < fieldAt d 17 1 / 8 → isFull u (dest + 8 * j) = false)
      ∧ look u.accesses s.fresh = some y ∧ y.owner = .chain s.turn n ∧ y.op = .chain p ∧ y.performed = false
      ∧ p.cur = BitVec.ofNat 64 (fieldAt d 0 8) ∧ p.step = 0 ∧ p.nsteps = fieldAt d 16 1 ∧ p.flen = fieldAt d 17 1 ∧ p.hops = 0
      ∧ (∀ k, k < 7 → p.masks.getD k 0 = BitVec.ofNat 64 (fieldAt d (24 + 8 * k) 8)
          ∧ p.offs.getD k 0 = (BitVec.ofNat 32 (fieldAt d (80 + 4 * k) 4)).toInt))
  ∧ (ScratchOk t x 128 → chainDescOk t.sys.scrwin x.toNat d = false → feDone t = false →
      exec (.chain a) s = .next (raiseTrap s.turn (trapOf tChainFault 2 x 0 0x0F) s))
  ∧ (ScratchOk t x 128 → chainDescOk t.sys.scrwin x.toNat d = true → freeChain t = none → exec (.chain a) s = .next s)
  ∧ (PortFree s → ScratchOk t x 8 →
    exec (.chainq a) s = .next (afterWith s t fun u => { u with
      chains := match faultedAt t x with | some c => erase t.chains c.1 | none => t.chains
      flight := t.flight ++ [itemOf t 0 5 (.scalar (loaded s x 8 (BitVec.ofNat 64 (leNat (s.mem.bytes (ownPa s s.turn x) 8))))) .none] }))

/-- On an object of the own scratchpad each operation acts at issue on the 32 bytes of its object, as they stand (also
over an uncorrectable error, barq apart: log entry 110, DESIGN CHOICE): barinit writes a fresh one; bararr, bardrop,
barjoin and barbytes, once every earlier global access of the thread has performed, change it or, when stale, leave
it and make BARRIER_STALE pending; barq pushes its state; barwait issues when its phase has passed, raises
BARRIER_STALE when it is stale, and otherwise waits, until its object lets it go, is found stale, or its deadline
raises FE_TIMEOUT. With each the clock of the thread advances by one (a choice of the model, log entry 90), and the
trap of a stale barbytes has 0 in place of a ticket (a reading of the model, log entry 69). Through a handle
barinit, bararr, bardrop, barjoin and barbytes put one buffered access under way, barq a read with a late result of
latency 12, and barwait one access whose answer it waits for. On a valid object with the ticket of its phase, an
arrival that is not the last adds one arrival; the last one, with no bytes pending, flips the phase, clears the
arrivals, adds DELTA to EXPECTED and counts the round. A ticket of the other phase is stale with cause 3, one with
another check with cause 2. (R292, R294, R296, R297, R298, R366, R290, R295.) -/
def Obligations.BarrierInstructions : Prop :=
  (∀ s t a b, AtTurn s t → poisonS t [a, b] = [] →
  let x := readS t a
  let v := readS t b
  let pa := ownPa s s.turn x
  let obj := s.mem.bytes pa 32
  let act := fun (k : BarKind) => barAct k obj v 0
  let own := LocalFree s ∧ ScratchOk t x 32
  let acts := fun (i : Instr) (k : BarKind) => own → t.wait = none → k = .init ∨ globalBusy s s.turn = false →
    ((act k).1 = .done → exec i s = .next { afterLocal s t with mem := s.mem.store pa (act k).2 })
    ∧ (∀ c, (act k).1 = .stale c → exec i s = .next (addBoundary s.turn
        (trapOf tBarrierStale 0xA x (if k = .bytes then 0 else BitVec.ofNat 64 (bits v.toNat 0 16)) c) { afterLocal s t with mem := s.mem.store pa (act k).2 }))
  let sends := fun (i : Fin 16 → Instr) (k : BarKind) => ∀ h, t.spec = false → t.wait = none → (handleOf t h).host = false → bufferRoom s s.turn 1 = true →
      handleTraps s t (threadMaster s s.turn) 2 h x 32 8 rightA permA = [] →
      ∃ u c, exec (i h) s = .next u ∧ u.mem = s.mem ∧ getThread u s.turn = some (advance t s.cc) ∧ look u.accesses s.fresh = some c ∧ c.op = .bar k v 0
        ∧ c.owner = .thread s.turn ∧ c.buffered = true ∧ c.place = .waiting ∧ c.pa = redirect s (handlePa (handleOf t h) ((handleOf t h).origin + x))
  acts (.barinit a b none) .init ∧ acts (.bararr a b none) .arr ∧ acts (.bardrop a b none) .drop ∧ acts (.barjoin a b none) .join
  ∧ acts (.barbytes a b none) .bytes
  ∧ (ScratchOk t x 32 → globalBusy s s.turn = true → exec (.bararr a b none) s = .next s)
  ∧ (own → t.wait = none → ∀ w, (act .query).1 = .value w → exec (.barq a b none) s = .next (pushesLocal s t (.scalar (loaded s x 32 w))))
  ∧ (own → t.wait = none →
      ((act .wait).1 = .done → exec (.barwait a b none) s = .next (afterLocal s t))
      ∧ (∀ c, (act .wait).1 = .stale c → feDone t = false →
          exec (.barwait a b none) s = .next (raiseTrap s.turn (trapOf tBarrierStale 2 x (BitVec.ofNat 64 (bits v.toNat 0 16)) c) s))
      ∧ ((act .wait).1 = .blocked → exec (.barwait a b none) s = .next
          (waiting s t { kind := .bar, deadline := feDeadline s t, since := s.cc, obj := some (pa, v) })))
  ∧ (∀ w, own → t.wait = some w → w.kind = .bar →
      (w.answered = true → w.bad = none → exec (.barwait a b none) s = .next (afterLocal s t))
      ∧ (∀ tr, w.bad = some tr → exec (.barwait a b none) s = .next (raiseTrap s.turn { tr with place := 2 } s))
      ∧ (w.answered = false → w.bad = none → w.expired = false → exec (.barwait a b none) s = .next s)
      ∧ (w.answered = false → w.bad = none → w.expired = true → exec (.barwait a b none) s = .next (raiseTrap s.turn (trapOf tFeTimeout 2 x) s)))
  ∧ sends (fun h => .barinit a b (some h)) .init ∧ sends (fun h => .bararr a b (some h)) .arr ∧ sends (fun h => .bardrop a b (some h)) .drop
  ∧ sends (fun h => .barjoin a b (some h)) .join ∧ sends (fun h => .barbytes a b (some h)) .bytes
  ∧ (∀ h, t.spec = false → (handleOf t h).host = false → storeWaiting s s.turn = false → respRoom s (.thread s.turn) 1 = true →
      handleTraps s t (threadMaster s s.turn) 2 h x 32 8 rightA permA = [] → t.wait = none →
      (∃ u c, exec (.barq a b (some h)) s = .next u ∧ u.mem = s.mem ∧ Awaits s u t 0 12 s.fresh 1 ∧ look u.accesses (s.fresh + 1) = some c
        ∧ c.op = .bar .query v 0 ∧ c.owner = .thread s.turn ∧ c.tag = s.fresh ∧ c.buffered = false)
      ∧ (∃ u c, exec (.barwait a b (some h)) s = .next u ∧ u.mem = s.mem ∧ look u.accesses s.fresh = some c ∧ c.op = .bar .wait v 0
        ∧ c.owner = .thread s.turn ∧ getThread u s.turn = some { t with wait := some { kind := .bar, deadline := none, since := s.cc } }))
  ∧ (∀ h w, t.spec = false → (handleOf t h).host = false → t.wait = some w → w.kind = .bar → w.bad = none →
      (w.answered = true → exec (.barwait a b (some h)) s = .next (afterLocal s t))
      ∧ (w.answered = false → w.expired = false → exec (.barwait a b (some h)) s = .next s)
      ∧ (w.answered = false → w.expired = true → exec (.barwait a b (some h)) s = .next (raiseTrap s.turn (trapOf tFeTimeout 2 ((handleOf t h).origin + x)) s))))
  ∧ (∀ o t, o.ok = true → o.phase ≤ 1 → t < 2 ^ 16 →
    (bits t 0 15 ≠ o.check → (barArrive o t 0 0).1 = .stale 2 ∧ (barArrive o t 0 0).2 = o)
    ∧ (bits t 0 15 = o.check → bits t 15 1 ≠ o.phase → (barArrive o t 0 0).1 = .stale 3 ∧ (barArrive o t 0 0).2 = o)
    ∧ (bits t 0 15 = o.check → bits t 15 1 = o.phase → -(2 ^ 20) ≤ o.delta → o.delta < 2 ^ 20 → o.pending < 2 ^ 40 →
        (o.arrivals + 1 < o.expected → (barArrive o t 0 0) = (.done, { o with arrivals := o.arrivals + 1 }))
        ∧ (o.arrivals + 1 = o.expected → o.pending = 0 → o.round < 2 ^ 32 → (o.expected : Int) + o.delta < 2 ^ 20 → 0 ≤ (o.expected : Int) + o.delta →
            (barArrive o t 0 0) = (.done, { o with phase := 1 - o.phase, arrivals := 0, expected := ((o.expected : Int) + o.delta).toNat, delta := 0, round := (o.round + 1) % 2 ^ 32 }))))

/-- csend of a thread whose context holds a LIVE handle from its tile with no tear pending, at a port with room, appends
its vector to the port with the access tables as they stand; where a tear of the handle has taken effect by the vc
of the bundle, also one that this very bundle lets the sequencer perform, it raises CIRCUIT_NONE with the state and
the generation of the handle, and in the same state without a context with cause 7. cstat pushes the circuit status
word, as it stands at issue (a reading of the model, log entry 95), with latency 12. (R164, R168, R156, R113.) -/
def Obligations.CircuitInstructions : Prop :=
  ∀ s t b h, AtTurn s t → poisonV t [b] = [] →
  exec (.cstat h) s = .next (pushesA s t 12 (circStatus s s.turn h.toNat))
  ∧ (t.spec = false → ∀ c, ctxOf s s.turn = some c → let x := handleAt c.2 h.toNat
      x.state = .live → x.sink < 128 → tileOf s.turn = x.src / 8 → tornFrom x t.vc = false → tearComing s c.1 c.2 h.toNat t.vc = false →
      circPortBusy s x.src = false →
      ∃ u, exec (.csend b h) s = .next u ∧ u.mem = s.mem ∧ getThread u s.turn = some (advance t s.cc)
        ∧ ∃ e : Flying, e.slot = s.turn ∧ e.who = t.dispatched ∧ e.ctx = c.1 ∧ e.h = h.toNat ∧ e.gen = x.gen ∧ e.data = readVec t b ∧ e.tables = s.tables
          ∧ e.since = s.cc ∧ e.node = t.node ∧ look u.ports x.src = some ⟨(portOf s x.src).buf ++ [e], some s.cc⟩)
  ∧ (t.spec = false → feDone t = false → ∀ c, ctxOf s s.turn = some c → let x := handleAt c.2 h.toNat
      x.state ≠ .live ∨ tornFrom x t.vc = true ∨ tearComing s c.1 c.2 h.toNat t.vc = true →
      exec (.csend b h) s = .next (raiseTrap s.turn { code := tCircuitNone, place := 2, cause := circCode x.state, gen := x.gen, hnd := h.toNat } s))
  ∧ (t.spec = false → feDone t = false → ctxOf s s.turn = none →
      exec (.csend b h) s = .next (raiseTrap s.turn { code := tCircuitNone, place := 2, cause := 7, hnd := h.toNat } s))

/-- fence.q issues when each engine that its mask names is idle, or halted by a fault that has been observed, and, with
bit 3, no chain of the thread is PENDING or FAULTED and no circuit vector of it outstanding; while one of these is
outstanding it is held, and a fault of a named engine that nothing has observed is raised by it. fence.sys issues
when no store, no word of an engine that runs and no circuit vector of the thread is outstanding, fence.host when no
host store and no word of a running engine with host memory to write is; until then each is held, its wait being
noted. Each writes FENCESTAT: E, the halted engines that it covers, H for fence.host, the device and the number of
the covered line writes known to be dropped. In system mode xinval of a block that is not speculative clears the
translations of its page from every TLB, raises the shootdown count and holds the next bundle until the accesses it
covers have ended; harv records a harvest and holds the next bundle. In user mode both raise PRIVILEGE. (R310, R311,
R312, R313, R315, R227, R70, R98, R107.) -/
def Obligations.FencesInvalidationsAndHarvest : Prop :=
  (∀ s t q, AtTurn s t →
  let named := fun (e : Eng) => q.getLsbD (match e with | .m => 0 | .c0 => 1 | .c1 => 2)
  let x := getEngine t
  let calm := pendingFaults t (namedEngines q) = [] ∧ (q.getLsbD 3 = true → ∀ c ∈ t.chains, c.2.state ≠ .faulted)
  let observed := fun (e : Eng) => ∃ f, (x e).fault = some f ∧ f.observed = true
  let halted := fun (e : Eng) => (x e).fault.isSome
  let lossOf := fun (host : Bool) => (allEngines.flatMap (haltedLoss s s.turn t)).filter fun b => !host || b.host
  let count := fun (host : Bool) => (if host then t.droppedHost else t.dropped) + ((lossOf host).map Bound.lines).sum
  let status := fun (host : Bool) (h : Eng → Bool) =>
    let n := count host
    let dev := if n = 0 then 0 else if host then s.cfg.device else t.dropDev.getD (((lossOf false).map Bound.dev).headD 0)
    BitVec.ofNat 64 ((if n ≠ 0 ∨ h .m = true ∨ h .c0 = true ∨ h .c1 = true then 2 ^ 63 else 0) + (if h .m then 2 ^ 62 else 0) + (if h .c0 then 2 ^ 61 else 0)
      + (if h .c1 then 2 ^ 60 else 0) + (if host then 2 ^ 59 else 0) + dev * 2 ^ 42 + min n 0xFFFFFFFF)
  let writes := fun (i : Instr) (v : W64) => exec i s = .next (afterWith s t fun u => { u with sys := { t.sys with fencestat := v } })
  let held := fun (i : Instr) => exec i s = .next (if t.wait = none then waiting s t { kind := .fence, deadline := none, since := s.cc } else s)
  (calm → (∀ e, named e = true → engineIdle (x e) = true ∨ observed e) →
      (q.getLsbD 3 = true → (∀ c ∈ t.chains, c.2.state ≠ .pending) ∧ csendBusy s s.turn t = false) → exec (.fenceQ q) s = .next (afterBundle s t))
  ∧ (calm → (∃ e, named e = true ∧ engineIdle (x e) = false ∧ ¬ observed e)
      ∨ q.getLsbD 3 = true ∧ ((∃ c ∈ t.chains, c.2.state = .pending) ∨ csendBusy s s.turn t = true) → exec (.fenceQ q) s = .next s)
  ∧ (∀ tr, pendingFaults t (namedEngines q) = [tr] → feDone t = false → exec (.fenceQ q) s = .next (raiseTrap s.turn tr s))
  ∧ (∀ e, e ∈ namedEngines q ↔ named e = true)
  ∧ (t.spec = false → storesDone s s.turn = true → csendBusy s s.turn t = false → (∀ e, engineIdle (x e) = true ∨ halted e = true) →
      writes .fenceSys (status false halted))
  ∧ (storesDone s s.turn = false ∨ csendBusy s s.turn t = true ∨ (∃ e, engineIdle (x e) = false ∧ halted e = false) → held .fenceSys)
  ∧ (t.spec = false → hostStores s s.turn = false → (∀ e, engineIdle (x e) = true ∨ halted e = true ∨ hostEngine s s.turn t e = false) →
      writes .fenceHost (status true fun e => halted e && hostEngine s s.turn t e))
  ∧ (hostStores s s.turn = true ∨ (∃ e, engineIdle (x e) = false ∧ halted e = false ∧ hostEngine s s.turn t e = true) → held .fenceHost)
  ∧ ((∀ e, halted e = false) → t.dropped = 0 → status false halted = 0))
  ∧ (∀ s t a z, AtTurn s t → poisonS t [a] = [] →
    let va := readS t a
    let r := pageRange (spaceOf t va) va z
    (t.system = true → t.spec = false → keysRise s.threads = true → ∃ u t', exec (.xinval a z) s = .next u ∧ getThread u s.turn = some t' ∧ t'.hold = true ∧ u.shootdown = s.shootdown + 1
        ∧ (∀ k l, (k, l) ∈ u.tlb1 → ∀ e ∈ l, r.meets e.asid e.base e.size.bytes = false)
        ∧ (∀ k l, (k, l) ∈ u.tlb2 → ∀ e ∈ l, r.meets e.asid e.base e.size.bytes = false)
        ∧ ∃ v ∈ u.invals, v.slot = s.turn ∧ v.base = r.base ∧ v.size = r.size ∧ v.harvest = false)
    ∧ (t.system = true → ∃ u, exec (.harv a) s = .next u ∧ u.mem = s.mem ∧ getThread u s.turn = some { advance t s.cc with hold := true }
        ∧ u.invals = s.invals ++ [{ slot := s.turn, asid := spaceOf t va, base := va.toNat, size := 1, covered := [], harvest := true }])
    ∧ (t.system = false → feDone t = false → exec (.xinval a z) s = .next (raiseTrap s.turn (trapOf tPrivilege 2) s) ∧ exec (.harv a) s = .next (raiseTrap s.turn (trapOf tPrivilege 2) s)))

/-- A word of the matrix unit or of a copy channel whose parameters pass their checks takes them from the stack, the
deepest first, and enters the queue with the windows as they stand; nothing else changes. With a full queue the
bundle is held; with too few parameters it raises ENGINE_STACK. A word of the matrix engine that starts acts as one
in progress does. Once the lines it touches have been granted, lda makes the rows of the shadow plane and ldac the
converted accumulators; mma and mmaz, when the array is granted, make a fresh shadow active and give each
accumulator of their columns its dot step, every other staying; drain stores the converted elements column by column
at its pitch, drainq the blocks; zacc clears its columns; msync goes on at a full word, and else waits from then
with the limit it has read; mstat stores the record; a nest reads its descriptor and begins. A refused extent, a bad
block code and a bad descriptor are faults that leave accumulators and memory as they were. That a word is one event
is a choice of the model (log entry 38), the cc of an access of several lines a reading (log entry 101), and what
padding that R48 does not allow counts as a choice (log entry 92). (R63, R65, R66, R172, R257, R258, R259, R260,
R262, R263, R265, R266.) -/
def Obligations.EngineWordsQueue : Prop :=
  (∀ s t tk ty f fe n0 s0 take clr i c p g, AtTurn s t →
  let goes := fun (e : Eng) (w : Instr) (n : Nat) =>
    (WordOk t e w n → exec w s = .next (queued s t e w n))
    ∧ ((getEngine t e).stack.length < n → feDone t = false → exec w s = .next (raiseTrap s.turn (trapOf tEngineStack 3 0 0 (engineNo e)) s))
  goes .m (.lda tk ty) 1 ∧ goes .m (.ldac tk i ty) 1 ∧ goes .m (.mma tk ty) 3 ∧ goes .m (.mmaz tk ty) 3 ∧ goes .m (.drain tk fe f) 3
  ∧ goes .m (.drainq tk n0 s0) 4 ∧ goes .m (.nest tk) 1 ∧ goes .m (.zacc tk) 2 ∧ goes .m (.msync tk take) 1 ∧ goes .m (.mstat tk clr) 1
  ∧ goes c.eng (.g2s c tk p fe) 3 ∧ goes c.eng (.s2g c tk p fe) 3 ∧ goes c.eng (.s2s c tk p fe) 3 ∧ goes c.eng (.s2w c tk) 4
  ∧ goes c.eng (.g2w c tk p) 4 ∧ goes c.eng (.g2g c tk p fe) 3 ∧ goes c.eng (.circ c tk fe) 4 ∧ goes c.eng (.cflag c tk fe) 2
  ∧ goes c.eng (.cnest c tk p fe) 1 ∧ goes c.eng (.cbar c tk g) 3 ∧ goes c.eng (.channelCstat c tk) 1
  ∧ ∀ e, (WordOk t e (.tokenOnly e tk) 0 → exec (.tokenOnly e tk) s = .next (queued s t e (.tokenOnly e tk) 0))
    ∧ (16 ≤ (getEngine t e).queue.length → exec (.tokenOnly e tk) s = .next s))
  ∧ (∀ s k t w ws, getThread s k = some t → engineFree t .m = true → t.me.run = none → t.me.queue = w :: ws → tokensReady s.cc t .m w = true → t.stopping = false →
      (streams w.instr = false ∨ arrayGrant s k = true → exec (.matrixWordStart k) s = exec (.matrixWordStart k) (takeHead k .m (fun w => { word := w }) s))
      ∧ (streams w.instr = true → arrayGrant s k = false → exec (.matrixWordStart k) s = .next s))
  ∧ ∀ s k t r, getThread s k = some t → t.me.run = some r → r.sent = false → r.waiting = false → r.live = false → engineFree t .m = true →
    let p := nthNat r.word.params
    let v := readLimit k s
    let granted := allServed (coreOf k) (engineRequester k .m) (mLines t r) (takeGrants (wants v (coreOf k)) (coreOf k) (engineRequester k .m) (mLines t r) v) = true
    let goes := fun (f : State → Thread → Run → Prop) => ∃ u t' r', exec (.matrixWordStart k) s = .next u ∧ getThread u k = some t' ∧ t'.me.run = some r' ∧ f u t' r'
    let done := fun (f : State → Thread → Prop) => goes fun u t' r' => r'.sent = true ∧ f u t'
    let faults := fun (f : Trap → Prop) => goes fun u t' r' => r'.sent = false ∧ u.mem = s.mem ∧ u.acc = s.acc ∧ ∃ g, t'.me.fault = some g ∧ f g.trap
    let own := fun (a : Nat) => scratchPa s (coreOf k) a
    let may := fun (a n : Nat) (right : Right) (f : Prop) => granted →
      (∀ x, mRefused s k a n right = some x → faults fun g => g.code = tEngineFault ∧ g.cause = eDenied ∧ g.arg0 = x.arg0) ∧ (mExtent s k a n right = none → f)
    (∀ tk ty, r.word.instr = .lda tk ty → may (p 0) (96 * ty.rowBytes) rightR (
      let row := fun (i : Nat) => mRow ty (s.mem.bytes (own (p 0 + i * ty.rowBytes)) ty.rowBytes)
      (∀ rows : Nat → Row, (∀ i < 96, row i = .ok (rows i)) → done fun u t' => u.mem = s.mem ∧ u.acc = s.acc ∧ t'.mx.fresh = true ∧ t'.mx.active = t.mx.active ∧ t'.mx.flags = t.mx.flags
        ∧ t'.mx.shadow = { type := ty, rows := (List.range 96).map rows })
      ∧ (∀ i fc, i < 96 → row i = .error fc → (∀ j < i, ∃ x, row j = .ok x) → faults fun g => g.code = tFormat ∧ g.arg0 = BitVec.ofNat 64 (p 0 + i * ty.rowBytes) ∧ g.arg1 = BitVec.ofNat 64 fc)))
    ∧ (∀ tk int ty, r.word.instr = .ldac tk int ty → granted → accUncorrectable s k (p 0) 96 = none →
      let value := fun (i j : Nat) =>
        let x := accRead s k i (p 0 + j)
        let y := if int then FVal.ofInt (signedOf 32 x) else Fmt.f32.decode x
        if ty = .i8 then (if int then (FVal.ofInt (clampInt (signedOf 32 x) (-128) 127), FpFlags.none) else (FVal.ofInt (toIntS y 8 .rne).1, (toIntS y 8 .rne).2))
        else ((mFmt ty).decode (round1 y (mFmt ty) .rne false).1, (round1 y (mFmt ty) .rne false).2)
      done fun u t' => u.mem = s.mem ∧ u.acc = s.acc ∧ t'.mx.fresh = true ∧ t'.mx.active = t.mx.active ∧ t'.mx.shadow.type = ty
        ∧ t'.mx.shadow.rows = ((List.range 96).map fun i => { zero := false, elems := (List.range 96).map fun j => (value i j).1 })
        ∧ t'.mx.flags = t.mx.flags.or (orAll ((List.range 96).flatMap fun i => (List.range 96).map fun j => (value i j).2)))
    ∧ (∀ tk ty zero, r.word.instr = (if zero then .mmaz tk ty else .mma tk ty) →
      let c := p 0
      let w := p 1 % 65536
      let h := bits (p 1) 16 16
      let n := p 2
      (arrayGrant v k = false → ∃ u, exec (.matrixWordStart k) s = .next u ∧ u.mem = s.mem ∧ u.acc = s.acc ∧ getThread u k = some t)
      ∧ (arrayGrant v k = true →
        (∀ x, weightsRefused s k ty w h n = some x → faults fun g => g.code = tEngineFault ∧ g.cause = eDenied ∧ g.arg0 = x.arg0)
        ∧ (weightsRefused s k ty w h n = none → weightsBad s k ty w h n = none → (zero = false → accUncorrectable s k c n = none) →
          (∀ j fc, j < n → bColumn s k ty w h j = .error fc → (∀ i < j, ∃ b, bColumn s k ty w h i = .ok b) →
            faults fun g => g.code = tFormat ∧ g.arg0 = BitVec.ofNat 64 (2 ^ 63 + 2 ^ 62 + h + 16 * j) ∧ g.arg1 = BitVec.ofNat 64 fc)
          ∧ ∀ b : Nat → Row, (∀ j < n, bColumn s k ty w h j = .ok (b j)) → keysRise s.acc = true → c + n ≤ 512 →
            let plane := if t.mx.fresh then t.mx.shadow else t.mx.active
            let step := fun (i j : Nat) =>
              let a := plane.rows.getD i { zero := false, elems := [] }
              let old := if zero then 0 else accRead s k i (c + j)
              if a.zero || (b j).zero then dotStepZero old else if plane.type = .i8 ∧ ty = .i8 then (dotStepInt old a.elems (b j).elems, FpFlags.none) else dotStep old a.elems (b j).elems
            done fun u t' => u.mem = s.mem ∧ t'.mx.active = plane ∧ t'.mx.fresh = false ∧ t'.mx.shadow = t.mx.shadow
              ∧ t'.mx.flags = t.mx.flags.or (orAll ((List.range n).flatMap fun j => (List.range 96).map fun i => (step i j).2))
              ∧ ∀ i col, i < 96 → col < 512 → accRead u k i col = if c ≤ col ∧ col < c + n then (step i (col - c)).1 % 2 ^ 32 else accRead s k i col)))
    ∧ (∀ tk fe f, r.word.instr = .drain tk fe f → may (p 0) (p 2 * f.pitch) rightW (accUncorrectable s k (p 1) (p 2) = none →
      let value := fun (j i : Nat) =>
        let x := accRead s k i (p 1 + j)
        match f with
        | .f32 => (x, FpFlags.none)
        | .bf16 => round1 (Fmt.f32.decode x) .bf16 .rne false
        | .f16 => round1 (Fmt.f32.decode x) .f16 .rne false
        | .e4m3 => round1 (Fmt.f32.decode x) .e4m3 .rne false
        | .e5m2 => round1 (Fmt.f32.decode x) .e5m2 .rne false
        | .i16 => (wrapInt 16 (clampInt (signedOf 32 x) (-32768) 32767), .none)
        | .i8 => (wrapInt 8 (clampInt (signedOf 32 x) (-128) 127), .none)
      let e := match f with | .f32 => 4 | .bf16 => 2 | .f16 => 2 | .e4m3 => 1 | .e5m2 => 1 | .i16 => 2 | .i8 => 1
      let last := if f = .i8 then 96 * e else f.pitch
      done fun u t' => u.acc = s.acc ∧ t'.mx.flags = t.mx.flags.or (orAll ((List.range (p 2)).flatMap fun j => (List.range 96).map fun i => (value j i).2))
        ∧ (s.mem.wf = true →
          (∀ j i b, j < p 2 → i < 96 → b < e → u.mem.read (own (p 0) + j * f.pitch + i * e + b) = (leBytes e (value j i).1).getD b 0)
          ∧ (∀ j b, j < p 2 → 96 * e ≤ b → b < f.pitch → u.mem.read (own (p 0) + j * f.pitch + b) = if b < last then 0 else s.mem.read (own (p 0) + j * f.pitch + b))
          ∧ SameOutside s u (own (p 0)) (p 2 * f.pitch))
        ∧ (fe = false → u.full = s.full)
        ∧ (fe = true → setRises s.full = true → own (p 0) % 8 = 0 → ∀ j b, j < p 2 → 8 * b < last → isFull u (own (p 0) + j * f.pitch + 8 * b) = true)))
    ∧ (∀ tk nm sel, r.word.instr = .drainq tk nm sel → may (p 0) (6144 * ((p 3 + 95) / 96)) rightW (accUncorrectable s k (p 2) (p 3) = none →
      let block := fun (b i : Nat) => quantise4 ((List.range 96).map fun j => if 96 * b + j < p 3 ∧ p 2 + 96 * b + j < 512 then accRead s k i (p 2 + 96 * b + j) else 0)
        (p 1) sel.toNat (if nm then 0x4A else 0x4B)
      done fun u t' => u.acc = s.acc ∧ u.full = s.full ∧ u.mem = s.mem.store (own (p 0)) ((List.range ((p 3 + 95) / 96)).flatMap fun b => (List.range 96).flatMap fun i => (block b i).1)
        ∧ t'.mx.flags = t.mx.flags.or (orAll ((List.range ((p 3 + 95) / 96)).flatMap fun b => (List.range 96).map fun i => (block b i).2))))
    ∧ (∀ tk, r.word.instr = .zacc tk → keysRise s.acc = true → done fun u _ => u.mem = s.mem
      ∧ ∀ i col, i < 96 → col < 512 → accRead u k i col = if p 0 ≤ col ∧ col < p 0 + p 1 then 0 else accRead s k i col)
    ∧ (∀ tk take, r.word.instr = .msync tk take → granted →
      let right := if take then rightR + rightW else rightR
      let limit := r.limit.getD t.sys.felimit.toNat
      (∀ x, mRefused s k (p 0) 8 right = some x → faults fun g => g.code = tEngineFault ∧ g.cause = eDenied ∧ g.arg0 = x.arg0)
      ∧ (mRefused s k (p 0) 8 right = none → isFull s (own (p 0)) = true → done fun u _ => u.mem = s.mem ∧ (take = false → u.full = s.full)
          ∧ (take = true → setRises s.full = true → isFull u (own (p 0)) = false ∧ ∀ a, a / 8 ≠ own (p 0) / 8 → isFull u a = isFull s a))
      ∧ (mRefused s k (p 0) 8 right = none → isFull s (own (p 0)) = false → goes fun u _ r' => r'.sent = false ∧ r'.waiting = true ∧ u.mem = s.mem ∧ u.full = s.full
          ∧ u.waiters = put s.waiters (own (p 0) / 8) ((look s.waiters (own (p 0) / 8)).getD [] ++ [.msync k take (if limit = 0 then none else some (s.cc + limit))])))
    ∧ (∀ tk clr, r.word.instr = .mstat tk clr → may (p 0) 16 rightW (done fun u t' =>
      let g := t.mx.flags
      let flags := (if g.nv then 16 else 0) + (if g.of then 4 else 0) + (if g.uf then 2 else 0) + (if g.nx then 1 else 0)
      u.mem = s.mem.store (own (p 0)) (leBytes 8 (t.me.lastCode % 256 * 2 ^ 56 + t.me.lastCause % 256 * 2 ^ 48 + flags) ++ leBytes 8 (t.me.words % 2 ^ 32)) ∧ u.acc = s.acc
        ∧ (setRises s.full = true → isFull u (own (p 0)) = true ∧ isFull u (own (p 0) + 8) = true) ∧ t'.mx.flags = if clr then .none else g))
    ∧ (∀ tk, r.word.instr = .nest tk →
      let a := if t.mx.act then t.mx.desc else p 0
      let ix := if t.mx.act then t.mx.index else [0, 0, 0, 0, 0, 0]
      let d := s.mem.bytes (own a) 128
      may a 128 rightR (
        (matrixNestOk d = true → indexOk d ix = true → goes fun u t' r' => r'.live = true ∧ r'.sent = false ∧ r'.desc = d ∧ u.mem = s.mem ∧ u.acc = s.acc
          ∧ t'.mx = { t.mx with
              act := true
              desc := a
              index := ix
              prevA := none })
        ∧ (matrixNestOk d = false ∨ indexOk d ix = false → faults fun g => g.code = tEngineFault ∧ g.cause = eBadDesc ∧ g.arg0 = BitVec.ofNat 64 a)))

/-- A scalar result in flight whose vc has passed enters the scalar queue as entry 0, the oldest of sixteen entries is
lost, its flags are ORed into FPC, and it leaves the flight; a late one likewise by its arrival, after which the
thread issues in the next cc at the earliest. A vector result enters the vector queue, the two scalars of one result
the scalar queue, the first before the second. Of two results due the one due first enters first; in one vc one of
the A slot comes before one of the S slot and that before one of the V slot, and in a slot the one that issued
first. While a result that is due has not arrived nothing is pushed and the thread presents no bundle. Nothing of
the other threads or of memory changes. A core whose current slot is not ready, or whose quantum of 8192 cc is over,
goes to the slot that its rule chooses: that slot becomes current after four cc in which the core issues nothing,
those of this cc not counted when it has issued in it. While a switch lasts, or with no other slot ready, nothing
happens. (R71, R73, R209, R210, R211, R33, R322.) -/
def Obligations.ResultsAndSlots : Prop :=
  ((∀ s k t i v, getThread s k = some t → t.flight = [i] → i.due < clockOf t → i.notBefore ≤ s.cc → i.value = some (.scalar (.val v)) → i.post = .none → i.mute = false →
  let after := fun (n : Nat) => setThread s k { t with
    flight := []
    regs := { t.regs with q := (.val v :: t.regs.q).take 16 }
    sys := { t.sys with fpc := t.sys.fpc ||| BitVec.ofNat 64 (flagBits i.flags) }
    noIssueBefore := n }
  (i.late = false → exec (.resultPush k) s = .next (after t.noIssueBefore) ∧ exec (.lateItemArrival k) s = .next s)
  ∧ (i.late = true → exec (.lateItemArrival k) s = .next (after (max t.noIssueBefore (s.cc + 1))) ∧ exec (.resultPush k) s = .next s))
  ∧ (∀ s k t i j a b, getThread s k = some t →
    let due := fun (x : Item) (r : Result) => x.due < clockOf t ∧ x.notBefore ≤ s.cc ∧ x.value = some r ∧ x.post = .none ∧ x.mute = false ∧ x.late = false
    let pushed := fun (r : Regs) (f : W64) => exec (.resultPush k) s = .next (setThread s k { t with flight := [], regs := r, sys := { t.sys with fpc := t.sys.fpc ||| f } })
    let flags := fun (x : Item) => BitVec.ofNat 64 (flagBits x.flags)
    (t.flight = [i] → due i a →
      (∀ v, a = .vector v → pushed { t.regs with y := (v :: t.regs.y).take 16 } (flags i))
      ∧ (∀ v w, a = .scalars v w → pushed { t.regs with q := (w :: v :: t.regs.q).take 16 } (flags i)))
    ∧ (t.flight = [i, j] ∨ t.flight = [j, i] → due i a → due j b →
      i.due < j.due ∨ i.due = j.due ∧ (i.rank < j.rank ∨ i.rank = j.rank ∧ i.issued < j.issued) →
      pushed (pushResult (pushResult t.regs a) b) (flags i ||| flags j))
    ∧ (i ∈ t.flight → i.due < clockOf t → i.value = none →
      exec (.resultPush k) s = .next s ∧ exec (.lateItemArrival k) s = .next s ∧ presentable t = false)))
  ∧ (∀ s c, switching s c = false →
    let done := s.cc + (if (getCore s c).lastIssue = some s.cc then 5 else 4)
    let goes := fun (i : Instr) => ∀ k, chooseSlot s c = some k → ∃ u, exec i s = .next u ∧ (getCore u c).current = k % 4
      ∧ (getCore u c).since = done ∧ (getCore u c).switchEnd = done ∧ (getCore u c).expired = false ∧ u.mem = s.mem
    (ready s (currentSlot s c) = false → goes (.slotSwitch c))
    ∧ ((getCore s c).since + 8192 ≤ s.cc → goes (.quantumExpiry c))
    ∧ (chooseSlot s c = none → exec (.slotSwitch c) s = .next s ∧ exec (.quantumExpiry c) s = .next s)
    ∧ (∀ k, chooseSlot s c = some k → k ≠ currentSlot s c ∧ ready s k = true ∧ k / 4 = c))

/-- A non-canonical PC raises PAGE_FAULT; a bundle that decodes to nothing raises ILLEGAL_OP with its bits; the oldest
boundary trap is raised at a bundle boundary in user mode, unless the full/empty action of the bundle has been
performed; a watchdog count at its limit becomes WATCHDOG and restarts. Once nothing in flight is missing a raised
trap saves queues and flight, pushes what is in flight in its order, with its flags, writes the trap registers and
enters the handler. That the flags are in FPC when the handler starts is a reading of the model (log entry 82), and
which part of an illegal bundle WHERE names is its choice (log entry 93). A handle that an xlat in flight fills is
written at that entry, once (a choice of the model, log entry 42). The consumer of a poisoned entry raises its trap,
naming its own place, in user mode, and reads it as zero in system mode. estat and fence.q observe a deferred fault:
its trap is entered with D set, the bundle to be run again. A thread that traps in system mode is killed: the
firmware log says so, its block counts as finished and its node has CAUSE 0xF unless it had one, its queues,
results, engine words, chains and waits are gone, none of its engines or chains awaits an access any longer, it
claims no landing side, and its slot is free once its store buffer is empty. (R51, R91, R364, R370, R373, R375,
R376, R377, R227, R62.) -/
def Obligations.TrapEvents : Prop :=
  ∀ s k t, getThread s k = some t →
  (mayPresent s t = true → canonical t.pc = false → ∃ tr, tr.code = tPageFault ∧ tr.arg0 = t.pc ∧ exec (.bundleFetchFault k) s = .next (raiseTrap k tr s))
  ∧ (k = s.turn → mayPresent s t = true → ∀ w e, fetchBundle s k t = .word w → decodeBundle w.toNat = .error e →
      exec .illegalOp s = .next (raiseTrap k (trapOf tIllegal (illegalPlace w.toNat) (w.truncate 64) ((w >>> 64).truncate 64)) s))
  ∧ (∀ tr ts, t.boundary = tr :: ts → atBoundary t = true → t.system = false → feDone t = false → feUnderway s k = false →
      exec (.boundaryTrap k) s = .next (raiseTrap k tr (setThread s k { t with boundary := ts })))
  ∧ (bits t.sys.wdlimit.toNat 0 32 ≠ 0 → bits t.sys.wdlimit.toNat 0 32 * 65536 ≤ t.watch →
      exec (.watchdogExpiry k) s = .next (setThread s k { t with watch := 0, boundary := t.boundary ++ [trapOf tWatchdog 0xA t.sys.wdlimit] }))
  ∧ (∀ tr, t.trapping = some tr → tr.code ≠ tSoftware → arrived t.flight = true →
      ∃ u t', exec (.trapEntry k) s = .next u ∧ getThread u k = some t' ∧ u.mem = s.mem ∧ t'.system = true ∧ t'.trapping = none
        ∧ t'.pc = t.sys.trapvec &&& 0xFFFFFFFFFFFFFFF0 ∧ t'.hvc = 0 ∧ t'.flight = [] ∧ t'.wait = none ∧ t'.sWait = none
        ∧ t'.saved = some { t := t.vc, q := t.regs.q, y := t.regs.y, pending := t.flight.map handleDone }
        ∧ (let v := (sortItems t.flight).foldl (fun v i => writeHandle (pushValue v i) i) t
          t'.regs = v.regs ∧ t'.handles = v.handles ∧ t'.sys.fpc = v.sys.fpc)
        ∧ t'.sys.trappc = t.pc &&& 0xFFFFFFFFFFFFFFF0 ∧ t'.sys.trapinfo = trapInfo tr ∧ t'.sys.traparg0 = tr.arg0 ∧ t'.sys.traparg1 = tr.arg1)
  ∧ (k = s.turn → presentable t = true → feDone t = false →
    (∀ n d tr o m, t.regs.q.getD n.val (.val 0) = .poison tr →
      (t.system = false → ∀ e ∈ [Instr.keep d (.q n), .br (.q n) o, .sext (.q n) m], exec e s = .next (raiseTrap k { tr with place := 0xB } s))
      ∧ (t.system = true → poisonS t [.q n] = [] ∧ readS t (.q n) = 0))
    ∧ (∀ n tr ty, t.regs.y.getD n.val (.val zeroVec) = .poison tr → t.system = false → exec (.vabs (.y n) 0 ty) s = .next (raiseTrap k { tr with place := 0xB } s))
    ∧ (∀ e f, (getEngine t e).fault = some f → f.observed = false → t.spec = false → t.system = false → flag t.sys.trapvec.toNat 0 = true →
      arrived t.flight = true → f.trap.code ≠ tSoftware → ∃ u t', exec (.estat e) s = .next u ∧ getThread u k = some t' ∧ u.mem = s.mem
        ∧ (getEngine t' e).fault = some { f with observed := true } ∧ t'.system = true ∧ t'.pc = t.sys.trapvec &&& 0xFFFFFFFFFFFFFFF0
        ∧ t'.sys.trappc = t.pc &&& 0xFFFFFFFFFFFFFFF0 ∧ t'.sys.trapinfo = trapInfo { f.trap with deferred := true })
    ∧ ∀ c : BitVec 8, t.spec = false → t.system = true → exec (.trap c) s = .next (killThread k (trapOf tSoftware 0 0 0 c.toNat) s))
  ∧ ∀ tr, t.life = .running → keysRise s.threads = true → keysRise s.accesses = true → keysRise s.nodes = true →
    let u := killThread k tr s
    u.mem = s.mem ∧ u.hostMem = s.hostMem ∧ u.log = s.log ++ [.kill k (trapInfo tr) tr.arg0 tr.arg1]
    ∧ (bufferUsed s k = 0 → getThread u k = none)
    ∧ (∀ id a d, look s.accesses id = some a → a.owner = .thread k → a.buffered = true → a.op = .write d → ∃ t', getThread u k = some t' ∧ t'.life = .killed
        ∧ t'.flight = [] ∧ t'.chains = [] ∧ t'.me = {} ∧ t'.c0 = {} ∧ t'.c1 = {} ∧ t'.wait = none ∧ look u.accesses id = some a)
    ∧ (∀ x, look s.nodes t.node.id = some x → x.gen = t.node.gen →
        ∃ y, look u.nodes t.node.id = some y ∧ y.done = x.done + 1 ∧ y.fault = some (x.fault.getD 0xF) ∧ y.stop = x.stop)
    ∧ (∀ id a e j, look s.accesses id = some a → a.owner = .engine k e j ∨ a.owner = .chain k j → ∃ b, look u.accesses id = some b ∧ b.owner = .gone)
    ∧ (∀ w l, (w, l) ∈ u.waiters → ∀ y ∈ l, y.ofSlot k true = false) ∧ (∀ c ∈ u.claims, c.2 ≠ k)

/-- The only waiter of a full word that asks for ldwfe takes its value and empties it; a waiter past its deadline leaves
the list and its wait expires; barwait and shapew expire at their deadlines; with each wait for a word that is
answered the clock of the thread advances by one (a choice of the model, log entry 90); a launch.w that waits for an
entry, its reads done, answers with code 4 past its deadline with a full node table, and not before its reads; each
pass of a gather or scatter takes up to 8 lanes of every bank, the others staying for the passes after it, a gather
reading them into its vector and a scatter writing them, and the last pass of a gather completes its result with
every lane taken and 0 in the others; a fence past FENCE_LIMIT has its unreachable write answered as unreachable.
(R201, R202, R297, R363, R339, R74, R314.) -/
def Obligations.WaitsEnd : Prop :=
  ∀ s k t, getThread s k = some t →
  (∀ word w d, t.wait = some w → t.chains = [] → look s.waiters word = some [.thread k .ldwfe 0 d] → passed s d = false → isFull s (8 * word) = true →
      setRises s.full = true → (∀ c, look s.woken word = some c → c < s.cc) → lineBad s (8 * word) 8 = false →
      ∃ u t' w', exec (.feWaiterPerform word) s = .next u ∧ isFull u (8 * word) = false ∧ u.mem = s.mem
        ∧ getThread u k = some t' ∧ t'.wait = some w' ∧ t'.clock = t.clock + 1 ∧ w'.answered = true ∧ w'.value = BitVec.ofNat 64 (leNat (s.mem.bytes (8 * word) 8)))
  ∧ (∀ word w d, t.wait = some w → look s.waiters word = some [.thread k .ldwf 0 (some d)] → isFull s (8 * word) = false → d ≤ s.cc →
      ∃ u, exec (.feTimeout word 0) s = .next u ∧ u.mem = s.mem ∧ u.waiters = erase s.waiters word
        ∧ getThread u k = some { t with wait := some { w with expired := true } })
  ∧ (∀ w d, t.wait = some w → w.deadline = some d → d ≤ s.cc → w.answered = false → w.kind = .bar →
      ∃ u, exec (.barwaitTimeout k) s = .next u ∧ u.mem = s.mem ∧ getThread u k = some { t with wait := some { w with expired := true } })
  ∧ (∀ w d, t.sWait = some w → w.deadline = some d → d ≤ s.cc → w.kind = .shape →
      exec (.shapewTimeout k) s = .next (setThread s k { t with sWait := some { w with expired := true } }))
  ∧ (∀ r a b n, s.hubReqs = [r] → r.ask = .launch a b true n → r.kept = none → exec (.launchWaitTimeout k) s = .next s)
  ∧ (∀ r d a b n, s.hubReqs = [r] → r.slot = k → r.ask = .launch a b true n → r.kept.isSome = true → r.deadline = some d → d ≤ s.cc → 8192 ≤ s.nodes.length →
      ∃ u, exec (.launchWaitTimeout k) s = .next u ∧ u.hubReqs = [] ∧ u.nodes = s.nodes
        ∧ ∀ i ∈ t.flight, i.tag = r.tag → r.tag ≠ 0 → ∃ t' i', getThread u k = some t' ∧ i' ∈ t'.flight ∧ i'.tag = r.tag
            ∧ i'.value = some (.scalar (.val (BitVec.ofNat 64 (4 * 2 ^ 60)))))
  ∧ (∀ g, t.gather = some g → g.last < s.cc →
      let cut := splitPass g.left fun _ => 0
      let place := scratchPa s (coreOf k)
      let got := g.got ++ cut.1.map fun x => (x.1, BitVec.ofNat 32 (leNat (s.mem.bytes (place x.2.1) 4)))
      (g.store = false → (∀ x ∈ g.left, x.2.1 < 2 ^ 20 ∧ lineBad s (place x.2.1) 4 = false) →
        (cut.2 ≠ [] → exec (.vgathPass k) s = .next (setThread s k { t with gather := some { g with left := cut.2, got := got, last := s.cc } }))
        ∧ (cut.2 = [] → g.tag ≠ 0 → ∃ u t', exec (.vgathPass k) s = .next u ∧ u.mem = s.mem ∧ getThread u k = some t' ∧ t'.gather = none
          ∧ ∀ i ∈ t'.flight, i.tag = g.tag → i.value = some (.vector (.val ((List.range 96).map fun l =>
              match got.find? fun x => decide (x.1 = l) with | some x => x.2 | none => 0)))))
      ∧ (g.store = true → ∃ u t', exec (.vgathPass k) s = .next u ∧ getThread u k = some t'
          ∧ u.mem = cut.1.foldl (fun m x => m.store (place x.2.1) (leBytes 4 x.2.2.toNat)) s.mem
          ∧ t'.gather = if cut.2 = [] then none else some { g with left := cut.2, got := g.got, last := s.cc })
      ∧ (∀ x, x ∈ g.left ↔ x ∈ cut.1 ∨ x ∈ cut.2) ∧ cut.1.length + cut.2.length = g.left.length
      ∧ (∀ b, (cut.1.filter fun x => decide (bits x.2.1 6 4 = b)).length ≤ 8)
      ∧ ∀ x ∈ cut.2, (cut.1.filter fun y => decide (bits y.2.1 6 4 = bits x.2.1 6 4)).length = 8)
  ∧ (∀ w id a, t.wait = some w → w.kind = .fence → lostWrites s k = [id] → look s.accesses id = some a →
      ∃ u, exec (.fenceLimitExpiry k) s = .next u ∧ u.mem = s.mem ∧ u.hostMem = s.hostMem ∧ (∀ f ∈ u.frames, f.2.access ≠ id)
        ∧ ∃ b, look u.accesses id = some b ∧ StandsAt s { a with answer := some .unreachable } b (replyPlace s a))

/-- A walk ends: its entry is gone, a leaf fills the TLBs of its core and tile, and a fault of a fetch is kept for the
thread that still stands there. The walk of an xlat gives its result the handle that the leaf or the fault makes,
and the word of it. xinval and harv end their holds. A harvest clears G of every granule of an HBM page and recalls
the ownerships of their lines, and sets D in the leaf if one of them was set; for a page elsewhere it sets D always.
The evaluation, due every 1 ms from the start (log entry 75, DEDUCED), clears the counts of the pages it evaluates
(those of the address spaces with MIG = 0: log entry 94, DESIGN CHOICE); it migrates a page with PKG of 4096 or more
and of four times LOCAL or more to LASTTILE of its most-accessed granule, the one with the largest sum of counts,
the first of several (log entry 94), with the frame popped from the pool there, unless that is its own tile. A page
in migration moves its bytes to the new frame and names it in the leaf; when no access under the old translation is
left its old frame enters the pool of its tile. (R89, R90, R91, R94, R98, R104, R105, R106, R107.) -/
def Obligations.WalksAndMigrations : Prop :=
  ∀ s,
  (∀ w, s.walks = [w] → w.fetch = true → ∃ u, exec (.pageWalkComplete w.slot w.tag) s = .next u ∧ u.walks = [] ∧ u.mem = s.mem
      ∧ (∀ l n, (walkTables s (threadMaster s w.slot) w.asid w.va).1 = .leaf l n → tlbLookup u w.slot w.asid w.va = some (l, n))
      ∧ (∀ c n t, (walkTables s (threadMaster s w.slot) w.asid w.va).1 = .fault c n → getThread s w.slot = some t → t.pc = w.va →
          ∃ t', getThread u w.slot = some t' ∧ t'.fetchFault = some (c, n) ∧ t'.regs = t.regs))
  ∧ (∀ w t i h va req, s.walks = [w] → w.fetch = false → getThread s w.slot = some t → t.flight = [i] → w.tag ≠ 0 → i.tag = w.tag → i.form = .walk h va req →
      ∃ u t' i' x, exec (.pageWalkComplete w.slot w.tag) s = .next u ∧ u.walks = [] ∧ u.mem = s.mem ∧ getThread u w.slot = some t' ∧ t'.regs = t.regs
        ∧ t'.handles = t.handles ∧ t'.flight = [i'] ∧ i'.value = some (.scalar (.val (handleWord x))) ∧ i'.post = .handle h x ∧ i'.due = i.due
        ∧ x.origin = va ∧ x.req = req ∧ x.asid = w.asid
        ∧ (∀ c n, (walkTables s (threadMaster s w.slot) w.asid w.va).1 = .fault c n → x.state = .faulted ∧ x.cause = c ∧ x.level = n)
        ∧ (∀ l n, (walkTables s (threadMaster s w.slot) w.asid w.va).1 = .leaf l n →
            (flag l.toNat 6 = true → t.system = false → x.state = .faulted ∧ x.cause = 3 ∧ x.level = n)
            ∧ (flag l.toNat 6 = false ∨ t.system = true → x.state = .valid ∧ x.size = leafSize n ∧ x.base = va.toNat / (leafSize n).bytes * (leafSize n).bytes
                ∧ x.frame = bits l.toNat 16 40 * 2 ^ 16 ∧ x.host = decide (bits l.toNat 62 2 = 1)
                ∧ x.grant = req &&& (4 * bit (flag l.toNat 5) + 2 * bit (flag l.toNat 3) + bit (flag l.toNat 2)))))
  ∧ (∀ k v t, getThread s k = some t → findInval s k false = some v → v.covered.all (accessEnded s) = true →
      ∃ u, exec (.xinvalComplete k) s = .next u ∧ u.mem = s.mem ∧ getThread u k = some { t with hold := false } ∧ findInval u k false = none)
  ∧ (∀ k v, findInval s k true = some v → ∃ u, exec (.harvComplete k) s = .next u ∧ findInval u k true = none
      ∧ (∀ t', getThread u k = some t' → t'.hold = false)
      ∧ let found := walkTables s (threadMaster s k) v.asid (BitVec.ofNat 64 v.base)
        (∀ c n, found.1 = .fault c n → u.mem = s.mem)
        ∧ ∀ l n, found.1 = .leaf l n →
            let frame := bits l.toNat 16 40 * 2 ^ 16
            let gs := (List.range ((leafSize n).bytes / 65536)).map fun i => frame / 65536 + i
            let at_ := found.2.getLast?.getD 0
            let marked := s.mem.store at_ (leBytes 8 (l ||| 0x200).toNat)
            (bits l.toNat 62 2 ≠ 0 ∨ isHbm frame = false → u.mem = marked)
            ∧ (bits l.toNat 62 2 = 0 → isHbm frame = true →
                (∀ g ∈ gs, g ≠ at_ / 65536 → (∀ x, look u.granules g = some x → x.g = false) ∧ ∀ d ∈ u.dir, d.1 / 1024 = g → d.2.owner = none)
                ∧ ((∃ g ∈ gs, ∃ x, look s.granules g = some x ∧ x.g = true) → u.mem = marked)
                ∧ ((∀ g ∈ gs, ∀ x, look s.granules g = some x → x.g = false) → u.mem = s.mem)))
  ∧ (s.cc % 1600000 = 0 → ∃ u, exec .migrationEvaluation s = .next u
      ∧ (∀ a ∈ hubSpaces s, ∀ p ∈ largePages s a.2, walkedPage s a.1 p.1 p.2 = true → ∀ g ∈ pageGranules p.2,
          ∀ x, look u.granules g = some x → x.loc = 0 ∧ x.pkg = 0 ∧ x.peer = 0)
      ∧ ∀ a p, hubSpaces s = [a] → ((largePages s a.2).filter fun q => walkedPage s a.1 q.1 q.2) = [p] → s.migrations = [] →
          let pkg := sumNat ((pageGranules p.2).map fun g => (granuleOf s g).pkg)
          let loc := sumNat ((pageGranules p.2).map fun g => (granuleOf s g).loc)
          let uses := fun g => (granuleOf s g).loc + (granuleOf s g).pkg + (granuleOf s g).peer
          (pkg < 4096 ∨ pkg < 4 * loc → u.migrations = [])
          ∧ (4096 ≤ pkg → 4 * loc ≤ pkg → ∀ g ∈ pageGranules p.2, (∀ h ∈ pageGranules p.2, uses h < uses g ∨ (uses h = uses g ∧ g ≤ h)) →
              let d := (granuleOf s g).lastTile
              let n := poolCount (poolOf s d)
              (d = paTile p.2 → u.migrations = [])
              ∧ (d ≠ paTile p.2 → n ≠ 0 → poolCount (poolOf s (paTile p.2)) < 512 → holdsLines s p.2 = false →
                  ∃ m, u.migrations = [m] ∧ m.asid = a.1 ∧ m.va = p.1 ∧ m.src = p.2 ∧ m.moved = 0
                    ∧ m.dst = leNat (s.mem.bytes (poolBase (poolOf s d) + 8 * (n - 1)) 8) ∧ poolCount (poolOf u d) = n - 1)
              ∧ (d ≠ paTile p.2 → n = 0 ∨ 512 ≤ poolCount (poolOf s (paTile p.2)) → u.migrations = [])))
  ∧ (s.cc % 1600000 ≠ 0 → exec .migrationEvaluation s = .next s)
  ∧ (∀ m, s.migrations = [m] → m.moved = 0 → s.threads = [] → s.specLines = [] →
      ∃ u, exec (.pageMigrationComplete 0) s = .next u ∧ u.shootdown = s.shootdown + 1
        ∧ u.migrations = [{ m with moved := 32768 }]
        ∧ u.mem = (moveBytes m.src m.dst (2 ^ 21) s.mem).store m.leafPa (leBytes 8
            ((BitVec.ofNat 64 (leNat (s.mem.bytes m.leafPa 8)) &&& 0xFF0000000000FFFF) ||| BitVec.ofNat 64 m.dst).toNat))
  ∧ (∀ m, s.migrations = [m] → m.moved = 0 → holdsLines s m.src = true → exec (.pageMigrationComplete 0) s = .next s)
  ∧ (∀ m, s.migrations = [m] → m.moved ≠ 0 →
      let tile := paTile m.src
      let n := poolCount (poolOf s tile)
      (coveredAccesses ⟨m.asid, m.va, 2 ^ 21⟩ s ≠ [] → exec (.pageMigrationComplete 0) s = .next s)
      ∧ (coveredAccesses ⟨m.asid, m.va, 2 ^ 21⟩ s = [] → n < 512 →
          ∃ u, exec (.pageMigrationComplete 0) s = .next u ∧ u.migrations = [] ∧ poolCount (poolOf u tile) = n + 1
            ∧ u.mem = s.mem.store (poolBase (poolOf s tile) + 8 * n) (leBytes 8 (BitVec.ofNat 64 m.src).toNat)))

/-- At its target, with nothing before it and not refused, and once the lines that it needs of a scratchpad have been
granted, an access performs: one of several lines with its last grant (log entry 101, DEDUCED). A read of memory
answers the bytes as they stand and changes none; a write stores its bytes and answers; a read of a register answers
its word, and a write of one acts as the register says (ASIDTAB by a firmware master alone). An amo, a cas and a
cas2 answer the old bytes and store the new. A full/empty access whose condition holds acts on its word and full
bit, another joins the waiters of the word. A barrier operation acts on its object as it stands (log entry 110,
DESIGN CHOICE), whatever its kind: done, stale with its cause, a value for barq, and a barwait that finds the phase
current watches on. While the grants are missing it does not perform. A refused access is answered as denied and
changes no memory; so is one to host memory that the host refuses, and while the host link is down such an access is
answered as unreachable. (R87, R103, R112, R190, R200, R201, R274, R276, R294, R297, R298, R313.) -/
def Obligations.AccessesPerform : Prop :=
  ∀ s id a, look s.accesses id = some a → atTarget s id a = true → a.void = false →
  let answers := fun (u : State) (r : Answer) => ∃ b, look u.accesses id = some b ∧ b.answer = some r ∧ b.performed = true
  let granted := ∀ c ls, accessPort s a = some (c, ls) → allServed c netRequester ls (takeGrants (wants s c) c netRequester ls s) = true
  let denied := fun (e : Instr) (x : W64) => ∃ u, exec e s = .next u ∧ u.mem = s.mem ∧ answers u (.denied x)
  (a.host = false → granted → a.denied = none → movedPa s a.pa = none →
    (∀ n ok, a.op = .read n → lineBad s a.pa n = false → isReg a.pa = false →
      ∃ u, exec (.homeLineAccess ⟨id, ok⟩) s = .next u ∧ u.mem = s.mem ∧ answers u (.data (s.mem.bytes a.pa n) .none))
    ∧ (∀ n ok, a.op = .read n → lineBad s a.pa n = true →
      ∃ u, exec (.homeLineAccess ⟨id, ok⟩) s = .next u ∧ u.mem = s.mem ∧ answers u .uncorrectable)
    ∧ (∀ d ok, a.op = .write d → isReg a.pa = false →
      ∃ u, exec (.homeLineAccess ⟨id, ok⟩) s = .next u ∧ u.mem = s.mem.storeMasked a.pa d ∧ answers u .ack)
    ∧ (∀ n ok, a.op = .read n → lineBad s a.pa n = false → isReg a.pa = true →
      ∃ u, exec (.homeLineAccess ⟨id, ok⟩) s = .next u ∧ u.mem = s.mem ∧ answers u (.data (readAny s a.pa n) .none)
        ∧ (a.pa = hubPa s + 0x200020 → n = 8 → readAny s a.pa n = leBytes 8 s.asidtab.toNat))
    ∧ (∀ v ok, a.op = .write ((bytes64 v).map some) → a.pa = hubPa s + 0x200020 →
      ∃ u, exec (.homeLineAccess ⟨id, ok⟩) s = .next u ∧ u.mem = s.mem ∧ answers u .ack
        ∧ u.asidtab = if isFirmware s a.master then v &&& 0x80FFFFFFFFF80000 else s.asidtab)
    ∧ (∀ o w v ok, a.op = .amo o w v → lineBad s a.pa w.bytes = false →
      ∃ u f, exec (.atomicPerform ⟨id, ok⟩) s = .next u ∧ answers u (.data (s.mem.bytes a.pa w.bytes) f)
        ∧ u.mem = s.mem.store a.pa (leBytes w.bytes (amoNew o w.bytes (leNat (s.mem.bytes a.pa w.bytes)) v.toNat).1))
    ∧ (∀ w e n ok, a.op = .cas w e n → lineBad s a.pa w.bytes = false →
      ∃ u, exec (.atomicPerform ⟨id, ok⟩) s = .next u ∧ answers u (.data (s.mem.bytes a.pa w.bytes) .none)
        ∧ u.mem = s.mem.store a.pa (leBytes w.bytes (if leNat (s.mem.bytes a.pa w.bytes) = e.toNat % 2 ^ (8 * w.bytes)
            then n.toNat % 2 ^ (8 * w.bytes) else leNat (s.mem.bytes a.pa w.bytes))))
    ∧ (∀ e n ok, a.op = .cas2 e n → lineBad s a.pa 16 = false →
      ∃ u, exec (.atomicPerform ⟨id, ok⟩) s = .next u ∧ answers u (.data (s.mem.bytes a.pa 16) .none)
        ∧ u.mem = s.mem.store a.pa (leBytes 16 (if leNat (s.mem.bytes a.pa 16) = e then n else leNat (s.mem.bytes a.pa 16))))
    ∧ (∀ k d ok, a.op = .fe k d → isWaiting s id a.pa = false →
      (feCond k (isFull s a.pa) = false → ∃ u w, exec (.homeLineAccess ⟨id, ok⟩) s = .next u ∧ u.mem = s.mem ∧ u.full = s.full
        ∧ look u.waiters (a.pa / 8) = some ((look s.waiters (a.pa / 8)).getD [] ++ [.remote id w]))
      ∧ (feCond k (isFull s a.pa) = true → lineBad s a.pa 8 = false → ∃ u v, exec (.homeLineAccess ⟨id, ok⟩) s = .next u ∧ answers u (.data (leBytes 8 v) .none)
        ∧ u.mem = (if k = .stwe ∨ k = .stf then s.mem.store a.pa (leBytes 8 d.toNat) else s.mem)
        ∧ (k = .ldwf ∨ k = .ldwfe → v = leNat (s.mem.bytes a.pa 8)) ∧ (k = .fetest → v = bit (isFull s a.pa))
        ∧ (k = .stwe ∨ k = .stf ∨ k = .feset → u.full = addSet s.full (a.pa / 8))
        ∧ (k = .ldwfe ∨ k = .feclr → u.full = delSet s.full (a.pa / 8))
        ∧ (k = .ldwf ∨ k = .fetest → u.full = s.full)))
    ∧ (∀ v n, a.op = .bar .arr v n → (barAct .arr (s.mem.bytes a.pa 32) v n).1 = .done →
      ∃ u, exec (.barrierAction id) s = .next u ∧ answers u .ack ∧ u.mem = s.mem.store a.pa (barAct .arr (s.mem.bytes a.pa 32) v n).2)
    ∧ (∀ k v n, a.op = .bar k v n → ∃ u, exec (.barrierAction id) s = .next u
        ∧ u.mem = (if k = .wait ∨ k = .query then s.mem else s.mem.store a.pa (barAct k (s.mem.bytes a.pa 32) v n).2)
        ∧ ((barAct k (s.mem.bytes a.pa 32) v n).1 = .done → answers u .ack)
        ∧ (∀ c, (barAct k (s.mem.bytes a.pa 32) v n).1 = .stale c → answers u (.stale c))
        ∧ (∀ w, (barAct k (s.mem.bytes a.pa 32) v n).1 = .value w → lineBad s a.pa 32 = false → answers u (.data (leBytes 8 w.toNat) .none))
        ∧ ((barAct k (s.mem.bytes a.pa 32) v n).1 = .blocked → ∃ b, look u.accesses id = some b ∧ b.watching = true ∧ b.answer = a.answer)))
  ∧ (a.host = false → ¬ granted → ∀ e ∈ [Instr.homeLineAccess ⟨id, true⟩, .atomicPerform ⟨id, true⟩, .barrierAction id],
      ∃ u, exec e s = .next u ∧ u.mem = s.mem ∧ u.accesses = s.accesses ∧ u.threads = s.threads)
  ∧ (∀ n x ok, a.host = false → a.op = .read n → a.denied = some x → denied (.homeLineAccess ⟨id, ok⟩) (BitVec.ofNat 64 x))
  ∧ (∀ x ok, a.host = false → isAtomic a.op = true → a.denied = some x → denied (.atomicPerform ⟨id, ok⟩) (BitVec.ofNat 64 x))
  ∧ (∀ k v n x, a.host = false → a.op = .bar k v n → a.denied = some x → denied (.barrierAction id) (BitVec.ofNat 64 x))
  ∧ (a.host = true → s.linkUp = true → (∀ n, a.op = .read n → denied (.homeLineAccess ⟨id, false⟩) 0) ∧ (∀ d, a.op = .write d → denied (.homeLineAccess ⟨id, false⟩) 0)
      ∧ (isAtomic a.op = true → denied (.atomicPerform ⟨id, false⟩) 0))
  ∧ (∀ n ok, a.host = true → s.linkUp = true → a.op = .read n → a.denied = none → ok = true →
      ∃ u, exec (.homeLineAccess ⟨id, ok⟩) s = .next u ∧ u.hostMem = s.hostMem ∧ answers u (.data (s.hostMem.bytes a.pa n) .none))
  ∧ (∀ d ok, a.host = true → s.linkUp = true → a.op = .write d → a.denied = none → ok = true →
      ∃ u, exec (.homeLineAccess ⟨id, ok⟩) s = .next u ∧ u.mem = s.mem ∧ u.hostMem = s.hostMem.storeMasked a.pa d ∧ answers u .ack)
  ∧ (∀ d ok, a.host = true → s.linkUp = false → a.op = .write d →
      ∃ u, exec (.homeLineAccess ⟨id, ok⟩) s = .next u ∧ u.hostMem = s.hostMem ∧ u.mem = s.mem ∧ answers u .unreachable)

/-- A waiting store goes to its interface, and from there into the local input of its router when that has a free slot
and the other channel is not in turn; it takes the last place of the queue that it enters. A request that no other
merges with goes, from the head of its input, over the link along X first and then along Y, when the link carries
traffic, has a credit and room to replay it, and the other channel is not in turn; it takes one credit. At its
router of destination it reaches its target, in its turn. Two requests that merge go on as one with the combined
operand, the first cut to the width. A bounced packet goes out again. An answer that has come back reaches its
thread and the access ends: the bytes of a read or an atomic become the late result, with the flags of an atomic; an
answer that is no data poisons it; a line of HBM that is no older than the reader enters the L1; an acknowledged
store leaves the thread as it was but for its clock, and one that was not performed is counted. The reply of a
merged atomic answers both issuers, the second as if it came after the first. (R112, R116, R118, R119, R120, R121,
R122, R125, R126, R207, R304, R376.) -/
def Obligations.PacketsAndResponses : Prop :=
  ∀ s id a, look s.accesses id = some a →
  let becomes := fun (e : Instr) (b : Access) => ∃ u, exec e s = .next u ∧ look u.accesses id = some b ∧ u.mem = s.mem
  let standsAt := fun (e : Instr) (p : Place) => ∃ u b, exec e s = .next u ∧ look u.accesses id = some b ∧ StandsAt s a b p ∧ u.mem = s.mem
  (a.place = .waiting → respRoom s a.owner 1 = true → isAmo a = false → (∀ b ∈ s.accesses, b.1 < id → b.2.owner = a.owner → b.2.place ≠ .waiting) →
      standsAt (.packetRoute id) (.out a.src.1 a.src.2 0 false))
  ∧ (∀ x y, a.place = .out x y 0 false → atHead s id a = true →
      (inputUse s x y 0 false < 8 → injectTurn s x y false = false → standsAt (.packetRoute id) (.request x y 0 false))
      ∧ (8 ≤ inputUse s x y 0 false ∨ injectTurn s x y false = true → exec (.packetRoute id) s = .next s))
  ∧ (∀ x y p, a.place = .request x y p false → p < 6 → mergePartner s id a = none →
      let toward := fun (i j q : Nat) =>
        let l := linkOf s (linkKey i j q)
        (l.held = false → 0 < l.credReq → l.unacked.length + requestFlits a.op ≤ 128 → otherTurn s (i, j, q) false = false →
          ∃ u, exec (.packetRoute id) s = .next u ∧ look u.accesses id = some { a with place := .request i j q true } ∧ u.mem = s.mem
            ∧ (linkOf u (linkKey i j q)).credReq = l.credReq - 1 ∧ (linkOf u (linkKey i j q)).sentResp = false)
        ∧ (l.held = true ∨ l.credReq = 0 ∨ 128 < l.unacked.length + requestFlits a.op ∨ otherTurn s (i, j, q) false = true → exec (.packetRoute id) s = .next s)
      (atHead s id a = false → exec (.packetRoute id) s = .next s)
      ∧ (atHead s id a = true → (x < a.dst.1 → toward (x + 1) y 4) ∧ (a.dst.1 < x → toward (x - 1) y 2)
        ∧ (x = a.dst.1 → (y < a.dst.2 → toward x (y + 1) 1) ∧ (a.dst.2 < y → toward x (y - 1) 3)
          ∧ (y = a.dst.2 → exitPort s a = 0 →
              (localTurn s x y false = false → becomes (.packetRoute id) { a with place := .target })
              ∧ (localTurn s x y false = true → exec (.packetRoute id) s = .next s)))))
  ∧ (∀ x y p j b o w v o' w' c, a.place = .request x y p false → mergePartner s id a = some (j, b) → entersFirst id a j b = true → a.op = .amo o w v → b.op = .amo o' w' c → keysRise s.accesses = true →
      ∃ u, exec (.packetRoute id) s = .next u ∧ u.mem = s.mem ∧ look u.accesses j = some { b with place := .absorbed }
        ∧ look u.accesses id = some { a with op := .amo o w (BitVec.ofNat 64 (amoNew o w.bytes (v.toNat % 2 ^ (8 * w.bytes)) c.toNat).1), merged := a.merged ++ [(j, v, x, y)] })
  ∧ (returned s id a = true → mayLeave s id a = true → a.answer = none → standsAt (.bounceReinject id) (.out a.src.1 a.src.2 (entryPort a.owner) false))
  ∧ (∀ r, returned s id a = true → mayLeave s id a = false → a.merged = [] → a.answer = some r → exec (.responseReceive id) s = .next s)
  ∧ (∀ k t, returned s id a = true → mayLeave s id a = true → a.merged = [] → a.owner = .thread k → getThread s k = some t → t.life = .running →
      let after := fun (t' : Thread) => ∃ u, exec (.responseReceive id) s = .next u ∧ u.accesses = erase s.accesses id ∧ u.mem = s.mem ∧ getThread u k = some t'
      let result := fun (f : Item → Result) (g : FpFlags) => ∀ i, t.flight = [i] → i.tag = a.tag → a.tag ≠ 0 → i.need = 1 → i.parts = [] → i.bad = none → t.saved = none →
        ∃ t' i', after t' ∧ t'.clock = max t.clock a.clock ∧ t'.regs = t.regs ∧ t'.flight = [i'] ∧ i'.value = some (f i) ∧ i'.flags = i.flags.or g
      (∀ n b, a.op = .read n → a.answer = some (.data b .none) → a.ownBytes = [] → result (fun i => formResult i.form b) .none)
      ∧ (isAtomic a.op = true → ∀ b g, a.answer = some (.data b g) → a.ownBytes = [] → result (fun i => formResult i.form b) g)
      ∧ (∀ n, a.op = .read n → a.answer = some .uncorrectable → result (fun i => formPoison i.form (eccPoison 1 a.pa)) .none)
      ∧ (∀ n x, a.op = .read n → a.answer = some (.denied x) → result (fun i => formPoison i.form { code := 0x0C, place := 0xB, arg0 := a.va, arg1 := x }) .none)
      ∧ (∀ n b u, a.op = .read n → a.answer = some (.data b .none) → exec (.responseReceive id) s = .next u →
          let d := dirOf s a.pa
          let old := (look s.l1 (coreOf k)).getD []
          (a.host = true ∨ isHbm a.pa = false ∨ a.clock < d.wtime → u.l1 = s.l1)
          ∧ (a.host = false → isHbm a.pa = true → d.wtime ≤ a.clock →
              look u.l1 (coreOf k) = some (((a.pa / 64, d.lease) :: old.filter fun x => decide (x.1 ≠ a.pa / 64)).take 2048)))
      ∧ (∀ d, a.op = .write d → a.answer = some .ack → after { t with clock := max t.clock a.clock })
      ∧ (∀ d x, a.op = .write d → a.answer = some (.denied x) → ∃ t', after t' ∧ t'.dropped = t.dropped + (lineStarts a.pa d.length).length ∧ t'.flight = t.flight
          ∧ t'.dropDev = some (t.dropDev.getD a.device)))
  ∧ (∀ b f, returned s id a = true → mayLeave s id a = true → a.merged = [] → a.owner = .host → a.answer = some (.data b f) →
      ∃ u, exec (.responseReceive id) s = .next u ∧ u.accesses = erase s.accesses id ∧ u.hostAnswers = s.hostAnswers ++ [b])
  ∧ (∀ j v x y b r o w c z, a.merged = [(j, v, x, y)] → returned s id a = true → inputUse s x y 0 true < 8 → a.answer = some (.data b r) → a.op = .amo o w c → look s.accesses j = some z → j ≠ id →
      keysRise s.accesses = true →
      ∃ u p q, exec (.mergedReplySplit id) s = .next u ∧ u.mem = s.mem ∧ look u.accesses id = some p ∧ p.merged = [] ∧ p.answer = a.answer ∧ look u.accesses j = some q
        ∧ q.answer = some (.data (leBytes w.bytes (amoNew o w.bytes (leNat b) v.toNat).1) .none) ∧ q.place = .response x y 0 false
        ∧ (o = .add → w = .w8 → q.answer = some (.data (leBytes 8 ((leNat b + v.toNat) % 2 ^ 64)) .none)))

/-- A good flit with the expected number is taken and counts; a bad one is dropped and asks for a replay; a replay sends
again what is not acknowledged, and after sixteen failures the link is held; an acknowledgement forgets what has
been received; a retrained link replays, and one that fails to retrain takes the package out of service. Credits
return one by one, and a synchronisation restates them. (R119, R122, R123, R124.) -/
def Obligations.LinkEvents : Prop :=
  ∀ s (k : LinkId),
  let n := linkKey k.x k.y k.port
  let l := linkOf s n
  (∀ f rest, l.wire = f :: rest → l.held = false →
      (f.seq = l.expect → ∃ u, exec (.flitReceive k true) s = .next u ∧ u.mem = s.mem ∧ (linkOf u n).expect = l.expect + 1 ∧ (linkOf u n).wire = rest ∧ (linkOf u n).fails = 0)
      ∧ exec (.flitReceive k false) s = .next (modLink n (fun l => { l with wire := rest, replay := true }) s))
  ∧ (l.replay = true → l.held = false → l.fails < 16 → exec (.replayRequest k) s = .next (modLink n (fun l =>
      { l with replay := false, fails := l.fails + 1, wire := l.unacked.filter fun f => decide (l.expect ≤ f.seq) }) s))
  ∧ (l.replay = true → l.held = false → 16 ≤ l.fails → exec (.replayRequest k) s = .next (modLink n (fun l => { l with held := true, wire := [] }) s))
  ∧ (l.syncReq = none → l.syncResp = none → ∃ u, exec (.linkAck k) s = .next u ∧ ∀ f ∈ (linkOf u n).unacked, f ∈ l.unacked ∧ l.expect ≤ f.seq)
  ∧ (l.held = true → ∃ u, exec (.linkRetrainDone k true) s = .next u ∧ (linkOf u n).held = false ∧ (linkOf u n).fails = 0
      ∧ (linkOf u n).wire = l.unacked.filter fun f => decide (l.expect ≤ f.seq))
  ∧ (l.held = true → s.service = .running → ∃ u, exec (.linkRetrainDone k false) s = .next u ∧ u.service = .outOfService)
  ∧ (0 < l.owedReq → l.syncReq = none → l.credReq < 8 → exec (.creditReturn k false) s = .next (modLink n (fun l =>
      { l with owedReq := l.owedReq - 1, credReq := l.credReq + 1 }) s))
  ∧ (l.syncReqAt + 256 ≤ s.cc → l.syncReq = none → ∃ u, exec (.creditSyncSend k false) s = .next u
      ∧ (linkOf u n).syncReq = some (8 - slotsHeld s n false, l.lastReq) ∧ (linkOf u n).owedReq = 0 ∧ (linkOf u n).syncReqAt = s.cc)
  ∧ (∀ free last, l.syncReq = some (free, last) → ∃ u, exec (.creditSyncReceive k false) s = .next u
      ∧ (linkOf u n).syncReq = none ∧ (linkOf u n).credReq = free - headsAfter l false last)

/-- At the end of a window an in-service lane stores what it measured; above 2×10^-3, or with 16 uncorrectable
codewords, it leaves service with code none; a pinned lane keeps its code, and its good windows in a row still
count, up to the 255 that the next one can complete (log entry 114, DEDUCED); another asks for the code its rule
gives. A request sets the marker of the sender; the receiver switches at the marker, and a pinned lane then goes on
to its pinned code; a request without a marker for 1 ms is sent again. PIN and DIS act on the lane; a loopback lane
that is enabled is calibrated at once (a choice of the model, log entry 84). (R131, R132, R133, R141.) -/
def Obligations.LaneStrength : Prop :=
  ∀ s (i : Nat),
  let l := laneAt s i
  let goes := fun (e : Instr) (f : Lane → Lane) => ∃ u, exec e s = .next u ∧ laneAt u i = f l ∧ u.mem = s.mem
  (∀ w n, l.rx = 2 →
      let stored := fun (l : Lane) => { l with w := w, uncorr := min 0xFFFF (l.uncorr + n) }
      ((wAbove w 2 3 = true ∨ 16 ≤ n) → ∃ u, exec (.berWindow i w n) s = .next u ∧ (laneAt u i).rx = 0 ∧ (laneAt u i).code = 3)
      ∧ (wAbove w 2 3 = false → n < 16 → l.pin = true → goes (.berWindow i w n) fun l =>
          { stored l with good := if (l.code = 1 ∧ wBelow w 1 9 = true) ∨ (l.code = 2 ∧ wBelow w 2 7 = true) then min 255 (l.good + 1) else 0 })
      ∧ (wAbove w 2 3 = false → n < 16 → l.pin = false → l.pending = none → l.code = 1 → wAbove w 2 5 = false →
          (wBelow w 1 9 = false → goes (.berWindow i w n) fun l => { stored l with good := 0 })
          ∧ (wBelow w 1 9 = true → l.good < 255 → goes (.berWindow i w n) fun l => { stored l with good := l.good + 1 })
          ∧ (wBelow w 1 9 = true → 255 ≤ l.good → goes (.berWindow i w n) fun l => { stored l with good := 0, pending := some 0, requestedAt := s.cc }))
      ∧ (wAbove w 2 3 = false → n < 16 → l.pin = false → l.pending = none → l.code = 0 → wAbove w 1 7 = true →
          goes (.berWindow i w n) fun l => { stored l with good := 0, pending := some 1, requestedAt := s.cc })
      ∧ (wAbove w 2 3 = false → n < 16 → l.pin = false → l.pending = none → l.code = 1 → wAbove w 2 5 = true →
          goes (.berWindow i w n) fun l => { stored l with good := 0, pending := some 2, requestedAt := s.cc })
      ∧ (wAbove w 2 3 = false → n < 16 → l.pin = false → l.pending = none → l.code = 2 → wBelow w 2 7 = true →
          (l.good < 255 → goes (.berWindow i w n) fun l => { stored l with good := l.good + 1 })
          ∧ (255 ≤ l.good → goes (.berWindow i w n) fun l => { stored l with good := 0, pending := some 1, requestedAt := s.cc })))
  ∧ (∀ c, l.tx = 2 → c.toNat ≤ 2 → goes (.codeRequest i c) fun l => { l with marker := some c.toNat })
  ∧ (l.pending.isSome = true → l.requestedAt + 1600000 ≤ s.cc → goes (.codeMarkerTimeout i) fun l => { l with requestedAt := s.cc })
  ∧ (∀ c, l.pending = some c →
      let switched : Lane := { l with code := c, pending := l.decided, decided := none, requestedAt := s.cc, good := 0 }
      ((l.rx ≠ 2 ∨ l.pin = false) → goes (.codeChange i) fun _ => switched)
      ∧ (l.rx = 2 → l.pin = true → l.decided = none → goes (.codeChange i) fun _ =>
          if c = min l.pcode 2 then switched else { switched with pending := some (min l.pcode 2) }))
  ∧ (∀ c, l.pending = none → l.marker = some c → goes (.codeChange i) fun l => { l with txCode := c, marker := none })
  ∧ (∀ p c, l.rx ≠ 2 ∨ p = false → goes (.lanePinWrite i p c) fun l => { l with pin := p, pcode := c.toNat })
  ∧ (∀ c : BitVec 2, l.rx = 2 → goes (.lanePinWrite i true c) fun l =>
      let k := min c.toNat 2
      match l.pending with
      | some q => { l with pin := true, pcode := c.toNat, decided := if q = k then none else some k }
      | none => if l.code = k then { l with pin := true, pcode := c.toNat } else { l with pin := true, pcode := c.toNat, pending := some k, requestedAt := s.cc })
  ∧ (l.rx = 2 → ∃ u, exec (.laneDisWrite i true) s = .next u ∧ u.mem = s.mem ∧ (laneAt u i).dis = true ∧ (laneAt u i).rx = 0)
  ∧ (l.rx ≠ 2 → goes (.laneDisWrite i true) fun l => { l with dis := true, rx := 0 })
  ∧ (l.dis = true → l.rx = 0 → isMember s (rxPeer s.cfg.device i) = true → rxPeer s.cfg.device i ≠ s.cfg.device →
      goes (.laneDisWrite i false) fun l => { l with dis := false, rx := 1 })
  ∧ (l.dis = true → l.rx = 0 → i = loopLane s.cfg.device → goes (.laneDisWrite i false) fun l => { l with dis := false, rx := 3 })

/-- A comb that is lost takes its 32 transmit lanes out of service, and the live circuits to its engine go DOWN; once
locked again, while the device is in service, the lanes of members train and the loopback lane is calibrated at once
(a choice of the model, log entry 84). A lane that loses tuning or signal leaves service with code none; one that
comes up with the tag of the domain starts at strong, and with another tag its peer is no member. The notice of the
other end moves our end of the lane, and what it says of the lanes of a relay is kept. A device out of service
brings up no transmit lane. An acknowledgement empties the replay buffer up to its number. (R17, R130, R133, R140,
R141, R142, R144, R152, R378.) -/
def Obligations.LanesAndCombs : Prop :=
  ∀ s (i e : Nat), keysRise s.lanes = true →
  let l := laneAt s i
  let own := s.cfg.device
  (e < 32 → s.combsFailed.contains e = false → ∃ u, exec (.combLoss e) s = .next u ∧ e ∈ u.combsFailed ∧ u.mem = s.mem
      ∧ (i / 32 = e → laneAt u i = { l with tx := 0, txCode := 3, marker := none, replay := [] }) ∧ (i / 32 ≠ e → laneAt u i = l)
      ∧ (∀ c h x, getCtx s c = some x → keysRise s.ctxs = true → keysRise x.handles = true → (handleAt x h).state = .live → (handleAt x h).sink = 128 + e →
          ∃ y, getCtx u c = some y ∧ (handleAt y h).state = .down ∧ (handleAt y h).cause = 4))
  ∧ (setRises s.combsFailed = true → e ∈ s.combsFailed → ∃ u, exec (.combRelock e) s = .next u ∧ e ∉ u.combsFailed
      ∧ (s.service = .running → i / 32 = e → l.tx = 0 → isMember s (txPeer own i) = true → txPeer own i ≠ own → laneAt u i = { l with tx := 1 })
      ∧ (s.service = .running → i / 32 = e → l.tx = 0 → i = loopLane own → laneAt u i = { l with tx := 3 })
      ∧ (s.service ≠ .running → laneAt u i = l))
  ∧ (l.rx = 2 → (∃ u, exec (.tuneLoss i true) s = .next u ∧ (laneAt u i).rx = 0 ∧ (laneAt u i).code = 3 ∧ (laneAt u i).pending = none)
      ∧ (∃ u, exec (.laneDown i true) s = .next u ∧ (laneAt u i).rx = 0 ∧ (laneAt u i).code = 3 ∧ (laneAt u i).pending = none))
  ∧ (l.tx = 2 → (∃ u, exec (.tuneLoss i false) s = .next u ∧ (laneAt u i).tx = 0 ∧ (laneAt u i).txCode = 3 ∧ (laneAt u i).replay = [])
      ∧ (∃ u, exec (.laneDown i false) s = .next u ∧ (laneAt u i).tx = 0 ∧ (laneAt u i).txCode = 3 ∧ (laneAt u i).replay = []))
  ∧ (∀ tag : BitVec 64,
      let stranger := fun (d : Nat) (u : State) => (peerAt u d).tagOk = false ∧ (peerAt u d).reachable = false ∧ u.mem = s.mem
      (l.rx < 2 → l.dis = false → isMember s (rxPeer own i) = true → rxPeer own i ≠ own →
        (tag.toNat = s.domtag → l.pin = false → ∃ u, exec (.laneUp i ⟨true, tag⟩) s = .next u ∧ laneAt u i = { l with rx := 2, code := 2, good := 0 })
        ∧ (tag.toNat = s.domtag → l.pin = true → l.pending = none → l.pcode < 2 → ∃ u, exec (.laneUp i ⟨true, tag⟩) s = .next u
            ∧ laneAt u i = { l with rx := 2, code := 2, good := 0, pending := some l.pcode, requestedAt := s.cc })
        ∧ (tag.toNat ≠ s.domtag → ∃ u, exec (.laneUp i ⟨true, tag⟩) s = .next u ∧ stranger (rxPeer own i) u ∧ (laneAt u i).rx = 0))
      ∧ (s.service ≠ .running → exec (.laneUp i ⟨false, tag⟩) s = .next s)
      ∧ (s.service = .running → l.tx < 2 → s.combsFailed.contains (i / 32) = false → isMember s (txPeer own i) = true → txPeer own i ≠ own →
        (tag.toNat = s.domtag → ∃ u, exec (.laneUp i ⟨false, tag⟩) s = .next u ∧ laneAt u i = { l with tx := 2, txCode := 2 })
        ∧ (tag.toNat ≠ s.domtag → ∃ u, exec (.laneUp i ⟨false, tag⟩) s = .next u ∧ stranger (txPeer own i) u ∧ (laneAt u i).tx = 0)))
  ∧ (∀ (r : RecordWords) (d : Nat), isMember s d = true → d ≠ own → bits r.w2.toNat 54 10 = d → 1 ≤ recClass r → recClass r ≤ 6 →
      let up := recClass r = 6
      let t := laneAt s (txLane own d)
      let v := laneAt s (rxLane own d)
      ((recPeers r).contains own = true → flag r.w0.toNat 50 = true → flag r.w0.toNat 51 = true → ∃ u, exec (.laneNotice ⟨d, r⟩) s = .next u ∧ u.mem = s.mem
        ∧ (up → t.tx < 2 → s.service = .running → s.combsFailed.contains (groupOf d) = false → (laneAt u (txLane own d)).tx = 2 ∧ (laneAt u (txLane own d)).txCode = 2)
        ∧ (¬ up → t.tx = 2 → (laneAt u (txLane own d)).tx = 0 ∧ (laneAt u (txLane own d)).txCode = 3 ∧ (laneAt u (txLane own d)).replay = []))
      ∧ ((recPeers r).contains own = true → flag r.w0.toNat 50 = true → flag r.w0.toNat 51 = false → ∃ u, exec (.laneNotice ⟨d, r⟩) s = .next u ∧ u.mem = s.mem
        ∧ (up → v.rx < 2 → v.dis = false → (laneAt u (rxLane own d)).rx = 2 ∧ (laneAt u (rxLane own d)).code = 2)
        ∧ (¬ up → v.rx = 2 → (laneAt u (rxLane own d)).rx = 0 ∧ (laneAt u (rxLane own d)).code = 3))
      ∧ (flag r.w0.toNat 51 = false → setRises s.secondDown = true → ∀ f ∈ recPeers r, f ≠ own → f ≠ d → s.dommap.contains f = true →
        ∃ u, exec (.laneNotice ⟨d, r⟩) s = .next u ∧ u.mem = s.mem ∧ (up → memSet u.secondDown (hopKey d f) = false) ∧ (¬ up → recClass r ≠ 2 → memSet u.secondDown (hopKey d f) = true)))
  ∧ (∀ n, ∃ u, exec (.laneFrameAck i n) s = .next u ∧ u.mem = s.mem ∧ ∀ r, r ∈ (laneAt u i).replay ↔ r ∈ l.replay ∧ n < r.1)

/-- An ORD frame with the expected number is applied and the count advances; a later one is held. A BULK frame is
applied when it comes; a flag frame is held until its counts are reached; a frame applied or held before is a
duplicate, and discarded. An acknowledged frame leaves; one that is 50 µs old is discarded; one unacknowledged for
20 µs, or whose path is gone, is sent again, applied or not, by its named path while that is usable, else by the
basic choice (which path that is: log entry 36, DESIGN CHOICE), which is recorded as PATH_CHANGE each time (log
entry 106, DESIGN CHOICE); a relay forwards a frame; credits come back. A frame of a peer asks for its line accesses
here: an ORD frame in its turn, a BULK frame that is no duplicate, a flag frame when its counts are reached; one for
another member waits in the buffer of its lane and is sent on. The answer of another device to an ORD frame is
applied in the sequence of its ORD frames (its number is deduced: log entry 113), and the answer to an ORD frame of
a peer leaves as an ORD frame (log entry 72, DEDUCED). (R134, R135, R136, R137, R138, R139, R140, R183.) -/
def Obligations.FramesOfThisDevice : Prop :=
  ∀ s id f, look s.frames id = some f → keysRise s.frames = true →
  let p := peerAt s f.peer
  let own := s.cfg.device
  let ours : FrameRef := { src := own, id := id, via := own, body := none }
  let changed := fun (e : Instr) (g : Frame → Frame) => ∃ u, exec e s = .next u ∧ look u.frames id = some (g f) ∧ u.mem = s.mem
  (arriving s.cc f = true → f.applied = true ∨ f.held = true →
      (f.cls = .ord → changed (.ordFrameReceive ours) fun f => { f with inFlight := false })
      ∧ (f.cls ≠ .ord → changed (.bulkFrameReceive ours) fun f => { f with inFlight := false }))
  ∧ (arriving s.cc f = true → f.applied = false → f.held = false → look s.accesses f.access = none →
      (f.cls = .ord → f.seq = waitsFor s f → ∃ u x, exec (.ordFrameReceive ours) s = .next u ∧ look u.frames id = some x ∧ x.applied = true ∧ x.inFlight = false)
      ∧ (f.cls = .ord → f.seq ≠ waitsFor s f → changed (.ordFrameReceive ours) fun f => { f with held := true, inFlight := false })
      ∧ (f.pair = none → waitsFor s f = p.ordThere)
      ∧ (f.cls = .bulk → ∃ u, exec (.bulkFrameReceive ours) s = .next u ∧ look u.frames id = some { f with applied := true, held := false, inFlight := false }
          ∧ (peerAt u f.peer).appliedThere = bump p.appliedThere f.firstPath)
      ∧ (f.cls = .flagged → changed (.bulkFrameReceive ours) fun f => { f with held := true, inFlight := false }))
  ∧ (f.cls = .flagged → f.held = true → f.flagSeq = p.flagThere → countsReached p.appliedThere f.carried = true → look s.accesses f.access = none →
      ∃ u, exec (.flagFrameApply ours) s = .next u ∧ look u.frames id = some { f with applied := true, held := false } ∧ (peerAt u f.peer).flagThere = p.flagThere + 1)
  ∧ (f.cls = .flagged → countsReached p.appliedThere f.carried = false → exec (.flagFrameApply ours) s = .next s)
  ∧ (f.applied = true → ∃ u, exec (.frameAckReceive id) s = .next u ∧ u.frames = erase s.frames id ∧ (peerAt u f.peer).lastHeard = s.cc ∧ (peerAt u f.peer).silent = false)
  ∧ (f.entered + 80000 ≤ s.cc → f.inFlight = true → changed (.frameAgeDiscard id) fun f => { f with inFlight := false, atRelay := false })
  ∧ (s.cc < f.entered + 80000 → (∀ r ∈ s.relayed, r.1 = id → s.cc < r.2.deadline) → exec (.frameAgeDiscard id) s = .next s)
  ∧ (p.silent = false → f.sentAt + 32000 ≤ s.cc ∨ pathGone s f = true →
      let again := fun (q : Nat) (x : Frame) => x = { f with path := q, hop := firstHop s f.peer q, laneNo := (laneAt s (txLane own (firstHop s f.peer q))).frameNo, sentAt := s.cc,
                                                             entered := s.cc, atRelay := decide (q ≠ 0), inFlight := true }
      (∀ q, namedPath f.sel = none → basicPath s f.peer = some q → pathRoom s f.peer q = true →
        ∃ u x, exec (.frameResendTimeout id f.path) s = .next u ∧ u.mem = s.mem ∧ look u.frames id = some x ∧ again q x)
      ∧ (∀ q, namedPath f.sel = some q → pathUsable s f.peer q = true → pathRoom s f.peer q = true →
        ∃ u x, exec (.frameResendTimeout id f.path) s = .next u ∧ u.mem = s.mem ∧ look u.frames id = some x ∧ again q x)
      ∧ (∀ q n, namedPath f.sel = some n → pathUsable s f.peer n = false → basicPath s f.peer = some q → pathRoom s f.peer q = true →
        ∃ u x r, exec (.frameResendTimeout id f.path) s = .next u ∧ look u.frames id = some x ∧ again q x ∧ u.log = s.log ++ [.record r] ∧ recClass r = clPathChange)
      ∧ (namedPath f.sel = none → basicPath s f.peer = none → exec (.frameResendTimeout id f.path) s = .next s))
  ∧ (p.silent = true → exec (.frameResendTimeout id f.path) s = .next s)
  ∧ (s.cc < f.sentAt + 32000 → pathGone s f = false → exec (.frameResendTimeout id f.path) s = .next s)
  ∧ (f.inFlight = true → (f.laneNo, id) ∈ (laneAt s (txLane own f.hop)).replay → changed (.laneFrameReplay id) fun f => { f with atRelay := decide (f.path ≠ 0) })
  ∧ (look s.relayed id = none → f.inFlight = true → wayUp s f.peer f.hop = true → changed (.relayForward id) fun f => { f with atRelay := false })
  ∧ (∀ n r, look s.relayed n = some r → (txUp s r.dst = true → s.cc < r.deadline → exec (.relayForward n) s = .next { s with relayed := erase s.relayed n })
      ∧ (txUp s r.dst = false → exec (.relayForward n) s = .next s))
  ∧ (∀ a b, isMember s f.peer = true → p.ordCredits + a + inUse s f.peer true ≤ 32 → p.bulkCredits + b + inUse s f.peer false ≤ 32 →
      ∃ u, exec (.endToEndCredit f.peer a b) s = .next u ∧ u.frames = s.frames ∧ (peerAt u f.peer).ordCredits = p.ordCredits + a ∧ (peerAt u f.peer).bulkCredits = p.bulkCredits + b)
  ∧ (∀ j v b, isMember s f.peer = true → p.reachable = true → f.peer ≠ own → (laneAt s (rxLane own v)).rx = 2 → b.age < 80000 →
      let theirs : FrameRef := { src := f.peer, id := j, via := v, body := some b }
      let enters := fun (e : Instr) => ∃ u, exec e s = .next u ∧ u.mem = s.mem ∧ ∀ x ∈ frameParts b.pa b.op, ∃ n a, look u.accesses n = some a
        ∧ a.owner = .peer f.peer j ∧ a.pa = b.pa + x.1 ∧ a.op = x.2 ∧ a.master = b.master
        ∧ a.place = .out (engineRouter (groupOf f.peer)).1 (engineRouter (groupOf f.peer)).2 7 (decide (s.evstate = 4))
        ∧ a.answer = if s.evstate = 4 then some .unreachable else none
      (paDevice b.pa = own →
        (b.cls = .ord → s.held = [] → carriedHere s b.pa = none → b.seq = p.ordHere → enters (.ordFrameReceive theirs))
        ∧ (b.cls = .ord → carriedHere s b.pa = none → 32 ≤ (b.seq + 2 ^ 32 - p.ordHere) % 2 ^ 32 → exec (.ordFrameReceive theirs) s = .next (hear f.peer s))
        ∧ (b.cls = .bulk → j ∉ p.idsHere → enters (.bulkFrameReceive theirs))
        ∧ (b.cls ≠ .ord → j ∈ p.idsHere → exec (.bulkFrameReceive theirs) s = .next (hear f.peer s))
        ∧ (b.cls = .flagged → j ∉ p.idsHere → ∃ u, exec (.bulkFrameReceive theirs) s = .next u ∧ u.accesses = s.accesses ∧ u.held = s.held ++ [{ src := f.peer, id := j, body := b }])
        ∧ (b.cls = .flagged → s.held = [{ src := f.peer, id := j, body := b }] → b.flagSeq = p.flagHere → countsReached p.appliedHere b.carried = true → enters (.flagFrameApply theirs)))
      ∧ (∀ e, paDevice b.pa = e → e ≠ own → e ≠ f.peer → isMember s e = true → v = f.peer →
        let waits := (s.relayed.filter fun r => decide (r.2.lane = rxLane own f.peer)).length
        let receive := if b.cls = .ord then exec (.ordFrameReceive theirs) s else exec (.bulkFrameReceive theirs) s
        (waits < 16 → receive = .next { s with
          relayed := put s.relayed s.fresh { src := f.peer, dst := e, id := j, lane := rxLane own f.peer, deadline := s.cc + (80000 - b.age) }
          fresh := s.fresh + 1 })
        ∧ (16 ≤ waits → receive = .next s)))
  ∧ (∀ n a, look s.accesses n = some a → a.place = .back → reachable s a.device = true → usablePaths s a.device ≠ [] → classOf a = .ord →
      let q := peerAt s a.device
      (a.backSeq = q.ordHere → s.held = [] → ∃ u b, exec (.packetRoute n) s = .next u ∧ look u.accesses n = some b ∧ StandsAt s a b (replyPlace s a)
        ∧ (peerAt u a.device).ordHere = (q.ordHere + 1) % 2 ^ 32)
      ∧ (a.backSeq ≠ q.ordHere → exec (.packetRoute n) s = .next s))
  ∧ (∀ n a r j q, look s.accesses n = some a → returned s n a = true → mayLeave s n a = true → a.merged = [] → a.owner = .peer f.peer j → a.answer = some r →
      a.buffered = true → (∀ c ∈ s.accesses, c.1 ≠ n → c.2.owner ≠ .peer f.peer j) → reachable s f.peer = true → peerHeld s f.peer = false → basicPath s f.peer = some q →
      frameRoom s f.peer q .ord = true →
      ∃ u x, exec (.responseReceive n) s = .next u ∧ u.accesses = erase s.accesses n ∧ look u.frames s.fresh = some x ∧ x.peer = f.peer ∧ x.cls = .ord
        ∧ x.seq = p.ordSend ∧ x.path = q ∧ (peerAt u f.peer).ordSend = (p.ordSend + 1) % 2 ^ 32)

/-- Keepalives are sent and heard. A peer not heard for 50 µs is silent; one not heard for 100 µs is unreachable and
lost, no frame to or from it stays, and the accesses under way to it are answered as unreachable. A lost peer is
then treated as absent, and the relays of the destinations that went by it are filled again. When a path is up again
it is reachable with counts from 0 and all its credits, and the relays are filled with it present (which devices
count as present is log entry 74, DEDUCED). The notices held for a silent peer go out when it is heard. (R134, R143,
R385.) -/
def Obligations.PeersComeAndGo : Prop :=
  ∀ s d, isMember s d = true → d ≠ s.cfg.device →
  let p := peerAt s d
  (reachable s d = true → usablePaths s d ≠ [] → exec (.keepaliveSend d) s = .next (modPeer d (fun p => { p with keepaliveAt := s.cc }) s))
  ∧ (s.heldNotices = [] → exec (.keepaliveReceive d) s = .next (modPeer d (fun p => { p with lastHeard := s.cc, silent := false }) s))
  ∧ (∃ u, exec (.keepaliveReceive d) s = .next u ∧ u.mem = s.mem ∧ peerAt u d = { p with lastHeard := s.cc, silent := false }
      ∧ (ctrlReaches s d = true → u.notices = s.notices ++ (s.heldNotices.filter fun x => decide (x.1 = d)) ∧ ∀ x ∈ u.heldNotices, x.1 ≠ d)
      ∧ (ctrlReaches s d = false → u.notices = s.notices ∧ u.heldNotices = s.heldNotices))
  ∧ (p.reachable = true → p.lastHeard + 80000 ≤ s.cc → exec (.peerSilenceHold d) s = .next (modPeer d (fun p => { p with silent := true }) s))
  ∧ (s.cc < p.lastHeard + 80000 → exec (.peerSilenceHold d) s = .next s)
  ∧ (p.reachable = true → p.lastHeard + 160000 ≤ s.cc → keysRise s.accesses = true → ∃ u, exec (.peerLost d) s = .next u ∧ (peerAt u d).reachable = false ∧ (peerAt u d).lost = true ∧ u.mem = s.mem
      ∧ (∀ f ∈ u.frames, f.2.peer ≠ d) ∧ (∀ h ∈ u.held, h.src ≠ d)
      ∧ (∀ id a, look s.accesses id = some a → a.host = false → a.device = d → a.place = .fabric ∨ a.place = .back ∨ a.place = .target →
          ∃ b, look u.accesses id = some b ∧ b.answer = some .unreachable ∧ b.place = replyPlace s a ∧ b.entered = s.cc
            ∧ { b with answer := a.answer, place := a.place, entered := a.entered, order := a.order } = a))
  ∧ (p.reachable = true → s.cc < p.lastHeard + 160000 → p.lostAt = none → exec (.peerLost d) s = .next s)
  ∧ (p.reachable = false → usablePaths s d ≠ [] → ∃ u, exec (.peerBack d) s = .next u ∧ u.mem = s.mem
      ∧ peerAt u d = { member := p.member, tagOk := p.tagOk, reachable := true, lastHeard := s.cc, keepaliveAt := s.cc }
      ∧ (keysRise s.rlytab = true → let v := modPeer d (fun p => { p with absent := false }) s
        ∀ e ∈ s.dommap, e ≠ s.cfg.device →
          let word := fun (has : Nat → Bool) => relayWord (defaultRelays s.cfg.device e has)
          (word (present s) ≠ word (present v) → look u.rlytab e = some (word (present v))) ∧ (word (present s) = word (present v) → look u.rlytab e = look s.rlytab e)))
  ∧ (p.lost = true → p.absent = false → keysRise s.rlytab = true →
      let v := modPeer d (fun p => { p with absent := true }) s
      ∃ u, exec (.relayRefill d) s = .next u ∧ u.mem = s.mem ∧ (peerAt u d).absent = true
      ∧ ∀ e ∈ s.dommap, e ≠ s.cfg.device →
          let through := [1, 2, 3].any fun k => relayOn (rlyWord s e) k && decide (relayOf (rlyWord s e) k = d)
          (through = true → look u.rlytab e = some (relayWord (defaultRelays s.cfg.device e (present v)))) ∧ (through = false → look u.rlytab e = look s.rlytab e))
  ∧ (p.lost = false ∨ p.absent = true → exec (.relayRefill d) s = .next s)

/-- At its step a group performs: a hold, an est on free ports, a tear, a policy, a jump, whose words perform in the
next cc, or the end of the program; an est that waits for ports that are being torn lets the program go on (a choice
of the model, log entry 97); an est in conflict brings its handle DOWN and ends the program; rpt and waitc go on
when their step or condition is met. A path settles in 240 cc; a failure brings it DOWN, to be repaired when its
policy was basic then; the sequencer repairs it, after a failure of the source ring from a free side of its tile, or
gives up; a failure event with a context of 16 or more stands for an automatic circuit, which fails at once (log
entry 46, DESIGN CHOICE). A tear waits for the step of every member, those that ceased to count in this cc included,
and then for what is under way. A vector lands with the last grant of the lines of its slot (log entry 101,
DEDUCED), if the tables of its issue allow its sender the write (log entry 45, DEDUCED), and an unused automatic
circuit is torn. (R152, R153, R154, R155, R156, R158, R159, R163, R165, R167, R190.) -/
def Obligations.CircuitProgramsAndHandles : Prop :=
  ∀ s c x, getCtx s c = some x → keysRise s.ctxs = true →
  let becomes := fun (e : Instr) (y : Ctx) => ∃ u, exec e s = .next u ∧ getCtx u c = some y ∧ u.mem = s.mem
  let handle := fun (e : Instr) (h : Nat) (p : CHandle → Prop) => ∃ u y, exec e s = .next u ∧ getCtx u c = some y ∧ p (handleAt y h)
  (∀ t t' h, x.mode = .atStep → x.prog[x.idx]? = some (.step t) → x.prog[x.idx + 1]? = some (.hold h) → x.prog[x.idx + 2]? = some (.step t') → (handleAt x h).state ≠ .idle →
      (leaderAt s x (x.base + t) = true → becomes (.step c) { x with cur := x.base + t, idx := x.idx + 2, mode := .atStep, handles := put x.handles h { handleAt x h with retained := true } })
      ∧ (leaderAt s x (x.base + t) = false → exec (.step c) s = .next s))
  ∧ (x.mode = .group → s.cc < x.notBefore → exec (.step c) s = .next s)
  ∧ (x.mode = .group → x.notBefore ≤ s.cc →
   (∀ h src sink t, x.prog[x.idx]? = some (.est h src sink) → x.prog[x.idx + 1]? = some (.step t) → (handleAt x h).state = .idle → x.pendingEst.contains h = false →
      (estConflict s c h src sink = false → estHeld s c h src sink = false → handle (.step c) h fun y =>
        y.state = .settling ∧ y.src = src ∧ y.sink = sink ∧ y.gen = ((handleAt x h).gen + 1) % 256 ∧ y.since = s.cc ∧ y.retained = false ∧ y.sent = 0 ∧ y.landed = 0)
      ∧ (estConflict s c h src sink = false → estHeld s c h src sink = true → becomes (.step c) { x with
          idx := x.idx + 1, mode := .atStep, pendingEst := x.pendingEst ++ [h], handles := put x.handles h { handleAt x h with src := src, sink := sink } })
      ∧ (estConflict s c h src sink = true → handle (.step c) h fun y => y.state = .down ∧ y.cause = 7))
  ∧ (∀ n, x.prog[x.idx]? = some (.jmpc n) → becomes (.step c) { x with base := x.cur, idx := n, mode := .group, notBefore := s.cc + 1 })
  ∧ (∀ h e t, x.prog[x.idx]? = some (.rpol h e) → x.prog[x.idx + 1]? = some (.step t) →
      becomes (.step c) { x with idx := x.idx + 1, mode := .atStep, handles := put x.handles h { handleAt x h with expert := e } })
  ∧ (∀ h t, x.prog[x.idx]? = some (.tear h) → x.prog[x.idx + 1]? = some (.step t) → (handleAt x h).state ≠ .idle → (handleAt x h).tearFrom = none →
      becomes (.step c) { x with idx := x.idx + 1, mode := .atStep, handles := put x.handles h { handleAt x h with tearFrom := some x.cur, retained := false } })
  ∧ (x.prog[x.idx]? = some .endc → (∀ h ∈ x.handles, h.2.state = .idle) → ∃ u, exec (.step c) s = .next u ∧ getCtx u c = none ∧ u.mem = s.mem))
  ∧ (∀ k n i h, x.mode = .repeating k n i → 0 < k → k + 1 < n → x.prog[x.idx]? = some (.hold h) → (handleAt x h).state ≠ .idle →
      (leaderAt s x (x.cur + i) = true → becomes (.rptRepetition c) { x with cur := x.cur + i, mode := .repeating (k + 1) n i, handles := put x.handles h { handleAt x h with retained := true } })
      ∧ (leaderAt s x (x.cur + i) = false → exec (.rptRepetition c) s = .next s))
  ∧ (∀ h cond t, x.mode = .waiting → x.prog[x.idx]? = some (.waitc h cond) → x.prog[x.idx + 1]? = some (.step t) →
      (condHolds s x h cond = true → becomes (.waitc c) { x with idx := x.idx + 1, mode := .atStep })
      ∧ (condHolds s x h cond = false → exec (.waitc c) s = .next s))
  ∧ (∀ h, let y := handleAt x h
      (y.state = .settling → y.since + 240 ≤ s.cc → exec (.circuitSettled c h) s = .next (modHandle c h (fun y => { y with state := .live }) s))
      ∧ (s.cc < y.since + 240 → exec (.circuitSettled c h) s = .next s)
      ∧ (∀ f, c < 16 → 1 ≤ f → f ≤ 2 → y.state = .settling ∨ y.state = .live → handle (.circuitFailure c h f) h fun z => z.state = .down ∧ z.cause = f ∧ z.gen = y.gen ∧ z.repairable = !y.expert)
      ∧ (∀ f, 16 ≤ c → exec (.circuitFailure c h f) s = .next { s with autos := s.autos.filter fun a => decide (a.src ≠ h) })
      ∧ (y.state = .down → y.repairable = true → exec (.circuitRepairStart c h) s = .next (modHandle c h (fun y =>
          { y with state := .repairing, gen := (y.gen + 1) % 256, sent := 0, landed := 0, since := s.cc }) s))
      ∧ (y.repairable = false → exec (.circuitRepairStart c h) s = .next s)
      ∧ (∀ p, y.state = .repairing → y.repairable = true → handle (.circuitRepairSearchEnd c h false p) h fun z => z.state = .down ∧ z.cause = 6)
      ∧ (∀ p, y.state = .repairing → y.repairable = true → y.cause = 1 → s.cc ≤ y.since + 3200 →
          handle (.circuitRepairSearchEnd c h true p) h fun z => z = { y with since := s.cc, repairable := false })
      ∧ (∀ t, y.tearFrom = some t → y.draining = false → y.state = .live → (∀ m ∈ countedMembers s x.cohort, t ≤ (if m.2.issued = s.cc + 1 then m.2.vc - 1 else m.2.vc)) → (∀ d ∈ s.departed, d.1 = x.cohort → t ≤ d.2) →
          exec (.tearPerform c h) s = .next (modHandle c h (fun y => { y with draining := true }) s))
      ∧ (∀ t, y.tearFrom = some t → x.ceased = false → (∃ m ∈ countedMembers s x.cohort, (if m.2.issued = s.cc + 1 then m.2.vc - 1 else m.2.vc) < t) → exec (.tearPerform c h) s = .next s)
      ∧ (∀ p, y.state = .repairing → y.repairable = true → y.cause = 2 → s.cc ≤ y.since + 3200 →
          (p / 8 = y.src / 8 → p ≠ y.src → portUsed s p = false → handle (.circuitRepairSearchEnd c h true p) h fun z => z = { y with src := p, since := s.cc, repairable := false })
          ∧ (portUsed s p = true → handle (.circuitRepairSearchEnd c h true p) h fun z => z.state = .down ∧ z.cause = 6))
      ∧ (y.draining = true → onItsWay s c h y.gen = false → x.pendingEst = [] → x.mode ≠ .ended → handle (.tearComplete c h) h fun z => z.state = .idle ∧ z.gen = y.gen)
      ∧ (y.draining = true → onItsWay s c h y.gen = true → exec (.tearComplete c h) s = .next s))
  ∧ (∀ p k t f rest, (portOf s p).buf = f :: rest → f.ctx = c → (handleAt x f.h).state = .live → (handleAt x f.h).gen = f.gen → look s.claims (handleAt x f.h).sink = some k → getThread s k = some t →
      let base := bits t.sys.landwin.toNat 0 20 + 384 * (t.sys.landed % (bits t.sys.landwin.toNat 32 8 + 1))
      let pa := scratchPa s (coreOf k) base
      let side := landingRequester (handleAt x f.h).sink
      let granted := allServed (coreOf k) side (lineStarts base 384) (takeGrants (wants s (coreOf k)) (coreOf k) side (lineStarts base 384) s)
      (setRises s.full = true → isFull s pa = false → refuse { s with tables := f.tables } (threadMaster s f.slot) pa 384 rightW = none →
        (granted = true → ∃ u t', exec (.csendLanding p) s = .next u ∧ u.mem = s.mem.store pa (vecBytes f.data) ∧ isFull u pa = true
          ∧ (portOf u p).buf = rest ∧ getThread u k = some t' ∧ t'.sys.landed = (t.sys.landed + 1) % 2 ^ 32)
        ∧ (granted = false → ∃ u, exec (.csendLanding p) s = .next u ∧ u.mem = s.mem ∧ u.ports = s.ports ∧ u.threads = s.threads))
      ∧ (isFull s pa = true → exec (.csendLanding p) s = .next s))
  ∧ (∀ p, exec (.autoCircuitIdleTear p) s = .next { s with autos := s.autos.filter fun a => !(decide (a.src = p) && decide (a.used + 32000 ≤ s.cc)) })

/-- A word whose tokens are there leaves the queue and starts, unless it is one that a speculative block may not run
yet; M performs a token word and zacc at once; an iteration of a nest multiplies and goes to its next index; that a
zacc, an iteration or another word of M is one event is a choice of the model (log entry 38). A line is read and
written through the engine port once its line has been granted (log entry 101, DEDUCED); one whose source is not the
own scratchpad is asked for by a read of 64 bytes, its answer is the line, and one whose target is not is sent as a
write, whose acknowledgement ends it; with FE it sets the full bits of a line written to a scratchpad of the
package; a line refused is a fault that names its chunk. A finished word pushes its tokens, and a count past 255 is
a fault. The packet of a chain has its address translated where it stands, failing with the first of its checks in
the order of log entry 108 (DESIGN CHOICE), goes to the home of the read with what the tables say then, and reads
there the next pointer or, last, the field; the return writes field and status when its lines have been granted, or
leaves a fault; one of an old window writes nothing. (R112, R173, R174, R180, R251, R252, R255, R260, R264, R268,
R283, R285.) -/
def Obligations.EnginesAndChains : Prop :=
  ∀ s k t, getThread s k = some t →
  (∀ (c : Chan) w ws, engineFree t c.eng = true → (getEngine t c.eng).run = none → (getEngine t c.eng).queue = w :: ws → t.stopping = false →
      (tokensReady s.cc t c.eng w = true → wordHeld s k t w = false → ∃ u t' r, exec (.copyWordStart k c) s = .next u ∧ getThread u k = some t' ∧ (getEngine t' c.eng).queue = ws
        ∧ (getEngine t' c.eng).run = some r ∧ r.word.instr = w.instr)
      ∧ (tokensReady s.cc t c.eng w = false ∨ wordHeld s k t w = true → exec (.copyWordStart k c) s = .next s))
  ∧ (∀ w ws tk, engineFree t .m = true → t.me.run = none → t.me.queue = w :: ws → t.stopping = false →
      (tokensReady s.cc t .m w = false → exec (.matrixWordStart k) s = .next s)
      ∧ (tokensReady s.cc t .m w = true → w.instr = .tokenOnly .m tk ∨ w.instr = .zacc tk → ∃ u t' r, exec (.matrixWordStart k) s = .next u ∧ u.mem = s.mem
        ∧ getThread u k = some t' ∧ t'.me.queue = ws ∧ t'.me.run = some r ∧ r.sent = true
        ∧ (w.instr = .zacc tk → keysRise s.acc = true → ∀ row col, row < 96 → nthNat w.params 0 ≤ col → col < nthNat w.params 0 + nthNat w.params 1 → col < 512 → accRead u k row col = 0)))
  ∧ (∀ r tk, t.me.run = some r → r.word.instr = .nest tk → r.live = true → r.sent = false → r.waiting = false → t.stopping = false → engineFree t .m = true → nestToken s.cc t r = true → arrayGrant s k = true →
      fieldAt r.desc 16 1 % 4 = 0 →
      let ix := t.mx.index
      let a := nestSum r.desc (fieldAt r.desc 8 4) 36 4 ix
      let c := nestSum r.desc (fieldAt r.desc 6 2) 44 2 ix
      let d := nestSum r.desc (fieldAt r.desc 12 2) 40 2 ix
      let h := nestSum r.desc (fieldAt r.desc 14 2) 42 2 ix
      let tb := MType.ofCode (fieldAt r.desc 1 1)
      let z := fieldAt r.desc 3 1
      iterationOk r.word (MType.ofCode (fieldAt r.desc 0 1)) tb a c d h (fieldAt r.desc 4 2) = true → t.mx.prevA = some a →
      ∀ v, doMma k tb (decide (z ≠ 0xFF) && decide (ix.getD z 1 = 0)) c.toNat d.toNat h.toNat (fieldAt r.desc 4 2) (noteArray k (dropMatrixPorts k t r s)) = .ok v →
      ∃ u t', exec (.nestIteration k) s = .next u ∧ u.mem = v.mem ∧ u.acc = v.acc ∧ getThread u k = some t'
        ∧ (∀ n, nextIndex r.desc ix (mnLevels r.desc) = some n → t'.mx.index = n ∧ t'.mx.act = t.mx.act)
        ∧ (nextIndex r.desc ix (mnLevels r.desc) = none → t'.mx.act = false))
  ∧ (∀ (e : Eng) r, (getEngine t e).run = some r → engineFree t e = true → (e = .m → r.sent = true) → (e ≠ .m → copyDone r = true) →
      ((pushTokens s.cc e (tokOf r.word.instr) t).2 = false → exec (.engineWordFinish k e) s = .next (setThread s k (setEngine (pushTokens s.cc e (tokOf r.word.instr) t).1 e
          { getEngine (pushTokens s.cc e (tokOf r.word.instr) t).1 e with run := none, words := (getEngine t e).words + 1, doneSeq := r.word.seq })))
      ∧ ((pushTokens s.cc e (tokOf r.word.instr) t).2 = true → ∃ u t' f, exec (.engineWordFinish k e) s = .next u ∧ getThread u k = some t' ∧ (getEngine t' e).run = none
          ∧ (getEngine t' e).fault = some f ∧ f.trap.code = tEngineFault ∧ f.trap.cause = eToken))
  ∧ (∀ (c : Chan) r i sp, (getEngine t c.eng).run = some r → r.live = true → r.waiting = false → engineFree t c.eng = true → (effWord r).revoked = false → r.next = r.total → r.seg + 1 = r.segs → r.route = .net .basic →
      let pa := scratchPa s (coreOf k) sp
      let mine := engineRequester k c.eng
      (movedPa s pa = none → lineHeld s k pa = false → allServed (coreOf k) mine [sp] (takeGrants (wants s (coreOf k)) (coreOf k) mine [sp] s) = true →
      (r.lines = [(i, .reading 0)] → srcSpot s (effWord r) i = .own sp → dstSpot (effWord r) i = .weights → lineBad s pa 64 = false →
        ∃ u t' r', exec (.enginePortAccess k c.eng i) s = .next u ∧ u.mem = s.mem ∧ getThread u k = some t' ∧ (getEngine t' c.eng).run = some r'
          ∧ look r'.lines i = some (.have (s.mem.bytes pa 64)))
      ∧ (∀ far host cap, r.lines = [(i, .reading 0)] → srcSpot s (effWord r) i = .own sp → dstSpot (effWord r) i = .far far host cap → isSingle (effWord r) = false →
          overlapOf s k (effWord r) = .none → respRoom s (.engine k c.eng i) 1 = true → lineBad s pa 64 = false →
        ∃ u t' r' a, exec (.enginePortAccess k c.eng i) s = .next u ∧ u.mem = s.mem ∧ getThread u k = some t' ∧ (getEngine t' c.eng).run = some r'
          ∧ r'.lines = [(i, .writing s.fresh)] ∧ look u.accesses s.fresh = some a ∧ a.owner = .engine k c.eng i ∧ a.op = .write ((s.mem.bytes pa 64).map some)
          ∧ a.host = host ∧ a.pa = (if host then far else redirect s far) ∧ a.master = engineMaster s k c.eng)
      ∧ (∀ b, r.lines = [(i, .have b)] → isSingle (effWord r) = false → unpackFmt (effWord r) = none → dstSpot (effWord r) i = .own sp → isReg pa = false → overlapOf s k (effWord r) = .none →
        ∃ u t' r', exec (.enginePortAccess k c.eng i) s = .next u ∧ u.mem = s.mem.storeMasked pa (b.map some)
          ∧ getThread u k = some t' ∧ (getEngine t' c.eng).run = some r' ∧ r'.lines = []))
      ∧ (r.lines = [(i, .reading 0)] → srcSpot s (effWord r) i = .own sp → allServed (coreOf k) mine [sp] (takeGrants (wants s (coreOf k)) (coreOf k) mine [sp] s) = false →
        ∃ u, exec (.enginePortAccess k c.eng i) s = .next u ∧ u.mem = s.mem ∧ u.threads = s.threads))
  ∧ (∀ (c : Chan) r i, (getEngine t c.eng).run = some r → r.live = true → r.waiting = false → engineFree t c.eng = true → (effWord r).revoked = false → isSingle (effWord r) = false →
      r.route = .net .basic → overlapOf s k (effWord r) = .none →
      let ends := fun (e : Instr) (f : State → Thread → Run → Prop) => ∃ u t' r', exec e s = .next u ∧ u.mem = s.mem ∧ getThread u k = some t' ∧ (getEngine t' c.eng).run = some r' ∧ f u t' r'
      let sent := fun (u : State) (op : AccOp) (pa : Nat) (host : Bool) => ∃ a, look u.accesses s.fresh = some a ∧ a.owner = .engine k c.eng i ∧ a.op = op ∧ a.host = host
        ∧ a.pa = (if host then pa else redirect s pa) ∧ a.master = engineMaster s k c.eng ∧ a.answer = none ∧ a.place = .out (slotRouter k).1 (slotRouter k).2 0 false
      (∀ pa host cap, r.lines = [] → r.next = i → i + 1 = r.total → t.stopping = false → chunkStop s k c.eng t r i = none → srcSpot s (effWord r) i = .far pa host cap →
          respRoom s (.engine k c.eng i) 1 = true →
          ends (.copyWordStart k c) fun u _ r' => look r'.lines i = some (.reading s.fresh) ∧ r'.next = i + 1 ∧ sent u (.read 64) pa host)
      ∧ (r.next = r.total → r.seg + 1 = r.segs → ∀ id a, look s.accesses id = some a → a.owner = .engine k c.eng i → a.merged = [] → returned s id a = true → mayLeave s id a = true →
          (∀ b f, r.lines = [(i, .reading id)] → a.answer = some (.data b f) → b.length = 64 →
            (∀ sp, dstSpot (effWord r) i = .own sp → ends (.responseReceive id) fun u _ r' => r'.lines = [(i, .have b)] ∧ u.accesses = erase s.accesses id)
            ∧ (∀ pa host cap, dstSpot (effWord r) i = .far pa host cap → respRoom { s with accesses := erase s.accesses id } (.engine k c.eng i) 1 = true →
                ends (.responseReceive id) fun u _ r' => r'.lines = [(i, .writing s.fresh)] ∧ sent u (.write (b.map some)) pa host))
          ∧ (r.lines = [(i, .writing id)] → a.answer = some .ack → r.prefixLen = i → r.next = i + 1 →
              ends (.responseReceive id) fun u t' r' => r'.lines = [] ∧ r'.prefixLen = r.next ∧ u.accesses = erase s.accesses id
                ∧ (getEngine t' c.eng).wptr = ((getEngine t c.eng).wptr + lineWptr (effWord r) i) % 2 ^ 64
                ∧ (feOf (effWord r) = false → u.full = s.full)
                ∧ ∀ pa cap core o j, feOf (effWord r) = true → dstSpot (effWord r) i = .far pa false cap → regionOf (redirect s pa) = .scratch core o → redirect s pa % 8 = 0 →
                    setRises s.full = true → j < 8 → isFull u (redirect s pa + 8 * j) = true)
          ∧ (∀ x, r.lines = [(i, .reading id)] ∨ r.lines = [(i, .writing id)] → opBytes a.op = 64 → a.answer = some (.denied x) →
              ends (.responseReceive id) fun _ t' r' => r'.live = false ∧ ∃ g, (getEngine t' c.eng).fault = some g ∧ g.trap.code = tEngineFault ∧ g.trap.cause = eDenied
                ∧ g.trap.arg1 = BitVec.ofNat 64 (i / chunkLines (effWord r)))))
  ∧ (∀ id a p, look s.accesses id = some a → a.op = .chain p → a.place = .target → a.performed = false → a.void = false → a.device = s.cfg.device →
      let ends := fun (code : Nat) (b : List Byte) => ∃ u z, exec (.chainStep id p.step) s = .next u ∧ u.mem = s.mem ∧ look u.accesses id = some z ∧ z.answer = some (.chained (chainStatus code p) b) ∧ z.performed = true
      let goes := fun (z : Access) => ∃ u, exec (.chainStep id p.step) s = .next u ∧ u.mem = s.mem ∧ look u.accesses id = some z
      (a.tag ≠ 1 →
        (canonical p.cur = false → ends csTrans [])
        ∧ (canonical p.cur = true → systemHalf p.cur = true → p.sys = false → ends csPerm [])
        ∧ (canonical p.cur = true → (systemHalf p.cur = false ∨ p.sys = true) →
          (∀ c n, (chainTranslate a p s).1 = .fault c n → ends csTrans [])
          ∧ (∀ w l code, (chainTranslate a p s).1 = .leaf w l → chainLeaf s p w l = .error code → ends code [])
          ∧ (∀ w l pa, (chainTranslate a p s).1 = .leaf w l → chainLeaf s p w l = .ok pa → paDevice pa = s.cfg.device →
            let there : Access := { a with pa := pa, tag := 1, asid := if systemHalf p.cur then 0 else p.asid, va := p.cur, denied := refuse s a.master pa (opBytes (.chain p)) rightR, dst := targetRouter pa a.dst.2 }
            let queues := fun (z : Access) (pl : Place) => ∃ b, StandsAt s z b pl ∧ goes b
            (p.step = 0 → a.asid = 65536 → queues there (.out a.src.1 a.src.2 0 false))
            ∧ (p.step ≠ 0 ∨ a.asid ≠ 65536 → sliceNo pa = sliceNo a.pa → goes there)
            ∧ (p.step ≠ 0 ∨ a.asid ≠ 65536 → sliceNo pa ≠ sliceNo a.pa →
              (forwarded s (sliceNo a.pa) < 16 → queues { there with forward := some (sliceNo a.pa) } (.out a.dst.1 a.dst.2 0 false))
              ∧ (16 ≤ forwarded s (sliceNo a.pa) → queues there (.out a.dst.1 a.dst.2 0 true))))))
      ∧ (a.tag = 1 →
        (∀ x, a.denied = some x → ends csDenied [])
        ∧ (a.denied = none → movedPa s a.pa = none →
          (lineBad s a.pa (opBytes a.op) = true → ends csUncorr [])
          ∧ (lineBad s a.pa (opBytes a.op) = false → p.step = p.nsteps → ends csDone (s.mem.bytes a.pa (opBytes a.op)))
          ∧ (lineBad s a.pa (opBytes a.op) = false → p.step ≠ p.nsteps → goes { a with
              op := .chain { p with step := p.step + 1, cur := (nat64 (s.mem.bytes a.pa (opBytes a.op)) &&& p.masks.getD p.step 0) + BitVec.ofInt 64 (p.offs.getD p.step 0) }
              tag := 0, asid := 65536, va := 0, forward := none }))))
  ∧ (∀ id a p i c w b, look s.accesses id = some a → a.owner = .chain k i → a.op = .chain p → a.answer = some (.chained w b) → returned s id a = true → mayLeave s id a = true → look t.chains i = some c → c.state = .pending →
      let granted := ∀ core ls, chainLanding s a = some (core, ls) → allServed core netRequester ls (takeGrants (wants s core) core netRequester ls s) = true
      (a.part ≠ t.windowGen → ∃ u, exec (.chainReturn id i) s = .next u ∧ u.mem = s.mem ∧ u.threads = s.threads ∧ u.accesses = erase s.accesses id)
      ∧ (c.gen = a.part → a.part = t.windowGen → ¬ granted → ∃ u, exec (.chainReturn id i) s = .next u ∧ u.mem = s.mem ∧ u.threads = s.threads ∧ u.accesses = s.accesses)
      ∧ (c.gen = a.part → a.part = t.windowGen → granted → w.toNat / 2 ^ 60 = csDone → setRises s.full = true → ∃ u, exec (.chainReturn id i) s = .next u
          ∧ u.mem = (s.mem.store (scratchPa s (coreOf k) c.dest) b).store (scratchPa s (coreOf k) c.stat) (bytes64 w) ∧ isFull u (scratchPa s (coreOf k) c.stat) = true
          ∧ getThread u k = some { t with chains := erase t.chains i } ∧ u.accesses = erase s.accesses id)
      ∧ (c.gen = a.part → a.part = t.windowGen → granted → w.toNat / 2 ^ 60 ≠ csDone → ∃ u, exec (.chainReturn id i) s = .next u ∧ u.mem = s.mem.store (scratchPa s (coreOf k) c.stat) (bytes64 w)
          ∧ getThread u k = some { t with chains := put t.chains i { c with state := .faulted, word := w } } ∧ u.accesses = erase s.accesses id))

/-- A launch whose descriptor is good takes the free entry; a misaligned one is answered with code 2; with the table
full launch is answered with code 1 and launch.w keeps what it has read and waits. While a speculative block keeps
its descriptor closed nothing is read. A cohort is made, joined by its number, and left. A block starts at its place
on the core that the hub prefers and on no other, a gang as a lockstep cohort on the cores preferred for it or at
the places reserved for it; a waiting gang takes the reservation. An extent resolves its node, clamped to its range,
in the cc in which its publication performs. A node that is over writes its completion word, releases its successors
and frees its entry, unless the word lies where a speculative block keeps it closed. (R318, R328, R329, R333, R339,
R341, R342, R343, R344, R347, R348, R361.) -/
def Obligations.LaunchesAndCohorts : Prop :=
  ∀ s,
  (∀ k id r a b w d, s.hubReqs.find? (fun r => decide (r.slot = k) && isLaunch r) = some r → r.ask = .launch a b w d → r.kept = none → b = 0 →
      (reqMustWait s r = true ∨ hubHeld s (some k) r.asid (threadMaster s k) a 256 = true → exec (.launchRequest k id) s = .next s)
      ∧ ∀ db g, reqMustWait s r = false → hubHeld s (some k) r.asid (threadMaster s k) a 256 = false → hubRead r.asid (threadMaster s k) r.sys a 256 (tickClock k s) = (some db, g) →
      (a.toNat % 64 = 0 → descOk db false = true → s.nodes.length < 8192 → entryFree s id = true → ∃ u x, exec (.launchRequest k id) s = .next u ∧ look u.nodes id = some x
          ∧ x.desc = parseDesc db ∧ x.args = (parseDesc db).args ∧ x.gen = genOf g id ∧ x.count = (parseDesc db).pred ∧ x.ready = decide ((parseDesc db).pred = 0) ∧ x.asid = r.asid)
      ∧ (a.toNat % 64 = 0 → descOk db false = true → 8192 ≤ s.nodes.length →
          (w = false → exec (.launchRequest k id) s = .next (answerReq r (statusWord 1 0) .none g))
          ∧ (w = true → s.hubReqs = [r] → exec (.launchRequest k id) s = .next { g with
              hubReqs := [{ r with kept := some (parseDesc db, (parseDesc db).args), deadline := if d = 0 then none else some (s.cc + d) }] }))
      ∧ (a.toNat % 64 ≠ 0 → exec (.launchRequest k id) s = .next (answerReq r (statusWord 2 0) .none g)))
  ∧ (∀ k t id r, s.hubReqs.find? (fun r => decide (r.slot = k) && !isLaunch r) = some r → r.slot = k → getThread s k = some t → t.dispatched = r.who → t.life = .running →
      (∀ a lock, r.ask = .join a true lock → cohortOf s k = none → s.cohorts.length < 4096 → cohortFree s id = true → ∃ u t', exec (.cohortRequest k id) s = .next u
          ∧ look u.cohorts id = some { lock := lock, asid := r.asid, members := [(k, 0)] } ∧ getThread u k = some t' ∧ t'.cohort = some ⟨id, 0, false, true⟩)
      ∧ (∀ a lock c, r.ask = .join a false lock → cohortOf s k = none → look s.cohorts (bits a.toNat 0 12) = some c → c.asid = r.asid → c.lock = lock → c.members.length < 768 →
          ∃ u t', exec (.cohortRequest k id) s = .next u ∧ look u.cohorts (bits a.toNat 0 12) = some { c with members := c.members ++ [(k, leastRank c.members)] }
            ∧ getThread u k = some t' ∧ t'.cohort = some ⟨bits a.toNat 0 12, leastRank c.members, false, false⟩)
      ∧ (∀ a c, r.ask = .leave a → look s.cohorts (bits a.toNat 0 12) = some c → (∃ m ∈ c.members, m.1 = k) → (∃ m ∈ c.members, m.1 ≠ k) →
          ∃ u, exec (.cohortRequest k id) s = .next u ∧ look u.cohorts (bits a.toNat 0 12) = some { c with members := c.members.filter fun m => decide (m.1 ≠ k) }))
  ∧ (∀ id x, look s.nodes id = some x → x.ready = true → x.stop = false → x.placedOnce = true → dispatching s = true → savedOf s id = false → inTurn s id = true →
      (∀ b p, x.desc.lock = false → x.desc.strict = false → nextBlock x = some b → preferredCore s id x b ≠ some (coreOf p.slot) → exec (.blockDispatch id p) s = .next s)
      ∧ (∀ b p, x.desc.lock = false → x.desc.strict = false → nextBlock x = some b → preferredCore s id x b = some (coreOf p.slot) → placeOk (usesOn s id (coreOf p.slot)) x.desc p = true →
          ∃ u t, exec (.blockDispatch id p) s = .next u ∧ getThread u p.slot = some t ∧ t.node = ⟨id, x.gen⟩ ∧ t.line = b ∧ t.pc = x.desc.entry ∧ t.vc = 0 ∧ t.life = .running
            ∧ t.regs.q = List.replicate 16 (.val 0) ∧ t.spec = (x.desc.shape && x.final.isNone && decide (x.desc.floor ≤ b)))
      ∧ (∀ c ctx p, x.desc.lock = true → x.next = 0 → x.desc.strict = false → x.desc.circ = false → x.desc.gx * x.desc.gy = 1 →
          (s.reservation = none ∧ (gangPlaces s x (usesOn s id) 1).map (fun q => coreOf q.slot) = [coreOf p.slot]) ∨ s.reservation = some ⟨id, [p]⟩ → cohortFree s c = true → gangOk s id x [p] [] = true →
          ∃ u t, exec (.gangDispatch id c ctx [p]) s = .next u ∧ getThread u p.slot = some t ∧ t.node = ⟨id, x.gen⟩ ∧ t.line = 0 ∧ t.cohort = some ⟨c, 0, true, false⟩
            ∧ look u.cohorts c = some { lock := true, asid := x.asid, members := [(p.slot, 0)] }))
  ∧ (∀ id x ps, look s.nodes id = some x → dispatching s = true → s.reservation = none → leastBy (fun i => match look s.nodes i with | some y => y.readyAt | none => 0) (waitingGangs s) = some id →
      ps.length = x.desc.gx * x.desc.gy → strictOk s x ps = true → reserveOk x ps [] = true → exec (.gangReservation id ps) s = .next { s with reservation := some ⟨id, ps⟩ })
  ∧ (∀ id x, look s.nodes id = some x → keysRise s.nodes = true →
      (nodeOver s id x = false → exec (.nodeCompletion id) s = .next s)
      ∧ (nodeOver s id x = true → x.desc.comp ≠ 0 → hubHeld s none x.asid (firmwareMaster s) x.desc.comp 8 = true → exec (.nodeCompletion id) s = .next s)
      ∧ (nodeOver s id x = true → x.desc.comp = 0 ∨ hubHeld s none x.asid (firmwareMaster s) x.desc.comp 8 = false → ∃ u, exec (.nodeCompletion id) s = .next u ∧ look u.nodes id = none ∧ genOf u id = (genOf s id + 1) % 256
          ∧ (∀ v, x.desc.comp ≠ 0 → hubWrite x.asid (firmwareMaster s) x.desc.comp (bytes64 (completionWord id x)) s = (true, v) → u.mem = v.mem)
          ∧ (x.desc.comp = 0 → u.mem = s.mem)
          ∧ (∀ j g e y, x.desc.comp = 0 → x.desc.succ = [(j, g, e)] → j ≠ id → look s.nodes j = some y → y.gen = g → 0 < y.count →
              ∃ z, look u.nodes j = some z ∧ z.count = y.count - 1 ∧ (y.count = 1 → z.ready = true))))
  ∧ (∀ k id a w e n x, s.accesses.find? (fun a => decide (a.2.owner = .thread k) && atTarget s a.1 a.2 && (match a.2.op with | .shapepub _ _ => true | _ => false)) = some (id, a) →
      a.op = .shapepub w e → namedNode s w = some (n, x) → x.asid = a.asid → x.desc.shape = true → x.desc.pool = 0 → s.specLines = [] → s.parked = [] → (∀ t ∈ s.threads, t.2.spec = false) →
      (x.final = none → x.desc.floor ≤ e → e ≤ x.desc.ceil → ∃ u y, exec (.shapeResolution k) s = .next u ∧ look u.nodes n = some y ∧ y.final = some e ∧ y.resolvedAt = s.cc ∧ y.fault = x.fault)
      ∧ (x.final = none → x.desc.ceil < e → x.desc.floor ≤ x.desc.ceil → ∃ u y, exec (.shapeResolution k) s = .next u ∧ look u.nodes n = some y ∧ y.final = some x.desc.ceil ∧ y.fault.isSome = true)
      ∧ (x.final = some e → exec (.shapeResolution k) s = .next (answerAt id a.clock .ack s)))

/-- A wanted thread stops issuing; once drained (in an order that the spec leaves open: log entry 58) it is saved with
its windows, its slot is empty and its node is at the head of its list; before, nothing happens. A saved thread
resumes in a free slot with its registers, its queues and its program counter; after a shootdown, or on another
device, its valid handles are revoked and no valid handle is in flight. (R100, R101, R379, R380, R381.) -/
def Obligations.PreemptionAndRestore : Prop :=
  ∀ s,
  (∀ k t, getThread s k = some t → group s k = [k] →
      (t.stopping = false → wanted s k = true → t.spec = false → exec (.preemption k) s = .next (setThread s k { t with stopping := true }))
      ∧ (t.stopping = false → wanted s k = false → exec (.preemption k) s = .next s)
      ∧ (t.stopping = true → drained s k t = false → exec (.preemption k) s = .next s)
      ∧ (t.stopping = true → drained s k t = true → keysRise s.threads = true → ∃ u c x, exec (.preemption k) s = .next u ∧ getThread u k = none ∧ u.mem = s.mem
          ∧ look u.contexts s.fresh = some c ∧ c.shootdown = s.shootdown ∧ c.device = s.cfg.device ∧ c.threads = [x] ∧ x.thread.regs = t.regs ∧ x.thread.pc = t.pc ∧ x.thread.flight = t.flight ∧ x.thread.sys = t.sys
          ∧ x.scratch = readPa s (scratchPa s (coreOf k) (4096 * (useOf k t).scr.1)) (4096 * (useOf k t).scr.2)
          ∧ (∀ n, look s.nodes t.node.id = some n → (listOf u n.desc.prio).head? = some t.node.id ∨ s.readyLists.length ≤ n.desc.prio)))
  ∧ (∀ i c x k co ctx, look s.contexts i = some c → c.threads = [x] → c.program = none → (∀ m, x.thread.cohort = some m → m.id = co) → c.shootdown = s.shootdown → c.device = s.cfg.device →
      dispatching s = true → preemptAsked s x.thread.node = false → inTurn s x.thread.node.id = true → keysRise s.contexts = true →
      (restoreOk s [(x, k)] [] = true → ∃ u t, exec (.contextRestore i [k] co ctx) s = .next u ∧ getThread u k = some t ∧ look u.contexts i = none
          ∧ t.regs = x.thread.regs ∧ t.pc = x.thread.pc ∧ t.vc = x.thread.vc ∧ t.flight = x.thread.flight ∧ t.node = x.thread.node ∧ t.readySince = s.cc)
      ∧ (restoreOk s [(x, k)] [] = false → exec (.contextRestore i [k] co ctx) s = .next s))
  ∧ (∀ i c x k co ctx, look s.contexts i = some c → c.threads = [x] → c.program = none → (∀ m, x.thread.cohort = some m → m.id = co) → c.shootdown ≠ s.shootdown ∨ c.device ≠ s.cfg.device →
      dispatching s = true → preemptAsked s x.thread.node = false → inTurn s x.thread.node.id = true → restoreOk s [(x, k)] [] = true →
      ∃ u t, exec (.contextRestore i [k] co ctx) s = .next u ∧ getThread u k = some t ∧ t.regs = x.thread.regs ∧ t.pc = x.thread.pc ∧ t.readySince = s.cc
        ∧ t.handles = x.thread.handles.map (fun h => if h.state = .valid then { h with state := .revoked } else h)
        ∧ ∀ j ∈ t.flight, ∀ h v, j.post = .handle h v → v.state ≠ .valid)

/-- ASIDREG revokes the valid handles when it changes, and the windows and accumulators are then those of its space,
SRSEED reseeds the lanes, FRECPOP drops the oldest record, LANDWIN claims its port or releases it, CHDROP and the
DROP of MNEST1 drop the word and queue of a halted engine, whose unperformed accesses then never perform and whose
line writes count as dropped, WDLIMIT restarts its count. CMDRING starts and stops consumption, an access table
entry is replaced. A write of any other register of a thread stores its writable bits, within its checks, and a hub
register takes its writable bits from a master that may write it. (R6, R35, R82, R113, R148, R166, R175, R269, R369,
R370, R390, R397.) -/
def Obligations.RegisterWriteEvents : Prop :=
  ∀ s k t, getThread s k = some t →
  let becomes := fun (e : Instr) (u : Thread) => exec e s = .next (setThread s k u)
  (∀ v, ∃ u, exec (.asidregWrite k v) s = .next u ∧ u.mem = s.mem ∧ (∃ l, look u.accAsid k = some l ∧ v.toNat % 65536 ∈ l ∧ ∀ a ∈ (look s.accAsid k).getD [], a ∈ l) ∧ getThread u k = some { t with
      sys := { t.sys with asidreg := v &&& 0xFFFF }
      handles := if v &&& 0xFFFF = t.sys.asidreg then t.handles else t.handles.map fun h => if h.state = .valid then { h with state := .revoked } else h })
  ∧ (∀ v, becomes (.srseedWrite k v) { t with
      sys := { t.sys with srseed := v &&& 0xFFFFFFFF }
      lfsr := (List.range 96).map (lfsrSeed (v.truncate 32)) })
  ∧ becomes (.frecpop k) { t with faultQueue := t.faultQueue.tail }
  ∧ (∀ v, becomes (.wdlimitWrite k v) { t with
      sys := { t.sys with wdlimit := v &&& 0xFFFFFFFF }
      watch := 0 })
  ∧ (∀ v, t.c0.fault.isSome = true → t.c1.fault = none → flag v.toNat 0 = true →
      ∃ u t', exec (.chdrop k v) s = .next u ∧ u.mem = s.mem ∧ getThread u k = some t'
        ∧ t' = { t with
            c0 := { t.c0 with run := none, queue := [], doneSeq := t.c0.lastSeq, lost := 0 }
            dropped := t.dropped + sumNat ((engineBounds s k t .c0).map Bound.lines)
            dropDev := t'.dropDev
            droppedHost := t.droppedHost + sumNat (((engineBounds s k t .c0).filter Bound.host).map Bound.lines) }
        ∧ ∀ id a i, look s.accesses id = some a → a.owner = .engine k .c0 i →
            look u.accesses id = some { a with owner := .gone, keeps := some (.engine k .c0 i, t.node), void := !a.performed })
  ∧ (t.me.fault.isSome = true → ∃ t', becomes (.mnest1Drop k) t' ∧ t' = { t with
      me := { t.me with run := none, queue := [], doneSeq := t.me.lastSeq, lost := 0 }
      mx := { t.mx with act := false, index := [0, 0, 0, 0, 0, 0], prevA := none, popped := false }
      dropped := t.dropped + sumNat ((engineBounds s k t .m).map Bound.lines)
      dropDev := t'.dropDev
      droppedHost := t.droppedHost + sumNat (((engineBounds s k t .m).filter Bound.host).map Bound.lines) })
  ∧ (t.me.fault = none → exec (.mnest1Drop k) s = .next s)
  ∧ (∀ v, writeTraps t 0x066 v = [] → t.spec = false → flag t.sys.landwin.toNat 63 = false → flag v.toNat 63 = true →
      let port := 8 * tileOf k + bits v.toNat 56 3
      (look s.claims port = none → ∃ u t', exec (.landwinWrite k v) s = .next u ∧ look u.claims port = some k ∧ getThread u k = some t'
          ∧ t'.sys.landed = 0 ∧ flag t'.sys.landwin.toNat 63 = true ∧ bits t'.sys.landwin.toNat 56 3 = bits v.toNat 56 3)
      ∧ (∀ j, j ≠ k → look s.claims port = some j → ∃ u t', exec (.landwinWrite k v) s = .next u ∧ u.claims = s.claims ∧ getThread u k = some t' ∧ flag t'.sys.landwin.toNat 63 = false))
  ∧ (∀ v, writeTraps t 0x066 v ≠ [] → exec (.landwinWrite k v) s = .next s)
  ∧ (∀ v, flag s.cmdring.toNat 0 = false → exec (.cmdringEnable v) s = .next { s with
      cmdring := (v ||| 1) &&& 0xFFFFFFFFFFFFFF01
      ringIndex := 0
      ringPass := 0
      consumed := 0 })
  ∧ (∀ v, flag s.cmdring.toNat 0 = true → exec (.cmdringEnable v) s = .next s)
  ∧ (∀ v, exec (.cmdringDisable v) s = .next { s with cmdring := v &&& 0xFFFFFFFFFFFFFF00 })
  ∧ (∀ n i v, i < 64 → ∃ u, exec (.accessTableWrite n i v) s = .next u ∧ tableEntry u ⟨n / 0x100000, n % 0x100000⟩ i = v ∧ u.mem = s.mem)
  ∧ (∀ v, becomes (.registerWrite (.thread k 0x014) v) { t with sys := { t.sys with trappc := v &&& 0xFFFFFFFFFFFFFFF0 } })
  ∧ (∀ n v, writeTraps t n v ≠ [] → exec (.registerWrite (.thread k n) v) s = .next s)
  ∧ (∀ n v, writeTraps t n v = [] → ∃ u t', exec (.registerWrite (.thread k n) v) s = .next u ∧ u.mem = s.mem ∧ getThread u k = some t' ∧ t'.pc = t.pc ∧ t'.regs = t.regs ∧ t'.flight = t.flight
      ∧ ∀ m : W64, (n, m) ∈ [(0x000, (0x1F07 : W64)), (0x001, 0xFFFFFFFF), (0x002, 0xFFFF), (0x010, 0xFFFFFFFFFFFFFFF1), (0x011, 0xFFFFFFFF007F0000),
          (0x012, 0xFFFFFFFFFFFFFFFF), (0x013, 0xFFFFFFFFFFFFFFFF), (0x014, 0xFFFFFFFFFFFFFFF0), (0x015, 0xFFFFFFFF), (0x040, 0x1FF000FF000), (0x041, 0x7FFFFDFFFFF),
          (0x042, 0xFFFFFFFF), (0x043, 0x3FF), (0x045, 0xFFFFFFFF), (0x06A, 0xFFFFF000)] → readSys t' n = v &&& m)
  ∧ (∀ v m, isFirmware s m = true → refuse s m (hubPa s + 0x200010) 8 rightW = none → exec (.registerWrite (.hub 0x200010 m) v) s = .next { s with tvecdef := v &&& 0xFFFFFFFFFFFFFFF1 })
  ∧ (∀ v m, isFirmware s m = true → refuse s m (hubPa s + 0x200020) 8 rightW = none → exec (.registerWrite (.hub 0x200020 m) v) s = .next { s with asidtab := v &&& 0x80FFFFFFFFF80000 })
  ∧ (∀ v m i, i < 16 → isFirmware s m = true → refuse s m (hubPa s + (0x200100 + 8 * i)) 8 rightW = none →
      exec (.registerWrite (.hub (0x200100 + 8 * i) m) v) s = .next { s with migpool := put s.migpool i (v &&& 0x00FFFFFFFFFFF3FF) })
  ∧ (∀ v m o, o ∈ [0x200010, 0x200020, 0x200100] → isFirmware s m = false → exec (.registerWrite (.hub o m) v) s = .next s)
  ∧ (∀ v m b, b < 1024 → refuse s m (hubPa s + (0x102000 + 8 * b)) 8 rightW = none → ∃ u, exec (.registerWrite (.hub (0x102000 + 8 * b) m) v) s = .next u
      ∧ u.rlytab = put s.rlytab b (v &&& 0x000070FFFFFFFC00) ∧ u.mem = s.mem ∧ u.threads = s.threads)
  ∧ (∀ v m o, o % 8 = 0 → refuse s m (hubPa s + o) 8 rightW ≠ none → exec (.registerWrite (.hub o m) v) s = .next s)

/-- An access of the host within a line, or an aligned atomic, enters the mesh toward the address its window gives;
outside the windows nothing happens. With a valid slot at the index the hub takes the command, advances, and writes
the consumed count; without, nothing. A finished command, and a LAUNCH whose nodes have completed, writes its
completion word, with status 5 and the cause when a node faulted, sends its message and is gone, over a link that is
up, the package out of service too; while writes that its FSCOPE names are unacknowledged it waits. A command of no
known type ends as malformed. (R388, R389, R390, R391, R392, R393.) -/
def Obligations.HostAccessesAndRing : Prop :=
  (∀ s, s.service = .running → s.linkUp = true →
  (∀ x : HostReq,
      (∀ pa, windowPa s x.bar2 x.offset = some pa → 1 ≤ x.bytes → x.offset % 64 + x.bytes ≤ 64 → ∃ u a, exec (.hostAccess x) s = .next u ∧ u.mem = s.mem ∧ look u.accesses s.fresh = some a
          ∧ a.owner = .host ∧ a.pa = pa ∧ a.op = (if x.write then .write ((leBytes x.bytes x.data).map some) else .read x.bytes))
      ∧ (windowPa s x.bar2 x.offset = none → exec (.hostAccess x) s = .next s))
  ∧ (∀ o, windowPa s true o = if o < 2 ^ 40 then some (s.cfg.device * 2 ^ 46 + o / 2 ^ 36 * 2 ^ 42 + o % 2 ^ 36) else none)
  ∧ (∀ (x : HostAtomic) pa, windowPa s true x.offset = some pa →
      (x.offset % (if x.wide then 8 else 4) = 0 → ∃ u a, exec (.hostAtomicop x) s = .next u ∧ u.mem = s.mem ∧ look u.accesses s.fresh = some a ∧ a.owner = .host ∧ a.pa = pa
          ∧ (x.kind = .fetchAdd → a.op = .amo .add (if x.wide then .w8 else .w4) (BitVec.ofNat 64 x.operand))
          ∧ (x.kind = .swap → a.op = .amo .swap (if x.wide then .w8 else .w4) (BitVec.ofNat 64 x.operand))
          ∧ (x.kind = .cas → a.op = .cas (if x.wide then .w8 else .w4) (BitVec.ofNat 64 x.expected) (BitVec.ofNat 64 x.operand)))
      ∧ (x.offset % (if x.wide then 8 else 4) ≠ 0 → exec (.hostAtomicop x) s = .next s))
  ∧ (flag s.cmdring.toNat 0 = true →
      let b := s.mirror.bytes (256 * s.ringIndex) 256
      let size := 2 ^ ringLog s.cmdring
      (b.getD 255 0 = (if s.ringPass % 2 = 0 then 0x5A else 0xA5) → ∃ u, exec .commandConsume s = .next u ∧ look u.commands s.fresh = some { slot := s.ringIndex, bytes := b }
          ∧ u.ringIndex = (if s.ringIndex + 1 = size then 0 else s.ringIndex + 1) ∧ u.ringPass = (if s.ringIndex + 1 = size then s.ringPass + 1 else s.ringPass)
          ∧ u.consumed = s.consumed + 1 ∧ u.hostMem = s.hostMem.store (ringBase s + 256 * size) (leBytes 8 (s.consumed + 1)) ∧ u.mem = s.mem)
      ∧ (b.getD 255 0 ≠ (if s.ringPass % 2 = 0 then 0x5A else 0xA5) → exec .commandConsume s = .next s))
  ∧ (∀ k c, look s.commands k = some c → c.finished = false → cmdType c ≤ 9 → cmdType c ≠ 1 → exec (.commandCompletion k) s = .next s)
  ∧ (∀ k c, look s.commands k = some c → c.finished = false → 9 < cmdType c → mayStart s k c = true → scopeBusy s c = false →
      ∃ u, exec (.commandCompletion k) s = .next u ∧ look u.commands k = some { c with started := true, finished := true, status := if s.evstate ≠ 0 then 2 else 1 } ∧ u.mem = s.mem))
  ∧ (∀ s k c, s.service = .running ∨ s.service = .outOfService → s.linkUp = true → look s.commands k = some c →
      (scopeBusy s c = true → exec (.commandCompletion k) s = .next s)
      ∧ (scopeBusy s c = false → c.finished = true ∨ (cmdType c = 1 ∧ c.started = true ∧ c.left = 0) → ∃ u, exec (.commandCompletion k) s = .next u ∧ u.commands = erase s.commands k ∧ u.mem = s.mem
        ∧ u.hostMem = (if fieldAt c.bytes 0 8 = 0 then s.hostMem else s.hostMem.store (fieldAt c.bytes 0 8) (bytes64 (commandWord c
            (match c.firstFault with | some _ => 5 | none => c.status) (match c.firstFault with | some f => f.2.2 | none => 0)
            (match c.nodes with | n :: _ => (if cmdType c = 1 then nodeWord n else 0) | [] => 0))))
        ∧ u.msix = (if flag (fieldAt c.bytes 10 1) 7 then s.msix ++ [fieldAt c.bytes 10 1 % 64] else s.msix))
      ∧ (c.finished = false → cmdType c = 1 → c.started = true → c.left ≠ 0 → exec (.commandCompletion k) s = .next s))
  ∧ ∀ s k c, s.linkUp = false → look s.commands k = some c → exec (.commandCompletion k) s = .next s

/-- Each command that may start finishes with the status of R393: a NOP at once; a LAUNCH puts its nodes in the table,
counts down as each completes and ends with the last; a SHOOTDOWN drops the entries of its pages and finishes once
the accesses they cover have ended, not before; a HARVEST finishes with its bits written (as user mode in its space:
log entry 52, DEDUCED); a PREEMPT when no block of its node runs any longer, an ABORT, which stops its node, when
the node has completed; ATTEST with its report in host memory; REDIRCLR, SETTVEC and SUBST with the redirects or the
vector changed. A malformed command ends with status 1, one under eviction with status 2. (R102, R107, R382, R386,
R391, R393, R394, R395, R399.) -/
def Obligations.HostCommands : Prop :=
  (∀ s k c, look s.commands k = some c → serving s = true → mayStart s k c = true →
  let finished := fun (st : Nat) (u : State) => look u.commands k = some { c with started := true, finished := true, status := st }
  let ends := fun (e : Instr) (st : Nat) => ∃ u, exec e s = .next u ∧ finished st u ∧ u.mem = s.mem
  (∀ (n : Nat) (e : Instr), (n, e) ∈ [(0, Instr.nopCommand k), (1, .launchCommand k []), (2, .shootdown k), (3, .harvest k), (4, .preempt k), (5, .attest k), (6, .redirclr k), (7, .settvec k), (8, .abort k), (9, .subst k)] →
      (cmdType c ≠ n → exec e s = .next s ∨ c.started = true)
      ∧ (cmdType c = n → s.evstate ≠ 0 → ends e 2)
      ∧ (cmdType c = n → s.evstate = 0 → fieldAt c.bytes 253 1 / 16 ≠ 0 → ends e 1))
  ∧ (s.evstate = 0 →
      (cmdType c = 0 → headerOk c 16 = true → cmdSmall c = 0 → ends (.nopCommand k) 0)
      ∧ (∀ b g id, cmdType c = 1 → headerOk c 24 = true → cmdSmall c = 1 → fieldAt c.bytes 16 8 % 256 = 0 →
          hubHeld s none (cmdAsid c) (firmwareMaster s) (BitVec.ofNat 64 (fieldAt c.bytes 16 8)) 256 = false → hubRead (cmdAsid c) (firmwareMaster s) false (BitVec.ofNat 64 (fieldAt c.bytes 16 8)) 256 s = (some b, g) → b.length = 256 → descOk b true = true → (parseDesc b).succ = [] →
          g.nodes.length < 8192 → entryFree g id = true → ∃ u x d, exec (.launchCommand k [id]) s = .next u ∧ look u.nodes id = some x ∧ x.desc = parseDesc b ∧ x.command = some k ∧ x.asid = cmdAsid c
            ∧ look u.commands k = some d ∧ d.started = true ∧ d.left = 1)
      ∧ (cmdType c = 2 → headerOk c (16 + 8 * cmdSmall c) = true → 1 ≤ cmdSmall c → cmdSmall c ≤ 29 → (∀ i < cmdSmall c, fieldAt c.bytes (16 + 8 * i) 1 % 4 ≠ 3) →
          ∃ u d, exec (.shootdown k) s = .next u ∧ look u.commands k = some d ∧ d.started = true ∧ d.finished = false ∧ u.mem = s.mem
            ∧ (∀ e ∈ u.tlb2, ∀ x ∈ e.2, ∀ r ∈ shootPages c, r.meets x.asid x.base x.size.bytes = false)
            ∧ (∀ e ∈ u.tlb1, ∀ x ∈ e.2, ∀ r ∈ shootPages c, r.meets x.asid x.base x.size.bytes = false))
      ∧ (∀ g, cmdType c = 3 → headerOk c 40 = true → cmdSmall c = 0 → fieldAt c.bytes 16 8 % 65536 = 0 → fieldAt c.bytes 24 8 % 65536 = 0 → fieldAt c.bytes 24 8 ≤ 2 ^ 40 →
          let n := fieldAt c.bytes 24 8 / 65536
          let buf := BitVec.ofNat 64 (fieldAt c.bytes 32 8)
          (hubHeld s none (cmdAsid c) (firmwareMaster s) buf ((n + 7) / 8) = true → exec (.harvest k) s = .next s)
          ∧ (hubHeld s none (cmdAsid c) (firmwareMaster s) buf ((n + 7) / 8) = false → writableAll (cmdAsid c) buf ((n + 7) / 8) s = (false, g) → ends (.harvest k) 3)
          ∧ (hubHeld s none (cmdAsid c) (firmwareMaster s) buf ((n + 7) / 8) = false → writableAll (cmdAsid c) buf ((n + 7) / 8) s = (true, g) → ∃ u, exec (.harvest k) s = .next u ∧ finished 0 u
              ∧ u.mem = (writeAll (cmdAsid c) buf (packDirty (harvestBits (cmdAsid c) (fieldAt c.bytes 16 8) n 0 g).1) (harvestBits (cmdAsid c) (fieldAt c.bytes 16 8) n 0 g).2).mem))
      ∧ (cmdType c = 4 → headerOk c 24 = true → cmdSmall c = 0 → (cmdNode s c = none → ends (.preempt k) 1)
          ∧ (∀ i x, cmdNode s c = some (i, x) → ∃ u, exec (.preempt k) s = .next u ∧ look u.commands k = some { c with started := true, nodes := [⟨i, x.gen⟩] } ∧ u.nodes = s.nodes))
      ∧ (cmdType c = 5 → headerOk c 56 = true → cmdSmall c = 0 → fieldAt c.bytes 48 8 % 64 = 0 → ∃ u, exec (.attest k) s = .next u ∧ finished 0 u
          ∧ u.hostMem = s.hostMem.store (fieldAt c.bytes 48 8) (attestReport s ((c.bytes.drop 16).take 32)) ∧ u.mem = s.mem)
      ∧ (cmdType c = 6 → headerOk c 16 = true → cmdSmall c < 1024 → ∃ u, exec (.redirclr k) s = .next u ∧ finished 0 u ∧ u.redirects = s.redirects.filter fun r => decide (r.dev ≠ cmdSmall c))
      ∧ (cmdType c = 7 → headerOk c 24 = true → cmdSmall c = 0 → ∃ u, exec (.settvec k) s = .next u ∧ finished 0 u ∧ u.tvecdef = BitVec.ofNat 64 (fieldAt c.bytes 16 8) &&& 0xFFFFFFFFFFFFFFF1)
      ∧ (cmdType c = 8 → headerOk c 24 = true → cmdSmall c = 0 → keysRise s.nodes = true → (cmdNode s c = none → ends (.abort k) 1)
          ∧ (∀ i x, cmdNode s c = some (i, x) → ∃ u y, exec (.abort k) s = .next u ∧ look u.nodes i = some y ∧ y.stop = true ∧ y.fault.isSome = true ∧ (∀ l ∈ u.specLines, l.node ≠ ⟨i, x.gen⟩)))
      ∧ (cmdType c = 9 → 1 ≤ cmdSmall c → cmdSmall c ≤ 9 → headerOk c (24 + 24 * cmdSmall c) = true → zeroAt c.bytes 20 4 = true → (substRanges c).all (rangeOk (fieldAt c.bytes 16 2) (fieldAt c.bytes 18 2)) = true →
          s.dommap.contains (fieldAt c.bytes 16 2) = true → fieldAt c.bytes 16 2 ≠ s.cfg.device → reachable s (fieldAt c.bytes 16 2) = false → reachable s (fieldAt c.bytes 18 2) = true → s.frames = [] →
          ∃ u, exec (.subst k) s = .next u ∧ finished 0 u ∧ u.redirects = s.redirects ++ [{ dev := fieldAt c.bytes 16 2, dest := fieldAt c.bytes 18 2, ranges := substRanges c }])))
  ∧ ∀ s k c, look s.commands k = some c → c.started = true → c.finished = false →
    let done := fun (e : Instr) => exec e s = .next { s with commands := put s.commands k { c with finished := true, status := 0 } }
    (cmdType c = 2 → (c.covered.all (accessEnded s) = true → done (.shootdown k)) ∧ (c.covered.all (accessEnded s) = false → exec (.shootdown k) s = .next s))
    ∧ (cmdType c = 4 →
        ((∀ x ∈ s.threads, x.2.node ∈ c.nodes → x.2.life ≠ .running) → done (.preempt k))
        ∧ ((∃ x ∈ s.threads, x.2.node ∈ c.nodes ∧ x.2.life = .running) → exec (.preempt k) s = .next s))
    ∧ (cmdType c = 8 →
        ((∀ n ∈ c.nodes, ∀ x, look s.nodes n.id = some x → x.gen ≠ n.gen) → done (.abort k))
        ∧ ((∃ n ∈ c.nodes, ∃ x, look s.nodes n.id = some x ∧ x.gen = n.gen) → exec (.abort k) s = .next s))
    ∧ (cmdType c = 1 → ∀ id x, look s.nodes id = some x → x.command = some k → nodeOver s id x = true → x.desc.comp = 0 → x.desc.succ = [] →
        ∃ u d, exec (.nodeCompletion id) s = .next u ∧ u.mem = s.mem ∧ look u.commands k = some d ∧ d = { c with left := c.left - 1, firstFault := d.firstFault }
          ∧ (x.fault = none → d.firstFault = c.firstFault)
          ∧ (∀ f, x.fault = some f → c.firstFault = none → d.firstFault = some (x.faultAt, (c.nodes.findIdx? fun n => decide (n = ⟨id, x.gen⟩)).getD 0, f)))
    ∧ (cmdType c = 1 → c.left = 0 → serving s = true → scopeBusy s c = false → keysRise s.commands = true → ∃ u, exec (.commandCompletion k) s = .next u ∧ look u.commands k = none)

/-- A start, whose command stands in the buffer of the management controller, and power abandon every thread, node and
command and count a boot; when it is complete the package serves, its memory zeroed, HBM too unless a warm start
keeps it, and after a cold one hub time counts from 0 (a reading of the model, log entry 64); one whose firmware or
configuration store does not verify ends out of service with its status (a choice of the model, log entry 83). Loss
of power ends everything. An uncorrectable condition, the die limit or a second mismatch within 1 s takes the
package out of service: every node is stopped and no saved block is left. A worker fault changes nothing. Throttling
is set and released. When the host link goes down the writes at the adapter are answered as unreachable. (R313,
R378, R396, R398, R400, R401, R404.) -/
def Obligations.StartsPowerAndFaults : Prop :=
  ∀ s,
  (∀ w h, s.service = .running ∨ s.service = .outOfService → ∃ u, exec (.start w h) s = .next u ∧ u.service = .starting w h ∧ u.cmdBuffer.take 2 = [0x01, BitVec.ofNat 8 ((if w then 1 else 0) + 2 * (if h then 1 else 0))] ∧ u.threads = [] ∧ u.nodes = [] ∧ u.commands = [] ∧ u.boots = s.boots + 1 ∧ u.mem = s.mem)
  ∧ (∀ w h x y, s.service = .starting x y → ∃ u, exec (.start w h) s = .next u ∧ u.service = .starting false false ∧ u.boots = s.boots + 1)
  ∧ (∀ w h, s.service = .starting w h → startCheck s.cfg ≠ .none → exec .startComplete s = .next { s with service := .outOfService, startFault := startCheck s.cfg })
  ∧ (∀ w h, s.service = .starting w h → startCheck s.cfg = .none → s.mem.wf = true → ∃ u, exec .startComplete s = .next u ∧ u.service = .running ∧ u.threads = [] ∧ u.nodes = [] ∧ u.evstate = 0 ∧ u.cfg = s.cfg ∧ u.hostMem = s.hostMem
      ∧ u.cc = (if w then s.cc else 0) ∧ u.tables = [] ∧ ∀ a, u.mem.read a = if paDevice a = s.cfg.device ∧ ¬ (w = true ∧ h = true ∧ isHbm a = true) then 0 else s.mem.read a)
  ∧ (s.service ≠ .unpowered → exec .powerOn s = .next s)
  ∧ (s.service = .unpowered → (∃ u, exec .powerOn s = .next u ∧ u.service = .starting false false ∧ u.boots = s.boots + 1) ∧ exec .powerLoss s = .next s ∧ ∀ w h, exec (.start w h) s = .next s)
  ∧ (s.service = .running → ∃ u, exec .powerLoss s = .next u ∧ u.service = .unpowered ∧ u.linkUp = false ∧ u.threads = [] ∧ u.nodes = [] ∧ (∀ l ∈ u.lanes, l.2.tx = 0 ∧ l.2.rx = 0))
  ∧ (let ends := fun (e : Instr) => ∃ u, exec e s = .next u ∧ u.service = .outOfService ∧ u.contexts = [] ∧ u.parked = [] ∧ (∀ n ∈ u.nodes, n.2.stop = true ∧ n.2.fault.isSome = true) ∧ (∀ l ∈ u.lanes, l.2.tx = 0)
     (s.service = .running → ends .packageOutOfService ∧ ends .dieLimit ∧ (∀ c, s.mismatchAt = some c → s.cc ≤ c + 1600000000 → ends .lockstepMismatch))
     ∧ (s.mismatchAt = none → exec .lockstepMismatch s = .next { s with mismatchAt := some s.cc })
     ∧ (∀ c, s.mismatchAt = some c → c + 1600000000 < s.cc → exec .lockstepMismatch s = .next { s with mismatchAt := some s.cc }))
  ∧ (∀ w, exec (.workerFault w) s = .next s)
  ∧ exec .thermalThrottle s = .next { s with throttled := true } ∧ exec .throttleRelease s = .next { s with throttled := false }
  ∧ (keysRise s.accesses = true → ∃ u, exec .erardLinkDown s = .next u ∧ u.linkUp = false ∧ u.hostMem = s.hostMem ∧ u.mem = s.mem
      ∧ ∀ id a, look s.accesses id = some a → a.host = true → a.place = .target → a.performed = false → writesHost a.op = true →
          ∃ b, StandsAt s a b (replyPlace s a) ∧ look u.accesses id = some { b with answer := some .unreachable })

/-- A good EVICT sets STOPPING and tells every peer that it can reach; with no thread and no circuit left it is MOVING;
then the bytes stand on the neighbour and accesses follow, the contexts and nodes having left in the same event (a
reading of the model, log entry 62); then nothing is under way and nothing is relayed; then power is off and the
latch opens. A failure is recorded, and a second event returns to IDLE when the contexts are restored (a reading of
the model, log entry 63). A peer notes the eviction, takes the device out of its relays, whose defaults it fills
again (a reading of the model, log entry 74), and redirects, with the sequence numbers of the pair, when the move is
done and its frames have been applied; the device that takes the work then holds the contexts, as those of the
device they come from, and nodes, whatever they are (a free value of the model, log entry 104), under their own
numbers where those are free. A read of the identity memory answers its bytes. (R382, R383, R384, R402, R403.) -/
def Obligations.EvictionAndIdentity : Prop :=
  ∀ s,
  (∀ b, s.service = .running → s.evstate = 0 →
      let n := fieldAt b 1 1
      let d := fieldAt b 2 2
      let rs : List MoveRange := (List.range n).map fun i => ⟨fieldAt b (8 + 24 * i) 8, fieldAt b (16 + 24 * i) 8, fieldAt b (24 + 24 * i) 8⟩
      (fieldAt b 0 1 = 0x10 → 1 ≤ n → n ≤ 16 → zeroAt b 4 4 = true → 8 + 24 * n ≤ b.length → isMember s d = true → d ≠ s.cfg.device →
          (∀ m ∈ rs, rangeOk s.cfg.device d m = true ∧ isHbm m.src = true ∧ isHbm m.dst = true) →
          exec (.evict b) s = .next { s with
            cmdBuffer := (b ++ List.replicate 512 0).take 512
            evstate := 1
            evictTo := d
            evictRanges := rs
            autos := []
            evictSent := s.evictSent ++ (s.dommap.filter (ctrlReaches s)).map fun p => ⟨p, s.cfg.device, d, false, []⟩ })
      ∧ (fieldAt b 0 1 ≠ 0x10 ∨ n = 0 ∨ 16 < n → exec (.evict b) s = .next { s with cmdBuffer := (b ++ List.replicate 512 0).take 512 }))
  ∧ managementRegister s 0x18 = s.evstate % 256
  ∧ (s.evstate = 1 → s.threads = [] → s.ctxs = [] → exec .evictionMoving s = .next { s with evstate := 2 })
  ∧ (s.threads ≠ [] → exec .evictionMoving s = .next s)
  ∧ (s.evstate = 2 → reachable s s.evictTo = true → ∃ u, exec .evictionRedirected s = .next u ∧ u.evstate = 3 ∧ u.mem = s.evictRanges.foldl (fun m r => moveBytes r.src r.dst r.len m) s.mem
      ∧ u.redirects = s.redirects ++ [{ dev := s.cfg.device, dest := s.evictTo, ranges := s.evictRanges, carry := true }] ∧ u.contexts = [] ∧ u.nodes = [])
  ∧ (s.evstate = 3 → s.frames = [] → s.held = [] → s.relayed = [] → s.accesses = [] → exec .evictionDrained s = .next { s with evstate := 4 })
  ∧ (s.evstate = 3 → s.frames ≠ [] ∨ s.relayed ≠ [] → exec .evictionDrained s = .next s)
  ∧ (s.evstate = 4 → s.service = .running → ∃ u, exec .safeToUnlatch s = .next u ∧ u.evstate = 5 ∧ u.unlatch = 1 ∧ u.service = .unpowered)
  ∧ (∀ c, s.evstate = 1 ∨ s.evstate = 2 → 1 ≤ c → c ≤ 3 → c ≠ 2 → ∃ u, exec (.evictionFailed c) s = .next u ∧ u.evstate = 15 + 16 * c ∧ u.mem = s.mem ∧ ∀ t ∈ u.threads, t.2.stopping = false)
  ∧ (∀ c, s.evstate % 16 = 15 → s.contexts = [] → exec (.evictionFailed c) s = .next { s with evstate := 0, evictRanges := [] })
  ∧ (∀ d e, isMember s d = true → d ≠ s.cfg.device → isMember s e = true → (∀ x ∈ s.peerEvicts, x.1 ≠ d) → keysRise s.rlytab = true →
      let v : State := modPeer d (fun p => { p with absent := true }) { s with peerEvicts := s.peerEvicts ++ [(d, e)] }
      ∃ u, exec (.evictNotice d e) s = .next u ∧ u.peerEvicts = v.peerEvicts ∧ u.mem = s.mem
        ∧ ∀ b ∈ s.dommap, b ≠ s.cfg.device → ([1, 2, 3].any fun k => relayOn (rlyWord s b) k && decide (relayOf (rlyWord s b) k = d)) = true →
            look u.rlytab b = some (relayWord (defaultRelays s.cfg.device b (present v))))
  ∧ (∀ d e rs, (d, e) ∈ s.peerEvicts → (∀ m ∈ rs, rangeOk d e m = true) →
      let waits := ∃ f ∈ s.frames, f.2.peer = d ∧ f.2.applied = false
      let follows := fun (u : State) (here : List (Nat × Nat)) => u.redirects = s.redirects ++ [{ dev := d, dest := e, ranges := rs, carry := true, ordSend := (peerAt s d).ordSend, ordThere := (peerAt s d).ordThere, ordHere := here }] ∧ (∀ x ∈ u.peerEvicts, x.1 ≠ d)
        ∧ u.mem = rs.foldl (fun m r => moveBytes r.src r.dst r.len m) s.mem
      (waits → exec (.moveDoneNotice d e rs) s = .next s)
      ∧ (¬ waits → e ≠ s.cfg.device → ∃ u, exec (.moveDoneNotice d e rs) s = .next u ∧ follows u [] ∧ u.contexts = s.contexts ∧ u.evictSent = s.evictSent)
      ∧ (∀ v, ¬ waits → e = s.cfg.device → receiveWork d (Config.movedWork s.freeCount) { s with freeCount := s.freeCount + 1 } = some v →
          ∃ u, exec (.moveDoneNotice d e rs) s = .next u ∧ follows u (Config.movedWork s.freeCount).ordHere ∧ u.contexts = v.contexts ∧ u.nodes = v.nodes ∧ u.cohorts = v.cohorts ∧ u.readyLists = v.readyLists))
  ∧ (∀ from_ w, s.nodes = [] → s.cohorts = [] → workOk w = true → ∃ v, receiveWork from_ w s = some v ∧ v.mem = s.mem ∧ (∀ c ∈ v.contexts, c ∈ s.contexts ∨ c.2.device = from_) ∧ ∀ x ∈ w.nodes, ∃ y, look v.nodes x.1 = some y
      ∧ y.gen = genOf s x.1 ∧ y.asid = x.2.asid ∧ y.args = x.2.args ∧ y.count = x.2.count ∧ y.command = none)
  ∧ (∀ o n, exec (.identityMemoryRead o n) s = .next { s with busAnswer := ((identityMemory s).drop o).take n })

/-- At reset no thread, node, cohort or command is there; the package serves and is not being evicted; the ring is off
with its lowest size, the link to the host is up, and no access table entry has been written: entry 0 of each table
lets the eight firmware masters of the device and nobody else, and every other entry is 0 and lets nobody. Memory
lists nothing, reads as zero and is in canonical form. That the machine stands at the end of a cold start is a
reading of the model (log entry 5). (R6, R111, R390, R400.) -/
def Obligations.ResetState : Prop :=
  State.reset.threads = [] ∧ State.reset.nodes = [] ∧ State.reset.cohorts = [] ∧ State.reset.commands = [] ∧ State.reset.hubReqs = []
  ∧ State.reset.service = .running ∧ State.reset.evstate = 0 ∧ State.reset.cmdring = 0x400 ∧ State.reset.mem = [] ∧ State.reset.Inv
  ∧ (∀ a, State.reset.mem.read a = 0)
  ∧ State.reset.linkUp = true ∧ State.reset.tables = []
  ∧ (∀ (t : TableId) n x r, x < 2 ^ 42 → r ≤ 7 → n ≤ 7 → entryAllows (tableEntry State.reset t 0) (masterId State.reset (3072 + n)) x r = true)
  ∧ (∀ (t : TableId) m x r, 0 < r → entryAllows (tableEntry State.reset t 0) m x r = true → ∃ n, n ≤ 7 ∧ m = masterId State.reset (3072 + n))
  ∧ (∀ (t : TableId) i m x r, i ≠ 0 → tableEntry State.reset t i = 0 ∧ entryAllows (tableEntry State.reset t i) m x r = false)

/-- From every state whose three memories (that of the package, that of the host and the copy of its ring) are in
canonical form, a step that gives a next state gives one whose memories are: equal memories are equal lists, in
every state that follows. The form is the own representation of the model, with what an unlisted byte reads as (log
entry 15); no rule gives it: the cites name what the three memories are. (R83, R391.) -/
def Obligations.StepKeepsInv : Prop :=
  ∀ s u, s.Inv → step s = .next u → u.Inv

/-- When a core may issue and the bundle at the PC of its current slot decodes, the step runs the bundle: with one
operation i that is no NOP it is exec of i at that slot, the core having issued in this cc; with NOPs alone the
thread goes on to its next bundle; bits that decode to nothing raise ILLEGAL_OP. An event of the agenda is exec of
it; a tick ends the cc. With nothing asked for, the events before the cores come first, then a core that may issue,
then any other event, then the end of the cc (the order is a choice of the model, log entry 1). What the host writes
to its memory stands there, and what of it falls into the ring stands in the copy of the ring too. After whatever
happens, the waits at barrier objects are evaluated, speculative blocks of resolved nodes commit or are squashed,
the hub answers the queries that are due and halted threads with nothing left end, and nothing else changes. (R49,
R51, R52, R322.) -/
def Obligations.StepRunsDecoded : Prop :=
  ∀ s hs,
  (∀ c t w, s.agenda = .issue c :: hs →
      let k := currentSlot s c
      let s' : State := fetchSoft k { s with
        agenda := hs
        cores := put s.cores c { getCore s c with lastIssue := some s.cc, expired := false }
        turn := k }
      issueAllowed s c = true → getThread s k = some t → mayPresent s t = true → fetchBundle s' k t = .word w →
      (∀ b i p, decodeBundle w.toNat = .ok b → partsOf b = [(p, i)] → placeOf i = some p → step s = settled (exec i s'))
      ∧ (∀ b, decodeBundle w.toNat = .ok b → partsOf b = [] → step s = settled (.next (setThread s' k (advance t s.cc))))
      ∧ (∀ b, decodeBundle w.toNat = .ok b → step s = settled (issueOps k (bundleOps b) s'))
      ∧ (∀ e, decodeBundle w.toNat = .error e → ∃ tr, tr.code = tIllegal ∧ step s = settled (.next (raiseTrap k tr s'))))
  ∧ (∀ i, s.agenda = .event i :: hs → opOf i = none → step s = settled (exec i { s with agenda := hs }))
  ∧ (∀ a b, s.agenda = .hostWrite a b :: hs → ∃ u, step s = settled (.next u) ∧ u.mem = s.mem ∧ u.threads = s.threads ∧ u.hostMem = s.hostMem.store a b ∧ u.agenda = hs
      ∧ (s.mirror.wf = true → ∀ j, u.mirror.read j = if j < 256 * ringLen s ∧ a ≤ ringBase s + j ∧ ringBase s + j < a + b.length then b.getD (ringBase s + j - a) 0 else s.mirror.read j))
  ∧ (s.agenda = .tick :: hs → step s = settled (.next (tick { s with agenda := hs })))
  ∧ (s.agenda = [] → (∀ u, nextEarly s = some u → step s = settled (.next u))
      ∧ (nextEarly s = none →
        (∀ c, nextCore s = some c → step s = settled (issueCore c s))
        ∧ (nextCore s = none → (∀ u, nextEvent s = some u → step s = settled (.next u)) ∧ (nextEvent s = none → step s = settled (.next (tick s))))))
  ∧ (∀ u, settled (.next u) = .next (reapHalted (answerQueries (settleNodes (wakeBarriers u)))))
  ∧ ((∀ t ∈ s.threads, t.2.life ≠ .halted ∧ t.2.spec = false ∧ ∀ w, t.2.wait = some w → w.obj = none) → (∀ a ∈ s.accesses, a.2.watching = false) → s.parked = [] →
      (∀ r ∈ s.hubReqs, ∀ w, r.ask ≠ .query w) → settled (.next s) = .next s)

/-- Words of the four kinds, field by field, decode to the instructions that the tables give; a reserved field, an
unassigned opcode and an unassigned engine word are refused by name. (R54, R57, R58, R62.) -/
def Obligations.DecodedWords : Prop :=
  decode .s 0b0000001_00011_10000_00000_0000000001 = .ok (.add (.q 3) (.n 0) true)
  ∧ decode .s 0b0101000_00000_11111111111111111111 = .ok (.li (BitVec.allOnes 20))
  ∧ decode .s 0b1000000_11111_11111111111111111110 = .ok (.br (.n 15) (BitVec.ofInt 20 (-2)))
  ∧ decode .s 0b1010000_10001_00010_00000_0000000001 = .ok (.launchW (.n 1) (.q 2))
  ∧ decode .s 0b0000001_00000_00000_00001_0000000000 = .error (.reservedField .s)
  ∧ decode .s 0b0011100_00000_00000_00000_0000000000 = .error (.unassigned .s)
  ∧ decode .v 0b0000001_10001_00010_00000_011_010_01_00 = .ok (.vadd (.v 1) (.y 2) 3 .bf16x2 .rne)
  ∧ decode .v 0b0100000_00000_11000_01010_000_001_00_00 = .ok (.vcmp (.y 0) (.bcast 0) true .lt 0 .i32)
  ∧ decode .v 0b0100010_00001_00111_00000_000_000_00_00 = .ok (.mand 1 7 0)
  ∧ decode .a 0b0000001_10000_0011_1111111111111111 = .ok (.ld (.n 0) .d (BitVec.allOnes 16))
  ∧ decode .a 0b0010001_00000_1010_10010_10_000000001 = .ok (.gst (.q 0) 10 (.n 2) .w 1)
  ∧ decode .a 0b0100000_00000_00001_00000_0101_1000_11 = .ok (.amo (.q 0) (.q 1) 5 .swap .w8)
  ∧ decode .e 0b01_1_1111111111111 = .ok (.lit .c0 (BitVec.allOnes 13))
  ∧ decode .e 0b00_0_00011_1_0_0_1_0000 = .ok (.mma ⟨true, false, false, true⟩ .bf16)
  ∧ decode .e 0b11_0_00001_0000_0010 = .ok (.dup .c1)
  ∧ decode .e 0b11_0_00000_0001_0000 = .error (.reservedField .e)

/-- For every well-formed instruction that stands in a bundle, its word decodes in its slot to the instruction, every
operand at every value; and a word that decodes to an instruction is the word of that instruction, which is well
formed. (R49, R51, R54, R57, R58, R62.) -/
def Obligations.DecodeEncode : Prop :=
  (∀ i x, Instr.wellFormed i = true → encode i = some x → decode x.slot x.bits = .ok i)
  ∧ (∀ slot w i, decode slot w = .ok i → encode i = some ⟨slot, w⟩ ∧ Instr.wellFormed i = true)
  ∧ (∀ i, (opOf i).isSome = true ↔ (encode i).isSome = true)
end

