-- ==== Sys2Proof/Laws/Cells.lean ====
section
/-! SUPPORT. Lists of keyed data: a value set is found again, other keys keep theirs, and the canonical form stays. -/

namespace Sys2Proof.Machine

variable {α : Type}

@[simp] theorem look_put (l : List (Nat × α)) (k : Nat) (v : α) : look (put l k v) k = some v := by
  induction l with
  | nil => simp [put, look]
  | cons x xs ih =>
    obtain ⟨i, w⟩ := x
    by_cases h1 : k < i
    · simp [put, look, h1]
    · by_cases h2 : k = i
      · simp [put, look, h2]
      · simp [put, look, h1, h2, ih]

@[simp] theorem put_put (l : List (Nat × α)) (k : Nat) (v w : α) : put (put l k v) k w = put l k w := by
  induction l with
  | nil => simp [put]
  | cons x xs ih =>
    obtain ⟨i, u⟩ := x
    by_cases h1 : k < i
    · simp [put, h1]
    · by_cases h2 : k = i
      · simp [put, h2]
      · simp [put, h1, h2, ih]

/-- The keys of a rising list stay above its first one. -/
theorem keysRise_above {x : Nat × α} {l : List (Nat × α)} (h : keysRise (x :: l) = true) : ∀ y ∈ l, x.1 < y.1 := by
  induction l generalizing x with
  | nil => simp
  | cons z zs ih =>
    simp only [keysRise, Bool.and_eq_true, decide_eq_true_eq] at h
    intro y hy
    rcases List.mem_cons.1 hy with rfl | hy
    · exact h.1
    · exact Nat.lt_trans h.1 (ih h.2 y hy)

theorem keysRise_tail {x : Nat × α} {l : List (Nat × α)} (h : keysRise (x :: l) = true) : keysRise l = true := by
  cases l with
  | nil => rfl
  | cons z zs => simp only [keysRise, Bool.and_eq_true] at h; exact h.2

theorem keysRise_cons {x : Nat × α} {l : List (Nat × α)} (h : keysRise l = true) (ha : ∀ y ∈ l, x.1 < y.1) :
    keysRise (x :: l) = true := by
  cases l with
  | nil => rfl
  | cons z zs => simp [keysRise, ha z (by simp), h]

theorem look_none_of_above {l : List (Nat × α)} {a : Nat} (h : ∀ y ∈ l, a < y.1) : look l a = none := by
  cases l with
  | nil => rfl
  | cons z zs =>
    have hz := h z (by simp)
    simp [look, hz, Nat.ne_of_lt hz]

theorem mem_put {l : List (Nat × α)} {k : Nat} {v : α} {y : Nat × α} (h : y ∈ put l k v) : y = (k, v) ∨ y ∈ l := by
  induction l with
  | nil => simpa [put] using h
  | cons x xs ih =>
    obtain ⟨i, w⟩ := x
    simp only [put] at h
    split at h
    · simpa using h
    · split at h
      · rcases List.mem_cons.1 h with rfl | h
        · exact .inl rfl
        · exact .inr (by simp [h])
      · rcases List.mem_cons.1 h with rfl | h
        · exact .inr (by simp)
        · rcases ih h with h | h
          · exact .inl h
          · exact .inr (by simp [h])

theorem mem_erase {l : List (Nat × α)} {k : Nat} {y : Nat × α} (h : y ∈ erase l k) : y ∈ l := by
  induction l with
  | nil => simp [erase] at h
  | cons x xs ih =>
    obtain ⟨i, w⟩ := x
    simp only [erase] at h
    split at h
    · exact List.mem_cons_of_mem _ h
    · split at h
      · exact h
      · rcases List.mem_cons.1 h with rfl | h
        · simp
        · exact List.mem_cons_of_mem _ (ih h)

theorem keysRise_put {l : List (Nat × α)} (h : keysRise l = true) (k : Nat) (v : α) : keysRise (put l k v) = true := by
  induction l with
  | nil => rfl
  | cons x xs ih =>
    obtain ⟨i, w⟩ := x
    have ha := keysRise_above h
    simp only [put]
    split
    · rename_i hk
      refine keysRise_cons h fun y hy => ?_
      rcases List.mem_cons.1 hy with rfl | hy
      · exact hk
      · exact Nat.lt_trans hk (ha y hy)
    · split
      · rename_i hk
        refine keysRise_cons (keysRise_tail h) fun y hy => ?_
        have := ha y hy
        simp only at this ⊢
        omega
      · refine keysRise_cons (ih (keysRise_tail h)) fun y hy => ?_
        rcases mem_put hy with rfl | hy
        · simp only; omega
        · exact ha y hy

theorem keysRise_erase {l : List (Nat × α)} (h : keysRise l = true) (k : Nat) : keysRise (erase l k) = true := by
  induction l with
  | nil => rfl
  | cons x xs ih =>
    obtain ⟨i, w⟩ := x
    simp only [erase]
    split
    · exact keysRise_tail h
    · split
      · exact h
      · exact keysRise_cons (ih (keysRise_tail h)) fun y hy => keysRise_above h y (mem_erase hy)

theorem keysRise_filter {l : List (Nat × α)} (h : keysRise l = true) (p : Nat × α → Bool) : keysRise (l.filter p) = true := by
  induction l with
  | nil => rfl
  | cons x xs ih =>
    have ht := ih (keysRise_tail h)
    by_cases hp : p x = true
    · rw [List.filter_cons_of_pos hp]
      exact keysRise_cons ht fun y hy => keysRise_above h y (List.mem_filter.1 hy).1
    · rw [List.filter_cons_of_neg hp]
      exact ht

theorem look_put_other {l : List (Nat × α)} (h : keysRise l = true) {k a : Nat} (hk : a ≠ k) (v : α) :
    look (put l k v) a = look l a := by
  induction l with
  | nil =>
    simp only [put, look, if_neg hk]
    split <;> rfl
  | cons x xs ih =>
    obtain ⟨i, w⟩ := x
    have ha := keysRise_above h
    have ht := ih (keysRise_tail h)
    simp only [put]
    split
    · rename_i h1
      simp only [look, if_neg hk]
      by_cases h2 : a < k
      · have : a < i := by omega
        simp [h2, this, Nat.ne_of_lt this]
      · simp [h2]
    · split
      · rename_i h1 h2
        subst h2
        simp [look, hk]
      · simp only [look, ht]

theorem look_erase_same {l : List (Nat × α)} (h : keysRise l = true) (k : Nat) : look (erase l k) k = none := by
  induction l with
  | nil => rfl
  | cons x xs ih =>
    obtain ⟨i, w⟩ := x
    have ha := keysRise_above h
    simp only [erase]
    split
    · rename_i h1
      subst h1
      exact look_none_of_above ha
    · split
      · rename_i h1 h2
        simp [look, h1, h2]
      · rename_i h1 h2
        simp [look, h1, h2, ih (keysRise_tail h)]

theorem look_erase_other {l : List (Nat × α)} (h : keysRise l = true) {k a : Nat} (hk : a ≠ k) :
    look (erase l k) a = look l a := by
  induction l with
  | nil => rfl
  | cons x xs ih =>
    obtain ⟨i, w⟩ := x
    have ha := keysRise_above h
    simp only [erase]
    split
    · rename_i h1
      subst h1
      by_cases h2 : a < k
      · rw [look_none_of_above fun y hy => Nat.lt_trans h2 (ha y hy)]
        simp [look, hk, h2]
      · simp [look, hk, h2]
    · split
      · rfl
      · simp only [look, ih (keysRise_tail h)]

/-! Memory (its canonical form, reading after a write). -/

theorem Memory.wf_rise {m : Memory} (h : m.wf = true) : keysRise m = true := by
  simp only [Memory.wf, Bool.and_eq_true] at h; exact h.1

theorem Memory.wf_listed {m : Memory} (h : m.wf = true) : ∀ c ∈ m, c.2 ≠ unlisted := by
  simp only [Memory.wf, Bool.and_eq_true, List.all_eq_true, decide_eq_true_eq] at h; exact h.2

theorem Memory.wf_of {m : Memory} (h : keysRise m = true) (hl : ∀ c ∈ m, c.2 ≠ unlisted) : m.wf = true := by
  simp only [Memory.wf, Bool.and_eq_true, List.all_eq_true, decide_eq_true_eq]; exact ⟨h, hl⟩

theorem Memory.wf_write {m : Memory} (h : m.wf = true) (a : Nat) (b : Byte) : (m.write a b).wf = true := by
  unfold Memory.write
  split
  · exact Memory.wf_of (keysRise_erase (Memory.wf_rise h) a) fun c hc => Memory.wf_listed h c (mem_erase hc)
  · rename_i hb
    refine Memory.wf_of (keysRise_put (Memory.wf_rise h) a b) fun c hc => ?_
    rcases mem_put hc with rfl | hc
    · exact hb
    · exact Memory.wf_listed h c hc

theorem Memory.wf_store {m : Memory} (h : m.wf = true) (a : Nat) (bs : List Byte) : (m.store a bs).wf = true := by
  induction bs generalizing m a with
  | nil => exact h
  | cons b bs ih => exact ih (Memory.wf_write h a b) (a + 1)

theorem Memory.wf_storeMasked {m : Memory} (h : m.wf = true) (a : Nat) (bs : List (Option Byte)) :
    (m.storeMasked a bs).wf = true := by
  induction bs generalizing m a with
  | nil => exact h
  | cons b bs ih =>
    cases b with
    | none => exact ih h (a + 1)
    | some b => exact ih (Memory.wf_write h a b) (a + 1)

theorem Memory.wf_filter {m : Memory} (h : m.wf = true) (p : Host.Cell → Bool) : Memory.wf (m.filter p) = true :=
  Memory.wf_of (keysRise_filter (Memory.wf_rise h) p) fun c hc => Memory.wf_listed h c (List.mem_filter.1 hc).1

theorem Memory.wf_clear {m : Memory} (h : m.wf = true) (a n : Nat) : (m.clear a n).wf = true :=
  Memory.wf_filter h _

theorem Memory.wf_empty : Memory.wf [] = true := rfl

theorem Memory.read_write_same {m : Memory} (h : m.wf = true) (a : Nat) (b : Byte) : (m.write a b).read a = b := by
  unfold Memory.write Memory.read
  split
  · rename_i hb
    rw [look_erase_same (Memory.wf_rise h)]
    exact hb.symm
  · rw [look_put]; rfl

theorem Memory.read_write_other {m : Memory} (h : m.wf = true) {a c : Nat} (hc : c ≠ a) (b : Byte) :
    (m.write a b).read c = m.read c := by
  unfold Memory.write Memory.read
  split
  · rw [look_erase_other (Memory.wf_rise h) hc]
  · rw [look_put_other (Memory.wf_rise h) hc]

theorem Memory.read_store_outside {m : Memory} (h : m.wf = true) {a c : Nat} {bs : List Byte}
    (hc : c < a ∨ a + bs.length ≤ c) : (m.store a bs).read c = m.read c := by
  induction bs generalizing m a with
  | nil => rfl
  | cons b bs ih =>
    simp only [List.length_cons] at hc
    rw [Memory.store, ih (Memory.wf_write h a b) (by omega), Memory.read_write_other h (by omega)]

theorem Memory.read_store_inside {m : Memory} (h : m.wf = true) {a i : Nat} {bs : List Byte} (hi : i < bs.length) :
    (m.store a bs).read (a + i) = bs[i] := by
  induction bs generalizing m a i with
  | nil => simp at hi
  | cons b bs ih =>
    cases i with
    | zero =>
      rw [Memory.store, Memory.read_store_outside (Memory.wf_write h a b) (by omega)]
      simpa using Memory.read_write_same h a b
    | succ i =>
      simp only [List.length_cons] at hi
      rw [Memory.store, show a + (i + 1) = a + 1 + i by omega, ih (Memory.wf_write h a b) (by omega)]
      simp

theorem Memory.read_storeMasked {m : Memory} (h : m.wf = true) (a c : Nat) (bs : List (Option Byte)) :
    (m.storeMasked a bs).read c = if a ≤ c then ((bs[c - a]?).join).getD (m.read c) else m.read c := by
  induction bs generalizing m a with
  | nil => simp [Memory.storeMasked]
  | cons b bs ih =>
    cases b with
    | none =>
      rw [Memory.storeMasked, ih h (a + 1)]
      by_cases h1 : a + 1 ≤ c
      · rw [if_pos h1, if_pos (by omega), show c - a = (c - (a + 1)) + 1 by omega]; simp
      · by_cases h2 : a ≤ c
        · have : c - a = 0 := by omega
          simp [h1, h2, this]
        · simp [h1, h2]
    | some b =>
      rw [Memory.storeMasked, ih (Memory.wf_write h a b) (a + 1)]
      by_cases h1 : a + 1 ≤ c
      · rw [if_pos h1, if_pos (by omega), Memory.read_write_other h (by omega), show c - a = (c - (a + 1)) + 1 by omega]; simp
      · by_cases h2 : a ≤ c
        · have h3 : c = a := by omega
          subst h3
          rw [if_neg h1, Memory.read_write_same h]
          simp
        · simp [h1, h2, Memory.read_write_other h (show c ≠ a by omega)]

/-! Sets of numbers. -/

theorem setRises_tail {x : Nat} {l : List Nat} (h : setRises (x :: l) = true) : setRises l = true := by
  cases l with
  | nil => rfl
  | cons z zs => simp only [setRises, Bool.and_eq_true] at h; exact h.2

theorem setRises_above {x : Nat} {l : List Nat} (h : setRises (x :: l) = true) : ∀ y ∈ l, x < y := by
  induction l generalizing x with
  | nil => simp
  | cons z zs ih =>
    simp only [setRises, Bool.and_eq_true, decide_eq_true_eq] at h
    intro y hy
    rcases List.mem_cons.1 hy with rfl | hy
    · exact h.1
    · exact Nat.lt_trans h.1 (ih h.2 y hy)

@[simp] theorem memSet_addSet (l : List Nat) (a : Nat) : memSet (addSet l a) a = true := by
  induction l with
  | nil => simp [addSet, memSet]
  | cons x xs ih =>
    by_cases h1 : a < x
    · simp [addSet, memSet, h1]
    · by_cases h2 : a = x
      · simp [addSet, memSet, h2]
      · simp [addSet, memSet, h1, h2, ih]

theorem memSet_delSet {l : List Nat} (h : setRises l = true) (a : Nat) : memSet (delSet l a) a = false := by
  induction l with
  | nil => rfl
  | cons x xs ih =>
    by_cases h2 : a = x
    · subst h2
      simp only [delSet, if_pos]
      cases xs with
      | nil => rfl
      | cons z zs =>
        have := setRises_above h z (by simp)
        simp [memSet, this, Nat.ne_of_lt this]
    · by_cases h1 : a < x
      · simp [delSet, memSet, h1, h2]
      · simp [delSet, memSet, h1, h2, ih (setRises_tail h)]

end Sys2Proof.Machine
end

