-- ==== Sys2Proof/Laws/Dispatch.lean ====
section
/-! SUPPORT. What `exec` does with each instruction, in the terms of the operations and events. -/

namespace Sys2Proof.Machine

theorem exec_sNop (x : BitVec 25) (s : State) : exec (.sNop x) s = issueOp 0 opNop s := rfl
theorem exec_add (a : SSpec) (b : SSpec) (w : Bool) (s : State) : exec (.add a b w) s = issueOp 0 (opAdd a b w) s := rfl
theorem exec_sub (a : SSpec) (b : SSpec) (w : Bool) (s : State) : exec (.sub a b w) s = issueOp 0 (opSub a b w) s := rfl
theorem exec_mul (a : SSpec) (b : SSpec) (w : Bool) (s : State) : exec (.mul a b w) s = issueOp 0 (opMul a b w) s := rfl
theorem exec_mulh (a : SSpec) (b : SSpec) (w : Bool) (s : State) : exec (.mulh a b w) s = issueOp 0 (opMulh a b w) s := rfl
theorem exec_mulhu (a : SSpec) (b : SSpec) (w : Bool) (s : State) : exec (.mulhu a b w) s = issueOp 0 (opMulhu a b w) s := rfl
theorem exec_div (a : SSpec) (b : SSpec) (w : Bool) (s : State) : exec (.div a b w) s = issueOp 0 (opDiv a b w) s := rfl
theorem exec_divu (a : SSpec) (b : SSpec) (w : Bool) (s : State) : exec (.divu a b w) s = issueOp 0 (opDivu a b w) s := rfl
theorem exec_rem (a : SSpec) (b : SSpec) (w : Bool) (s : State) : exec (.rem a b w) s = issueOp 0 (opRem a b w) s := rfl
theorem exec_remu (a : SSpec) (b : SSpec) (w : Bool) (s : State) : exec (.remu a b w) s = issueOp 0 (opRemu a b w) s := rfl
theorem exec_and (a : SSpec) (b : SSpec) (w : Bool) (s : State) : exec (.and a b w) s = issueOp 0 (opAnd a b w) s := rfl
theorem exec_or (a : SSpec) (b : SSpec) (w : Bool) (s : State) : exec (.or a b w) s = issueOp 0 (opOr a b w) s := rfl
theorem exec_xor (a : SSpec) (b : SSpec) (w : Bool) (s : State) : exec (.xor a b w) s = issueOp 0 (opXor a b w) s := rfl
theorem exec_andn (a : SSpec) (b : SSpec) (w : Bool) (s : State) : exec (.andn a b w) s = issueOp 0 (opAndn a b w) s := rfl
theorem exec_shl (a : SSpec) (b : SSpec) (w : Bool) (s : State) : exec (.shl a b w) s = issueOp 0 (opShl a b w) s := rfl
theorem exec_shr (a : SSpec) (b : SSpec) (w : Bool) (s : State) : exec (.shr a b w) s = issueOp 0 (opShr a b w) s := rfl
theorem exec_sar (a : SSpec) (b : SSpec) (w : Bool) (s : State) : exec (.sar a b w) s = issueOp 0 (opSar a b w) s := rfl
theorem exec_rotl (a : SSpec) (b : SSpec) (w : Bool) (s : State) : exec (.rotl a b w) s = issueOp 0 (opRotl a b w) s := rfl
theorem exec_min (a : SSpec) (b : SSpec) (w : Bool) (s : State) : exec (.min a b w) s = issueOp 0 (opMin a b w) s := rfl
theorem exec_max (a : SSpec) (b : SSpec) (w : Bool) (s : State) : exec (.max a b w) s = issueOp 0 (opMax a b w) s := rfl
theorem exec_minu (a : SSpec) (b : SSpec) (w : Bool) (s : State) : exec (.minu a b w) s = issueOp 0 (opMinu a b w) s := rfl
theorem exec_maxu (a : SSpec) (b : SSpec) (w : Bool) (s : State) : exec (.maxu a b w) s = issueOp 0 (opMaxu a b w) s := rfl
theorem exec_clz (a : SSpec) (w : Bool) (s : State) : exec (.clz a w) s = issueOp 0 (opClz a w) s := rfl
theorem exec_ctz (a : SSpec) (w : Bool) (s : State) : exec (.ctz a w) s = issueOp 0 (opCtz a w) s := rfl
theorem exec_popc (a : SSpec) (w : Bool) (s : State) : exec (.popc a w) s = issueOp 0 (opPopc a w) s := rfl
theorem exec_sext (a : SSpec) (width : ExtWidth) (s : State) : exec (.sext a width) s = issueOp 0 (opSext a width) s := rfl
theorem exec_zext (a : SSpec) (width : ExtWidth) (s : State) : exec (.zext a width) s = issueOp 0 (opZext a width) s := rfl
theorem exec_keep (d : Fin 16) (b : SSpec) (s : State) : exec (.keep d b) s = issueOp 0 (opKeep d b) s := rfl
theorem exec_ceq (a : SSpec) (b : SSpec) (w : Bool) (s : State) : exec (.ceq a b w) s = issueOp 0 (opCeq a b w) s := rfl
theorem exec_cne (a : SSpec) (b : SSpec) (w : Bool) (s : State) : exec (.cne a b w) s = issueOp 0 (opCne a b w) s := rfl
theorem exec_clt (a : SSpec) (b : SSpec) (w : Bool) (s : State) : exec (.clt a b w) s = issueOp 0 (opClt a b w) s := rfl
theorem exec_cltu (a : SSpec) (b : SSpec) (w : Bool) (s : State) : exec (.cltu a b w) s = issueOp 0 (opCltu a b w) s := rfl
theorem exec_cle (a : SSpec) (b : SSpec) (w : Bool) (s : State) : exec (.cle a b w) s = issueOp 0 (opCle a b w) s := rfl
theorem exec_cleu (a : SSpec) (b : SSpec) (w : Bool) (s : State) : exec (.cleu a b w) s = issueOp 0 (opCleu a b w) s := rfl
theorem exec_sel (a : SSpec) (b : SSpec) (c : SSpec) (s : State) : exec (.sel a b c) s = issueOp 0 (opSel a b c) s := rfl
theorem exec_li (i : BitVec 20) (s : State) : exec (.li i) s = issueOp 0 (opLi i) s := rfl
theorem exec_lih (a : SSpec) (i : BitVec 20) (s : State) : exec (.lih a i) s = issueOp 0 (opLih a i) s := rfl
theorem exec_addi (a : SSpec) (i : BitVec 20) (s : State) : exec (.addi a i) s = issueOp 0 (opAddi a i) s := rfl
theorem exec_andi (a : SSpec) (i : BitVec 20) (s : State) : exec (.andi a i) s = issueOp 0 (opAndi a i) s := rfl
theorem exec_ori (a : SSpec) (i : BitVec 20) (s : State) : exec (.ori a i) s = issueOp 0 (opOri a i) s := rfl
theorem exec_shli (a : SSpec) (s0 : BitVec 6) (s : State) : exec (.shli a s0) s = issueOp 0 (opShli a s0) s := rfl
theorem exec_fadd (a : SSpec) (b : SSpec) (r : Rnd) (d : Bool) (s : State) : exec (.fadd a b r d) s = issueOp 0 (opFadd a b r d) s := rfl
theorem exec_fsub (a : SSpec) (b : SSpec) (r : Rnd) (d : Bool) (s : State) : exec (.fsub a b r d) s = issueOp 0 (opFsub a b r d) s := rfl
theorem exec_fmul (a : SSpec) (b : SSpec) (r : Rnd) (d : Bool) (s : State) : exec (.fmul a b r d) s = issueOp 0 (opFmul a b r d) s := rfl
theorem exec_ffma (a : SSpec) (b : SSpec) (c : SSpec) (r : Rnd) (d : Bool) (s : State) : exec (.ffma a b c r d) s = issueOp 0 (opFfma a b c r d) s := rfl
theorem exec_fmin (a : SSpec) (b : SSpec) (d : Bool) (s : State) : exec (.fmin a b d) s = issueOp 0 (opFmin a b d) s := rfl
theorem exec_fmax (a : SSpec) (b : SSpec) (d : Bool) (s : State) : exec (.fmax a b d) s = issueOp 0 (opFmax a b d) s := rfl
theorem exec_fceq (a : SSpec) (b : SSpec) (r : Rnd) (d : Bool) (s : State) : exec (.fceq a b r d) s = issueOp 0 (opFceq a b r d) s := rfl
theorem exec_fclt (a : SSpec) (b : SSpec) (r : Rnd) (d : Bool) (s : State) : exec (.fclt a b r d) s = issueOp 0 (opFclt a b r d) s := rfl
theorem exec_fcle (a : SSpec) (b : SSpec) (r : Rnd) (d : Bool) (s : State) : exec (.fcle a b r d) s = issueOp 0 (opFcle a b r d) s := rfl
theorem exec_fcvt (a : SSpec) (f : SType) (t : SType) (r : Rnd) (s : State) : exec (.fcvt a f t r) s = issueOp 0 (opFcvt a f t r) s := rfl
theorem exec_br (c : SSpec) (o : BitVec 20) (s : State) : exec (.br c o) s = issueOp 0 (opBr c o) s := rfl
theorem exec_brz (c : SSpec) (o : BitVec 20) (s : State) : exec (.brz c o) s = issueOp 0 (opBrz c o) s := rfl
theorem exec_jmp (o : BitVec 20) (s : State) : exec (.jmp o) s = issueOp 0 (opJmp o) s := rfl
theorem exec_call (o : BitVec 20) (s : State) : exec (.call o) s = issueOp 0 (opCall o) s := rfl
theorem exec_ret (a : SSpec) (s : State) : exec (.ret a) s = issueOp 0 (opRet a) s := rfl
theorem exec_loop (k : Fin 16) (o : BitVec 20) (s : State) : exec (.loop k o) s = issueOp 0 (opLoop k o) s := rfl
theorem exec_halt (s : State) : exec (.halt) s = issueOp 0 opHalt s := rfl
theorem exec_epush (a : SSpec) (e : Eng) (s : State) : exec (.epush a e) s = issueOp 0 (opEpush a e) s := rfl
theorem exec_tkwait (s0 : Side) (k : BitVec 4) (s : State) : exec (.tkwait s0 k) s = issueOp 0 (opTkwait s0 k) s := rfl
theorem exec_tksig (s0 : Side) (k : BitVec 4) (s : State) : exec (.tksig s0 k) s = issueOp 0 (opTksig s0 k) s := rfl
theorem exec_estat (e : Eng) (s : State) : exec (.estat e) s = issueOp 0 (opEstat e) s := rfl
theorem exec_getid (s0 : BitVec 4) (s : State) : exec (.getid s0) s = issueOp 0 (opGetid s0) s := rfl
theorem exec_join (a : SSpec) (new : Bool) (lock : Bool) (s : State) : exec (.join a new lock) s = issueOp 0 (opJoin a new lock) s := rfl
theorem exec_leave (a : SSpec) (s : State) : exec (.leave a) s = issueOp 0 (opLeave a) s := rfl
theorem exec_vclk (s : State) : exec (.vclk) s = issueOp 0 opVclk s := rfl
theorem exec_launch (a : SSpec) (b : SSpec) (s : State) : exec (.launch a b) s = issueOp 0 (opLaunch a b) s := rfl
theorem exec_launchW (a : SSpec) (b : SSpec) (s : State) : exec (.launchW a b) s = issueOp 0 (opLaunchW a b) s := rfl
theorem exec_shapepub (a : SSpec) (b : SSpec) (s : State) : exec (.shapepub a b) s = issueOp 0 (opShapepub a b) s := rfl
theorem exec_shapeq (a : SSpec) (s : State) : exec (.shapeq a) s = issueOp 0 (opShapeq a) s := rfl
theorem exec_shapew (a : SSpec) (s : State) : exec (.shapew a) s = issueOp 0 (opShapew a) s := rfl
theorem exec_rdsys (r : BitVec 10) (s : State) : exec (.rdsys r) s = issueOp 0 (opRdsys r) s := rfl
theorem exec_wrsys (a : SSpec) (r : BitVec 10) (s : State) : exec (.wrsys a r) s = issueOp 0 (opWrsys a r) s := rfl
theorem exec_trap (code : BitVec 8) (s : State) : exec (.trap code) s = issueOp 0 (opTrap code) s := rfl
theorem exec_rft (s : State) : exec (.rft) s = issueOp 0 opRft s := rfl
theorem exec_yield (s : State) : exec (.yield) s = issueOp 0 opYield s := rfl
theorem exec_vNop (x : BitVec 25) (s : State) : exec (.vNop x) s = issueOp 1 opNop s := rfl
theorem exec_vadd (a : VSpec) (b : VSpec) (m : Fin 8) (t : VType) (r : Rnd) (s : State) : exec (.vadd a b m t r) s = issueOp 1 (opVadd a b m t r) s := rfl
theorem exec_vsub (a : VSpec) (b : VSpec) (m : Fin 8) (t : VType) (r : Rnd) (s : State) : exec (.vsub a b m t r) s = issueOp 1 (opVsub a b m t r) s := rfl
theorem exec_vmul (a : VSpec) (b : VSpec) (m : Fin 8) (t : VType) (r : Rnd) (s : State) : exec (.vmul a b m t r) s = issueOp 1 (opVmul a b m t r) s := rfl
theorem exec_vfma (a : VSpec) (b : VSpec) (c : VSpec) (m : Fin 8) (t : VType) (r : Rnd) (s : State) : exec (.vfma a b c m t r) s = issueOp 1 (opVfma a b c m t r) s := rfl
theorem exec_vfms (a : VSpec) (b : VSpec) (c : VSpec) (m : Fin 8) (t : VType) (r : Rnd) (s : State) : exec (.vfms a b c m t r) s = issueOp 1 (opVfms a b c m t r) s := rfl
theorem exec_vfnma (a : VSpec) (b : VSpec) (c : VSpec) (m : Fin 8) (t : VType) (r : Rnd) (s : State) : exec (.vfnma a b c m t r) s = issueOp 1 (opVfnma a b c m t r) s := rfl
theorem exec_vmin (a : VSpec) (b : VSpec) (m : Fin 8) (t : VType) (s : State) : exec (.vmin a b m t) s = issueOp 1 (opVmin a b m t) s := rfl
theorem exec_vmax (a : VSpec) (b : VSpec) (m : Fin 8) (t : VType) (s : State) : exec (.vmax a b m t) s = issueOp 1 (opVmax a b m t) s := rfl
theorem exec_vabs (a : VSpec) (m : Fin 8) (t : VType) (s : State) : exec (.vabs a m t) s = issueOp 1 (opVabs a m t) s := rfl
theorem exec_vneg (a : VSpec) (m : Fin 8) (t : VType) (s : State) : exec (.vneg a m t) s = issueOp 1 (opVneg a m t) s := rfl
theorem exec_viadd (a : VSpec) (b : VSpec) (m : Fin 8) (t : VType) (s : State) : exec (.viadd a b m t) s = issueOp 1 (opViadd a b m t) s := rfl
theorem exec_visub (a : VSpec) (b : VSpec) (m : Fin 8) (t : VType) (s : State) : exec (.visub a b m t) s = issueOp 1 (opVisub a b m t) s := rfl
theorem exec_vimul (a : VSpec) (b : VSpec) (m : Fin 8) (t : VType) (s : State) : exec (.vimul a b m t) s = issueOp 1 (opVimul a b m t) s := rfl
theorem exec_vimulh (a : VSpec) (b : VSpec) (m : Fin 8) (t : VType) (u : Bool) (s : State) : exec (.vimulh a b m t u) s = issueOp 1 (opVimulh a b m t u) s := rfl
theorem exec_viand (a : VSpec) (b : VSpec) (m : Fin 8) (t : VType) (s : State) : exec (.viand a b m t) s = issueOp 1 (opViand a b m t) s := rfl
theorem exec_vior (a : VSpec) (b : VSpec) (m : Fin 8) (t : VType) (s : State) : exec (.vior a b m t) s = issueOp 1 (opVior a b m t) s := rfl
theorem exec_vixor (a : VSpec) (b : VSpec) (m : Fin 8) (t : VType) (s : State) : exec (.vixor a b m t) s = issueOp 1 (opVixor a b m t) s := rfl
theorem exec_vishl (a : VSpec) (b : VSpec) (m : Fin 8) (t : VType) (s : State) : exec (.vishl a b m t) s = issueOp 1 (opVishl a b m t) s := rfl
theorem exec_vishr (a : VSpec) (b : VSpec) (m : Fin 8) (t : VType) (s : State) : exec (.vishr a b m t) s = issueOp 1 (opVishr a b m t) s := rfl
theorem exec_visar (a : VSpec) (b : VSpec) (m : Fin 8) (t : VType) (s : State) : exec (.visar a b m t) s = issueOp 1 (opVisar a b m t) s := rfl
theorem exec_vimin (a : VSpec) (b : VSpec) (m : Fin 8) (t : VType) (u : Bool) (s : State) : exec (.vimin a b m t u) s = issueOp 1 (opVimin a b m t u) s := rfl
theorem exec_vimax (a : VSpec) (b : VSpec) (m : Fin 8) (t : VType) (u : Bool) (s : State) : exec (.vimax a b m t u) s = issueOp 1 (opVimax a b m t u) s := rfl
theorem exec_vcmp (a : VSpec) (b : VSpec) (u : Bool) (k : VCond) (m : Fin 8) (t : VType) (s : State) : exec (.vcmp a b u k m t) s = issueOp 1 (opVcmp a b u k m t) s := rfl
theorem exec_vsel (a : VSpec) (b : VSpec) (m : Fin 8) (t : VType) (s : State) : exec (.vsel a b m t) s = issueOp 1 (opVsel a b m t) s := rfl
theorem exec_mand (x : Fin 8) (y : Fin 8) (m : Fin 8) (s : State) : exec (.mand x y m) s = issueOp 1 (opMand x y m) s := rfl
theorem exec_mor (x : Fin 8) (y : Fin 8) (m : Fin 8) (s : State) : exec (.mor x y m) s = issueOp 1 (opMor x y m) s := rfl
theorem exec_mxor (x : Fin 8) (y : Fin 8) (m : Fin 8) (s : State) : exec (.mxor x y m) s = issueOp 1 (opMxor x y m) s := rfl
theorem exec_mnot (x : Fin 8) (m : Fin 8) (s : State) : exec (.mnot x m) s = issueOp 1 (opMnot x m) s := rfl
theorem exec_mpop (x : Fin 8) (m : Fin 8) (s : State) : exec (.mpop x m) s = issueOp 1 (opMpop x m) s := rfl
theorem exec_mfirst (x : Fin 8) (m : Fin 8) (s : State) : exec (.mfirst x m) s = issueOp 1 (opMfirst x m) s := rfl
theorem exec_vcvt (a : VSpec) (g : VType) (m : Fin 8) (s0 : VType) (r : Rnd) (p : BitVec 2) (s : State) : exec (.vcvt a g m s0 r p) s = issueOp 1 (opVcvt a g m s0 r p) s := rfl
theorem exec_vcvts (a : VSpec) (g : VType) (m : Fin 8) (s0 : VType) (p : BitVec 2) (s : State) : exec (.vcvts a g m s0 p) s = issueOp 1 (opVcvts a g m s0 p) s := rfl
theorem exec_vqnt4 (a : VSpec) (b : VSpec) (q : BitVec 3) (m : Fin 8) (n : Bool) (s : State) : exec (.vqnt4 a b q m n) s = issueOp 1 (opVqnt4 a b q m n) s := rfl
theorem exec_vdq4 (a : VSpec) (b : VSpec) (m : Fin 8) (r : Rnd) (s : State) : exec (.vdq4 a b m r) s = issueOp 1 (opVdq4 a b m r) s := rfl
theorem exec_vrcp (a : VSpec) (m : Fin 8) (t : VType) (r : Rnd) (s : State) : exec (.vrcp a m t r) s = issueOp 1 (opVrcp a m t r) s := rfl
theorem exec_vrsq (a : VSpec) (m : Fin 8) (t : VType) (r : Rnd) (s : State) : exec (.vrsq a m t r) s = issueOp 1 (opVrsq a m t r) s := rfl
theorem exec_vsqrt (a : VSpec) (m : Fin 8) (t : VType) (r : Rnd) (s : State) : exec (.vsqrt a m t r) s = issueOp 1 (opVsqrt a m t r) s := rfl
theorem exec_vexp2 (a : VSpec) (m : Fin 8) (t : VType) (r : Rnd) (s : State) : exec (.vexp2 a m t r) s = issueOp 1 (opVexp2 a m t r) s := rfl
theorem exec_vlog2 (a : VSpec) (m : Fin 8) (t : VType) (r : Rnd) (s : State) : exec (.vlog2 a m t r) s = issueOp 1 (opVlog2 a m t r) s := rfl
theorem exec_vperm (a : VSpec) (b : VSpec) (m : Fin 8) (t : VType) (s : State) : exec (.vperm a b m t) s = issueOp 1 (opVperm a b m t) s := rfl
theorem exec_vrot (a : VSpec) (b : VSpec) (m : Fin 8) (t : VType) (s : State) : exec (.vrot a b m t) s = issueOp 1 (opVrot a b m t) s := rfl
theorem exec_vbcast (a : VSpec) (m : Fin 8) (t : VType) (s : State) : exec (.vbcast a m t) s = issueOp 1 (opVbcast a m t) s := rfl
theorem exec_vext (a : VSpec) (m : Fin 8) (t : VType) (s : State) : exec (.vext a m t) s = issueOp 1 (opVext a m t) s := rfl
theorem exec_vins (a : VSpec) (b : VSpec) (m : Fin 8) (t : VType) (s : State) : exec (.vins a b m t) s = issueOp 1 (opVins a b m t) s := rfl
theorem exec_viota (a : VSpec) (m : Fin 8) (s : State) : exec (.viota a m) s = issueOp 1 (opViota a m) s := rfl
theorem exec_vredadd (a : VSpec) (m : Fin 8) (t : VType) (r : Rnd) (s : State) : exec (.vredadd a m t r) s = issueOp 1 (opVredadd a m t r) s := rfl
theorem exec_vredmax (a : VSpec) (m : Fin 8) (t : VType) (u : Bool) (s : State) : exec (.vredmax a m t u) s = issueOp 1 (opVredmax a m t u) s := rfl
theorem exec_vredmin (a : VSpec) (m : Fin 8) (t : VType) (u : Bool) (s : State) : exec (.vredmin a m t u) s = issueOp 1 (opVredmin a m t u) s := rfl
theorem exec_vscan (a : VSpec) (m : Fin 8) (t : VType) (r : Rnd) (s : State) : exec (.vscan a m t r) s = issueOp 1 (opVscan a m t r) s := rfl
theorem exec_vkeep (d : Fin 8) (b : VSpec) (m : Fin 8) (s : State) : exec (.vkeep d b m) s = issueOp 1 (opVkeep d b m) s := rfl
theorem exec_mkeep (d : Fin 8) (b : VSpec) (m : Fin 8) (s : State) : exec (.mkeep d b m) s = issueOp 1 (opMkeep d b m) s := rfl
theorem exec_aNop (x : BitVec 25) (s : State) : exec (.aNop x) s = issueOp 2 opNop s := rfl
theorem exec_ld (b : SSpec) (sz : LoadSize) (i : BitVec 16) (s : State) : exec (.ld b sz i) s = issueOp 2 (opLd b sz i) s := rfl
theorem exec_st (b : SSpec) (sz : StoreSize) (d : SSpec) (i : BitVec 11) (s : State) : exec (.st b sz d i) s = issueOp 2 (opSt b sz d i) s := rfl
theorem exec_vld (b : SSpec) (i : BitVec 16) (s : State) : exec (.vld b i) s = issueOp 2 (opVld b i) s := rfl
theorem exec_vst (b : SSpec) (d : VSpec) (i : BitVec 11) (s : State) : exec (.vst b d i) s = issueOp 2 (opVst b d i) s := rfl
theorem exec_vlds (a : SSpec) (b : SSpec) (s : State) : exec (.vlds a b) s = issueOp 2 (opVlds a b) s := rfl
theorem exec_vsts (a : SSpec) (b : SSpec) (c : VSpec) (s : State) : exec (.vsts a b c) s = issueOp 2 (opVsts a b c) s := rfl
theorem exec_vgath (a : SSpec) (b : VSpec) (s : State) : exec (.vgath a b) s = issueOp 2 (opVgath a b) s := rfl
theorem exec_vscat (a : SSpec) (b : VSpec) (c : VSpec) (s : State) : exec (.vscat a b c) s = issueOp 2 (opVscat a b c) s := rfl
theorem exec_ldwf (b : SSpec) (i : BitVec 16) (s : State) : exec (.ldwf b i) s = issueOp 2 (opLdwf b i) s := rfl
theorem exec_ldwfe (b : SSpec) (i : BitVec 16) (s : State) : exec (.ldwfe b i) s = issueOp 2 (opLdwfe b i) s := rfl
theorem exec_stwe (b : SSpec) (d : SSpec) (i : BitVec 11) (s : State) : exec (.stwe b d i) s = issueOp 2 (opStwe b d i) s := rfl
theorem exec_stf (b : SSpec) (d : SSpec) (i : BitVec 11) (s : State) : exec (.stf b d i) s = issueOp 2 (opStf b d i) s := rfl
theorem exec_feset (b : SSpec) (i : BitVec 16) (s : State) : exec (.feset b i) s = issueOp 2 (opFeset b i) s := rfl
theorem exec_feclr (b : SSpec) (i : BitVec 16) (s : State) : exec (.feclr b i) s = issueOp 2 (opFeclr b i) s := rfl
theorem exec_fetest (b : SSpec) (i : BitVec 16) (s : State) : exec (.fetest b i) s = issueOp 2 (opFetest b i) s := rfl
theorem exec_gld (b : SSpec) (h : Fin 16) (sz : LoadSize) (i : BitVec 13) (s : State) : exec (.gld b h sz i) s = issueOp 2 (opGld b h sz i) s := rfl
theorem exec_gst (b : SSpec) (h : Fin 16) (d : SSpec) (sz : StoreSize) (i : BitVec 9) (s : State) : exec (.gst b h d sz i) s = issueOp 2 (opGst b h d sz i) s := rfl
theorem exec_gvld (b : SSpec) (h : Fin 16) (i : BitVec 16) (s : State) : exec (.gvld b h i) s = issueOp 2 (opGvld b h i) s := rfl
theorem exec_gvst (b : SSpec) (h : Fin 16) (d : VSpec) (i : BitVec 11) (s : State) : exec (.gvst b h d i) s = issueOp 2 (opGvst b h d i) s := rfl
theorem exec_gwait (s : State) : exec (.gwait) s = issueOp 2 opGwait s := rfl
theorem exec_xlat (a : SSpec) (h : Fin 16) (p : BitVec 3) (s : State) : exec (.xlat a h p) s = issueOp 2 (opXlat a h p) s := rfl
theorem exec_hdrop (h : Fin 16) (s : State) : exec (.hdrop h) s = issueOp 2 (opHdrop h) s := rfl
theorem exec_hchk (a : SSpec) (h : Fin 16) (s : State) : exec (.hchk a h) s = issueOp 2 (opHchk a h) s := rfl
theorem exec_hinfo (h : Fin 16) (s : State) : exec (.hinfo h) s = issueOp 2 (opHinfo h) s := rfl
theorem exec_amo (a : SSpec) (b : SSpec) (h : Fin 16) (o : AmoOp) (w : AmoWidth) (s : State) : exec (.amo a b h o w) s = issueOp 2 (opAmo a b h o w) s := rfl
theorem exec_cas (a : SSpec) (b : SSpec) (c : SSpec) (h : Fin 16) (w : AmoWidth) (s : State) : exec (.cas a b c h w) s = issueOp 2 (opCas a b c h w) s := rfl
theorem exec_cas2 (a : SSpec) (b : SSpec) (h : Fin 16) (s : State) : exec (.cas2 a b h) s = issueOp 2 (opCas2 a b h) s := rfl
theorem exec_chain (a : SSpec) (s : State) : exec (.chain a) s = issueOp 2 (opChain a) s := rfl
theorem exec_chainq (a : SSpec) (s : State) : exec (.chainq a) s = issueOp 2 (opChainq a) s := rfl
theorem exec_barinit (a : SSpec) (b : SSpec) (g : Option (Fin 16)) (s : State) : exec (.barinit a b g) s = issueOp 2 (opBarinit a b g) s := rfl
theorem exec_bararr (a : SSpec) (b : SSpec) (g : Option (Fin 16)) (s : State) : exec (.bararr a b g) s = issueOp 2 (opBararr a b g) s := rfl
theorem exec_bardrop (a : SSpec) (b : SSpec) (g : Option (Fin 16)) (s : State) : exec (.bardrop a b g) s = issueOp 2 (opBardrop a b g) s := rfl
theorem exec_barjoin (a : SSpec) (b : SSpec) (g : Option (Fin 16)) (s : State) : exec (.barjoin a b g) s = issueOp 2 (opBarjoin a b g) s := rfl
theorem exec_barwait (a : SSpec) (b : SSpec) (g : Option (Fin 16)) (s : State) : exec (.barwait a b g) s = issueOp 2 (opBarwait a b g) s := rfl
theorem exec_barbytes (a : SSpec) (b : SSpec) (g : Option (Fin 16)) (s : State) : exec (.barbytes a b g) s = issueOp 2 (opBarbytes a b g) s := rfl
theorem exec_barq (a : SSpec) (b : SSpec) (g : Option (Fin 16)) (s : State) : exec (.barq a b g) s = issueOp 2 (opBarq a b g) s := rfl
theorem exec_csend (b : VSpec) (h : BitVec 7) (s : State) : exec (.csend b h) s = issueOp 2 (opCsend b h) s := rfl
theorem exec_cstat (h : BitVec 7) (s : State) : exec (.cstat h) s = issueOp 2 (opCstat h) s := rfl
theorem exec_fenceQ (q : BitVec 4) (s : State) : exec (.fenceQ q) s = issueOp 2 (opFenceQ q) s := rfl
theorem exec_fenceSys (s : State) : exec (.fenceSys) s = issueOp 2 opFenceSys s := rfl
theorem exec_fenceHost (s : State) : exec (.fenceHost) s = issueOp 2 opFenceHost s := rfl
theorem exec_harv (a : SSpec) (s : State) : exec (.harv a) s = issueOp 2 (opHarv a) s := rfl
theorem exec_xinval (a : SSpec) (z : PageSize) (s : State) : exec (.xinval a z) s = issueOp 2 (opXinval a z) s := rfl
theorem exec_engineNop (s : State) : exec (.engineNop) s = issueOp 3 opNop s := rfl
theorem exec_lit (e : Eng) (v : BitVec 13) (s : State) : exec (.lit e v) s = issueOp 3 (opLit e v) s := rfl
theorem exec_litx (e : Eng) (v : BitVec 11) (s : State) : exec (.litx e v) s = issueOp 3 (opLitx e v) s := rfl
theorem exec_commonNop (s : State) : exec (.commonNop) s = issueOp 3 opNop s := rfl
theorem exec_dup (e : Eng) (s : State) : exec (.dup e) s = issueOp 3 (opDup e) s := rfl
theorem exec_drop (e : Eng) (s : State) : exec (.drop e) s = issueOp 3 (opDrop e) s := rfl
theorem exec_swap (e : Eng) (s : State) : exec (.swap e) s = issueOp 3 (opSwap e) s := rfl
theorem exec_tokenOnly (e : Eng) (tk : Tok) (s : State) : exec (.tokenOnly e tk) s = issueOp 3 (opTokenOnly e tk) s := rfl
theorem exec_lda (tk : Tok) (t : MType) (s : State) : exec (.lda tk t) s = issueOp 3 (opLda tk t) s := rfl
theorem exec_ldac (tk : Tok) (i : Bool) (t : MType) (s : State) : exec (.ldac tk i t) s = issueOp 3 (opLdac tk i t) s := rfl
theorem exec_mma (tk : Tok) (t : MType) (s : State) : exec (.mma tk t) s = issueOp 3 (opMma tk t) s := rfl
theorem exec_mmaz (tk : Tok) (t : MType) (s : State) : exec (.mmaz tk t) s = issueOp 3 (opMmaz tk t) s := rfl
theorem exec_drain (tk : Tok) (fe : Bool) (f : DrainFmt) (s : State) : exec (.drain tk fe f) s = issueOp 3 (opDrain tk fe f) s := rfl
theorem exec_drainq (tk : Tok) (n : Bool) (s0 : BitVec 3) (s : State) : exec (.drainq tk n s0) s = issueOp 3 (opDrainq tk n s0) s := rfl
theorem exec_nest (tk : Tok) (s : State) : exec (.nest tk) s = issueOp 3 (opNest tk) s := rfl
theorem exec_zacc (tk : Tok) (s : State) : exec (.zacc tk) s = issueOp 3 (opZacc tk) s := rfl
theorem exec_msync (tk : Tok) (take : Bool) (s : State) : exec (.msync tk take) s = issueOp 3 (opMsync tk take) s := rfl
theorem exec_mstat (tk : Tok) (clr : Bool) (s : State) : exec (.mstat tk clr) s = issueOp 3 (opMstat tk clr) s := rfl
theorem exec_g2s (c : Chan) (tk : Tok) (path : PathSel) (fe : Bool) (s : State) : exec (.g2s c tk path fe) s = issueOp 3 (opG2s c tk path fe) s := rfl
theorem exec_s2g (c : Chan) (tk : Tok) (path : PathSel) (fe : Bool) (s : State) : exec (.s2g c tk path fe) s = issueOp 3 (opS2g c tk path fe) s := rfl
theorem exec_s2s (c : Chan) (tk : Tok) (path : PathSel) (fe : Bool) (s : State) : exec (.s2s c tk path fe) s = issueOp 3 (opS2s c tk path fe) s := rfl
theorem exec_s2w (c : Chan) (tk : Tok) (s : State) : exec (.s2w c tk) s = issueOp 3 (opS2w c tk) s := rfl
theorem exec_g2w (c : Chan) (tk : Tok) (path : PathSel) (s : State) : exec (.g2w c tk path) s = issueOp 3 (opG2w c tk path) s := rfl
theorem exec_g2g (c : Chan) (tk : Tok) (path : PathSel) (fe : Bool) (s : State) : exec (.g2g c tk path fe) s = issueOp 3 (opG2g c tk path fe) s := rfl
theorem exec_circ (c : Chan) (tk : Tok) (fe : Bool) (s : State) : exec (.circ c tk fe) s = issueOp 3 (opCirc c tk fe) s := rfl
theorem exec_cflag (c : Chan) (tk : Tok) (fe : Bool) (s : State) : exec (.cflag c tk fe) s = issueOp 3 (opCflag c tk fe) s := rfl
theorem exec_cnest (c : Chan) (tk : Tok) (path : PathSel) (fe : Bool) (s : State) : exec (.cnest c tk path fe) s = issueOp 3 (opCnest c tk path fe) s := rfl
theorem exec_cbar (c : Chan) (tk : Tok) (g : Bool) (s : State) : exec (.cbar c tk g) s = issueOp 3 (opCbar c tk g) s := rfl
theorem exec_channelCstat (c : Chan) (tk : Tok) (s : State) : exec (.channelCstat c tk) s = issueOp 3 (opChannelCstat c tk) s := rfl
theorem exec_step (ctx : Nat) (s : State) : exec (.step ctx) s = .next (evStep ctx s) := rfl
theorem exec_rptRepetition (ctx : Nat) (s : State) : exec (.rptRepetition ctx) s = .next (evRptRepetition ctx s) := rfl
theorem exec_waitc (ctx : Nat) (s : State) : exec (.waitc ctx) s = .next (evWaitc ctx s) := rfl
theorem exec_resultPush (slot : Nat) (s : State) : exec (.resultPush slot) s = .next (evResultPush slot s) := rfl
theorem exec_lateItemArrival (slot : Nat) (s : State) : exec (.lateItemArrival slot) s = .next (evLateItemArrival slot s) := rfl
theorem exec_bundleFetchFault (slot : Nat) (s : State) : exec (.bundleFetchFault slot) s = .next (evBundleFetchFault slot s) := rfl
theorem exec_slotSwitch (core : Nat) (s : State) : exec (.slotSwitch core) s = .next (evSlotSwitch core s) := rfl
theorem exec_quantumExpiry (core : Nat) (s : State) : exec (.quantumExpiry core) s = .next (evQuantumExpiry core s) := rfl
theorem exec_watchdogExpiry (slot : Nat) (s : State) : exec (.watchdogExpiry slot) s = .next (evWatchdogExpiry slot s) := rfl
theorem exec_trapEntry (slot : Nat) (s : State) : exec (.trapEntry slot) s = .next (evTrapEntry slot s) := rfl
theorem exec_boundaryTrap (slot : Nat) (s : State) : exec (.boundaryTrap slot) s = .next (evBoundaryTrap slot s) := rfl
theorem exec_feWaiterPerform (word : Nat) (s : State) : exec (.feWaiterPerform word) s = .next (evFeWaiterPerform word s) := rfl
theorem exec_feTimeout (word : Nat) (waiter : Nat) (s : State) : exec (.feTimeout word waiter) s = .next (evFeTimeout word waiter s) := rfl
theorem exec_vgathPass (slot : Nat) (s : State) : exec (.vgathPass slot) s = .next (evVgathPass slot s) := rfl
theorem exec_enginePortAccess (slot : Nat) (e : Eng) (k : Nat) (s : State) : exec (.enginePortAccess slot e k) s = .next (evEnginePortAccess slot e k s) := rfl
theorem exec_pageWalkComplete (slot : Nat) (tag : Nat) (s : State) : exec (.pageWalkComplete slot tag) s = .next (evPageWalkComplete slot tag s) := rfl
theorem exec_xinvalComplete (slot : Nat) (s : State) : exec (.xinvalComplete slot) s = .next (evXinvalComplete slot s) := rfl
theorem exec_harvComplete (slot : Nat) (s : State) : exec (.harvComplete slot) s = .next (evHarvComplete slot s) := rfl
theorem exec_migrationEvaluation (s : State) : exec (.migrationEvaluation) s = .next (evMigrationEvaluation s) := rfl
theorem exec_pageMigrationComplete (k : Nat) (s : State) : exec (.pageMigrationComplete k) s = .next (evPageMigrationComplete k s) := rfl
theorem exec_homeLineAccess (id : Nat) (ok : Bool) (s : State) : exec (.homeLineAccess ⟨id, ok⟩) s = .next (evHomeLineAccess id ok s) := rfl
theorem exec_atomicPerform (id : Nat) (ok : Bool) (s : State) : exec (.atomicPerform ⟨id, ok⟩) s = .next (evAtomicPerform id ok s) := rfl
theorem exec_packetRoute (id : Nat) (s : State) : exec (.packetRoute id) s = .next (evPacketRoute id s) := rfl
theorem exec_mergedReplySplit (id : Nat) (s : State) : exec (.mergedReplySplit id) s = .next (evMergedReplySplit id s) := rfl
theorem exec_responseReceive (id : Nat) (s : State) : exec (.responseReceive id) s = .next (evResponseReceive id s) := rfl
theorem exec_bounceReinject (id : Nat) (s : State) : exec (.bounceReinject id) s = .next (evBounceReinject id s) := rfl
theorem exec_flitReceive (link : LinkId) (ok : Bool) (s : State) : exec (.flitReceive link ok) s = .next (evFlitReceive (linkKey link.x link.y link.port) ok s) := rfl
theorem exec_replayRequest (link : LinkId) (s : State) : exec (.replayRequest link) s = .next (evReplayRequest (linkKey link.x link.y link.port) s) := rfl
theorem exec_linkAck (link : LinkId) (s : State) : exec (.linkAck link) s = .next (evLinkAck (linkKey link.x link.y link.port) s) := rfl
theorem exec_linkRetrainDone (link : LinkId) (ok : Bool) (s : State) : exec (.linkRetrainDone link ok) s = .next (evLinkRetrainDone (linkKey link.x link.y link.port) ok s) := rfl
theorem exec_creditReturn (link : LinkId) (resp : Bool) (s : State) : exec (.creditReturn link resp) s = .next (evCreditReturn (linkKey link.x link.y link.port) resp s) := rfl
theorem exec_creditSyncSend (link : LinkId) (resp : Bool) (s : State) : exec (.creditSyncSend link resp) s = .next (evCreditSyncSend (linkKey link.x link.y link.port) resp s) := rfl
theorem exec_creditSyncReceive (link : LinkId) (resp : Bool) (s : State) : exec (.creditSyncReceive link resp) s = .next (evCreditSyncReceive (linkKey link.x link.y link.port) resp s) := rfl
theorem exec_berWindow (lane : Nat) (w : BitVec 32) (uncorr : Nat) (s : State) : exec (.berWindow lane w uncorr) s = .next (evBerWindow lane w uncorr s) := rfl
theorem exec_codeRequest (lane : Nat) (code : BitVec 2) (s : State) : exec (.codeRequest lane code) s = .next (evCodeRequest lane code.toNat s) := rfl
theorem exec_codeMarkerTimeout (lane : Nat) (s : State) : exec (.codeMarkerTimeout lane) s = .next (evCodeMarkerTimeout lane s) := rfl
theorem exec_codeChange (lane : Nat) (s : State) : exec (.codeChange lane) s = .next (evCodeChange lane s) := rfl
theorem exec_ordFrameReceive (f : FrameRef) (s : State) : exec (.ordFrameReceive f) s = .next (evOrdFrameReceive f s) := rfl
theorem exec_bulkFrameReceive (f : FrameRef) (s : State) : exec (.bulkFrameReceive f) s = .next (evBulkFrameReceive f s) := rfl
theorem exec_flagFrameApply (f : FrameRef) (s : State) : exec (.flagFrameApply f) s = .next (evFlagFrameApply f s) := rfl
theorem exec_frameAckReceive (id : Nat) (s : State) : exec (.frameAckReceive id) s = .next (evFrameAckReceive id s) := rfl
theorem exec_endToEndCredit (peer : Nat) (ord : Nat) (bulk : Nat) (s : State) : exec (.endToEndCredit peer ord bulk) s = .next (evEndToEndCredit peer ord bulk s) := rfl
theorem exec_frameResendTimeout (id path : Nat) (s : State) : exec (.frameResendTimeout id path) s = .next (if sentOn s id path then evFrameResendTimeout id s else s) := rfl
theorem exec_frameAgeDiscard (id : Nat) (s : State) : exec (.frameAgeDiscard id) s = .next (evFrameAgeDiscard id s) := rfl
theorem exec_laneFrameReplay (id : Nat) (s : State) : exec (.laneFrameReplay id) s = .next (evLaneFrameReplay id s) := rfl
theorem exec_relayForward (id : Nat) (s : State) : exec (.relayForward id) s = .next (evRelayForward id s) := rfl
theorem exec_keepaliveSend (peer : Nat) (s : State) : exec (.keepaliveSend peer) s = .next (evKeepaliveSend peer s) := rfl
theorem exec_peerSilenceHold (peer : Nat) (s : State) : exec (.peerSilenceHold peer) s = .next (evPeerSilenceHold peer s) := rfl
theorem exec_peerLost (peer : Nat) (s : State) : exec (.peerLost peer) s = .next (evPeerLost peer s) := rfl
theorem exec_peerBack (peer : Nat) (s : State) : exec (.peerBack peer) s = .next (evPeerBack peer s) := rfl
theorem exec_relayRefill (peer : Nat) (s : State) : exec (.relayRefill peer) s = .next (evRelayRefill peer s) := rfl
theorem exec_combLoss (engine : Nat) (s : State) : exec (.combLoss engine) s = .next (evCombLoss engine s) := rfl
theorem exec_combRelock (engine : Nat) (s : State) : exec (.combRelock engine) s = .next (evCombRelock engine s) := rfl
theorem exec_tuneLoss (lane : Nat) (rx : Bool) (s : State) : exec (.tuneLoss lane rx) s = .next (evTuneLoss lane rx s) := rfl
theorem exec_laneDown (lane : Nat) (rx : Bool) (s : State) : exec (.laneDown lane rx) s = .next (evLaneDown lane rx s) := rfl
theorem exec_laneUp (lane : Nat) (rx : Bool) (tag : BitVec 64) (s : State) : exec (.laneUp lane ⟨rx, tag⟩) s = .next (evLaneUp lane rx tag s) := rfl
theorem exec_laneNotice (src : Nat) (rec : RecordWords) (s : State) : exec (.laneNotice ⟨src, rec⟩) s = .next (evLaneNotice src rec s) := rfl
theorem exec_circuitSettled (ctx : Nat) (h : Nat) (s : State) : exec (.circuitSettled ctx h) s = .next (evCircuitSettled ctx h s) := rfl
theorem exec_circuitFailure (ctx : Nat) (h : Nat) (cause : Nat) (s : State) : exec (.circuitFailure ctx h cause) s = .next (evCircuitFailure ctx h cause s) := rfl
theorem exec_circuitRepairStart (ctx : Nat) (h : Nat) (s : State) : exec (.circuitRepairStart ctx h) s = .next (evCircuitRepairStart ctx h s) := rfl
theorem exec_circuitRepairSearchEnd (ctx : Nat) (h : Nat) (found : Bool) (src : Nat) (s : State) : exec (.circuitRepairSearchEnd ctx h found src) s = .next (evCircuitRepairSearchEnd ctx h found src s) := rfl
theorem exec_tearPerform (ctx : Nat) (h : Nat) (s : State) : exec (.tearPerform ctx h) s = .next (evTearPerform ctx h s) := rfl
theorem exec_tearComplete (ctx : Nat) (h : Nat) (s : State) : exec (.tearComplete ctx h) s = .next (evTearComplete ctx h s) := rfl
theorem exec_csendLanding (port : Nat) (s : State) : exec (.csendLanding port) s = .next (evCsendLanding port s) := rfl
theorem exec_autoCircuitIdleTear (src : Nat) (s : State) : exec (.autoCircuitIdleTear src) s = .next (evAutoCircuitIdleTear src s) := rfl
theorem exec_copyWordStart (slot : Nat) (c : Chan) (s : State) : exec (.copyWordStart slot c) s = .next (evCopyWordStart slot c s) := rfl
theorem exec_matrixWordStart (slot : Nat) (s : State) : exec (.matrixWordStart slot) s = .next (evMatrixWordStart slot s) := rfl
theorem exec_nestIteration (slot : Nat) (s : State) : exec (.nestIteration slot) s = .next (evNestIteration slot s) := rfl
theorem exec_engineWordFinish (slot : Nat) (e : Eng) (s : State) : exec (.engineWordFinish slot e) s = .next (evEngineWordFinish slot e s) := rfl
theorem exec_chainStep (id k : Nat) (s : State) : exec (.chainStep id k) s = .next (if atStep s id k then evChainStep id s else s) := rfl
theorem exec_chainReturn (id k : Nat) (s : State) : exec (.chainReturn id k) s = .next (if forEntry s id k then evChainReturn id s else s) := rfl
theorem exec_barrierAction (id : Nat) (s : State) : exec (.barrierAction id) s = .next (evBarrierAction id s) := rfl
theorem exec_barwaitTimeout (slot : Nat) (s : State) : exec (.barwaitTimeout slot) s = .next (evBarwaitTimeout slot s) := rfl
theorem exec_fenceLimitExpiry (slot : Nat) (s : State) : exec (.fenceLimitExpiry slot) s = .next (evFenceLimitExpiry slot s) := rfl
theorem exec_launchRequest (slot : Nat) (entry : Nat) (s : State) : exec (.launchRequest slot entry) s = .next (evLaunchRequest slot entry s) := rfl
theorem exec_launchWaitTimeout (slot : Nat) (s : State) : exec (.launchWaitTimeout slot) s = .next (evLaunchWaitTimeout slot s) := rfl
theorem exec_cohortRequest (slot : Nat) (cohort : Nat) (s : State) : exec (.cohortRequest slot cohort) s = .next (evCohortRequest slot cohort s) := rfl
theorem exec_shapeResolution (slot : Nat) (s : State) : exec (.shapeResolution slot) s = .next (evShapeResolution slot s) := rfl
theorem exec_shapewTimeout (slot : Nat) (s : State) : exec (.shapewTimeout slot) s = .next (evShapewTimeout slot s) := rfl
theorem exec_blockDispatch (entry : Nat) (place : Placement) (s : State) : exec (.blockDispatch entry place) s = .next (evBlockDispatch entry place s) := rfl
theorem exec_gangDispatch (entry : Nat) (cohort : Nat) (ctx : Nat) (places : List Placement) (s : State) : exec (.gangDispatch entry cohort ctx places) s = .next (evGangDispatch entry cohort ctx places s) := rfl
theorem exec_gangReservation (entry : Nat) (places : List Placement) (s : State) : exec (.gangReservation entry places) s = .next (evGangReservation entry places s) := rfl
theorem exec_nodeCompletion (entry : Nat) (s : State) : exec (.nodeCompletion entry) s = .next (evNodeCompletion entry s) := rfl
theorem exec_preemption (slot : Nat) (s : State) : exec (.preemption slot) s = .next (evPreemption slot s) := rfl
theorem exec_contextRestore (k : Nat) (slots : List Nat) (cohort : Nat) (ctx : Nat) (s : State) : exec (.contextRestore k slots cohort ctx) s = .next (evContextRestore k slots cohort ctx s) := rfl
theorem exec_asidregWrite (slot : Nat) (v : BitVec 64) (s : State) : exec (.asidregWrite slot v) s = .next (evAsidregWrite slot v s) := rfl
theorem exec_srseedWrite (slot : Nat) (v : BitVec 64) (s : State) : exec (.srseedWrite slot v) s = .next (evSrseedWrite slot v s) := rfl
theorem exec_frecpop (slot : Nat) (s : State) : exec (.frecpop slot) s = .next (evFrecpop slot s) := rfl
theorem exec_landwinWrite (slot : Nat) (v : BitVec 64) (s : State) : exec (.landwinWrite slot v) s = .next (evLandwinWrite slot v s) := rfl
theorem exec_chdrop (slot : Nat) (v : BitVec 64) (s : State) : exec (.chdrop slot v) s = .next (evChdrop slot v s) := rfl
theorem exec_mnest1Drop (slot : Nat) (s : State) : exec (.mnest1Drop slot) s = .next (evMnest1Drop slot s) := rfl
theorem exec_wdlimitWrite (slot : Nat) (v : BitVec 64) (s : State) : exec (.wdlimitWrite slot v) s = .next (evWdlimitWrite slot v s) := rfl
theorem exec_lanePinWrite (lane : Nat) (pin : Bool) (pcode : BitVec 2) (s : State) : exec (.lanePinWrite lane pin pcode) s = .next (evLanePinWrite lane pin pcode.toNat s) := rfl
theorem exec_laneDisWrite (lane : Nat) (dis : Bool) (s : State) : exec (.laneDisWrite lane dis) s = .next (evLaneDisWrite lane dis s) := rfl
theorem exec_cmdringEnable (v : BitVec 64) (s : State) : exec (.cmdringEnable v) s = .next (evCmdringEnable v s) := rfl
theorem exec_cmdringDisable (v : BitVec 64) (s : State) : exec (.cmdringDisable v) s = .next (evCmdringDisable v s) := rfl
theorem exec_accessTableWrite (table : Nat) (index : Nat) (v : BitVec 128) (s : State) : exec (.accessTableWrite table index v) s = .next (evAccessTableWrite table index v s) := rfl
theorem exec_registerWrite (reg : RegRef) (v : BitVec 64) (s : State) : exec (.registerWrite reg v) s = .next (evRegisterWrite reg v s) := rfl
theorem exec_hostAccess (x : HostReq) (s : State) : exec (.hostAccess x) s = .next (evHostAccess x s) := rfl
theorem exec_hostAtomicop (x : HostAtomic) (s : State) : exec (.hostAtomicop x) s = .next (evHostAtomicop x s) := rfl
theorem exec_commandConsume (s : State) : exec (.commandConsume) s = .next (evCommandConsume s) := rfl
theorem exec_commandCompletion (k : Nat) (s : State) : exec (.commandCompletion k) s = .next (evCommandCompletion k s) := rfl
theorem exec_nopCommand (k : Nat) (s : State) : exec (.nopCommand k) s = .next (evNopCommand k s) := rfl
theorem exec_launchCommand (k : Nat) (entries : List Nat) (s : State) : exec (.launchCommand k entries) s = .next (evLaunchCommand k entries s) := rfl
theorem exec_shootdown (k : Nat) (s : State) : exec (.shootdown k) s = .next (evShootdown k s) := rfl
theorem exec_harvest (k : Nat) (s : State) : exec (.harvest k) s = .next (evHarvest k s) := rfl
theorem exec_preempt (k : Nat) (s : State) : exec (.preempt k) s = .next (evPreempt k s) := rfl
theorem exec_attest (k : Nat) (s : State) : exec (.attest k) s = .next (evAttest k s) := rfl
theorem exec_redirclr (k : Nat) (s : State) : exec (.redirclr k) s = .next (evRedirclr k s) := rfl
theorem exec_settvec (k : Nat) (s : State) : exec (.settvec k) s = .next (evSettvec k s) := rfl
theorem exec_abort (k : Nat) (s : State) : exec (.abort k) s = .next (evAbort k s) := rfl
theorem exec_subst (k : Nat) (s : State) : exec (.subst k) s = .next (evSubst k s) := rfl
theorem exec_start (warm : Bool) (keepHbm : Bool) (s : State) : exec (.start warm keepHbm) s = .next (evStart warm keepHbm s) := rfl
theorem exec_evict (cmd : List (BitVec 8)) (s : State) : exec (.evict cmd) s = .next (evEvict cmd s) := rfl
theorem exec_identityMemoryRead (offset : Nat) (count : Nat) (s : State) : exec (.identityMemoryRead offset count) s = .next (evIdentityMemoryRead offset count s) := rfl
theorem exec_evictionMoving (s : State) : exec (.evictionMoving) s = .next (evEvictionMoving s) := rfl
theorem exec_evictionRedirected (s : State) : exec (.evictionRedirected) s = .next (evEvictionRedirected s) := rfl
theorem exec_evictionDrained (s : State) : exec (.evictionDrained) s = .next (evEvictionDrained s) := rfl
theorem exec_safeToUnlatch (s : State) : exec (.safeToUnlatch) s = .next (evSafeToUnlatch s) := rfl
theorem exec_evictionFailed (cause : Nat) (s : State) : exec (.evictionFailed cause) s = .next (evEvictionFailed cause s) := rfl
theorem exec_evictNotice (dev : Nat) (dest : Nat) (s : State) : exec (.evictNotice dev dest) s = .next (evEvictNotice dev dest s) := rfl
theorem exec_moveDoneNotice (dev : Nat) (dest : Nat) (ranges : List MoveRange) (s : State) : exec (.moveDoneNotice dev dest ranges) s = .next (evMoveDoneNotice dev dest ranges s) := rfl
theorem exec_powerOn (s : State) : exec (.powerOn) s = .next (evPowerOn s) := rfl
theorem exec_startComplete (s : State) : exec (.startComplete) s = .next (evStartComplete s) := rfl
theorem exec_powerLoss (s : State) : exec (.powerLoss) s = .next (evPowerLoss s) := rfl
theorem exec_packageOutOfService (s : State) : exec (.packageOutOfService) s = .next (evPackageOutOfService s) := rfl
theorem exec_lockstepMismatch (s : State) : exec (.lockstepMismatch) s = .next (evLockstepMismatch s) := rfl
theorem exec_workerFault (worker : Nat) (s : State) : exec (.workerFault worker) s = .next (evWorkerFault worker s) := rfl
theorem exec_thermalThrottle (s : State) : exec (.thermalThrottle) s = .next (evThermalThrottle s) := rfl
theorem exec_dieLimit (s : State) : exec (.dieLimit) s = .next (evDieLimit s) := rfl
theorem exec_illegalOp (s : State) : exec (.illegalOp) s = .next (evIllegalOp s) := rfl
theorem exec_keepaliveReceive (peer : Nat) (s : State) : exec (.keepaliveReceive peer) s = .next (evKeepaliveReceive peer s) := rfl
theorem exec_laneFrameAck (lane : Nat) (upTo : Nat) (s : State) : exec (.laneFrameAck lane upTo) s = .next (evLaneFrameAck lane upTo s) := rfl
theorem exec_erardLinkDown (s : State) : exec (.erardLinkDown) s = .next (evErardLinkDown s) := rfl
theorem exec_throttleRelease (s : State) : exec (.throttleRelease) s = .next (evThrottleRelease s) := rfl

/-- An operation that stands in a bundle runs as its table entry says, at its place. -/
theorem exec_opOf (i : Instr) (o : Op) (p : Nat) (s : State) (h : opOf i = some o) (hp : placeOf i = some p) :
    exec i s = issueOp p o s := by
  cases i <;> cases h <;> cases hp <;> rfl

end Sys2Proof.Machine
end

