-- ==== Sys2Proof/Laws/State.lean ====
section
/-! SUPPORT. What each update of the state leaves in each field. -/

namespace Sys2Proof.Machine

/-! `setThread`. -/
@[simp] theorem setThread_cc (s : State) (k : Nat) (t : Thread) : (setThread s k t).cc = s.cc := rfl
@[simp] theorem setThread_threads (s : State) (k : Nat) (t : Thread) : (setThread s k t).threads = put s.threads k t := rfl
@[simp] theorem setThread_cores (s : State) (k : Nat) (t : Thread) : (setThread s k t).cores = s.cores := rfl
@[simp] theorem setThread_mem (s : State) (k : Nat) (t : Thread) : (setThread s k t).mem = s.mem := rfl
@[simp] theorem setThread_hostMem (s : State) (k : Nat) (t : Thread) : (setThread s k t).hostMem = s.hostMem := rfl
@[simp] theorem setThread_full (s : State) (k : Nat) (t : Thread) : (setThread s k t).full = s.full := rfl
@[simp] theorem setThread_acc (s : State) (k : Nat) (t : Thread) : (setThread s k t).acc = s.acc := rfl
@[simp] theorem setThread_accAsid (s : State) (k : Nat) (t : Thread) : (setThread s k t).accAsid = s.accAsid := rfl
@[simp] theorem setThread_waiters (s : State) (k : Nat) (t : Thread) : (setThread s k t).waiters = s.waiters := rfl
@[simp] theorem setThread_woken (s : State) (k : Nat) (t : Thread) : (setThread s k t).woken = s.woken := rfl
@[simp] theorem setThread_tlb1 (s : State) (k : Nat) (t : Thread) : (setThread s k t).tlb1 = s.tlb1 := rfl
@[simp] theorem setThread_tlb2 (s : State) (k : Nat) (t : Thread) : (setThread s k t).tlb2 = s.tlb2 := rfl
@[simp] theorem setThread_walks (s : State) (k : Nat) (t : Thread) : (setThread s k t).walks = s.walks := rfl
@[simp] theorem setThread_l1 (s : State) (k : Nat) (t : Thread) : (setThread s k t).l1 = s.l1 := rfl
@[simp] theorem setThread_dir (s : State) (k : Nat) (t : Thread) : (setThread s k t).dir = s.dir := rfl
@[simp] theorem setThread_granules (s : State) (k : Nat) (t : Thread) : (setThread s k t).granules = s.granules := rfl
@[simp] theorem setThread_tables (s : State) (k : Nat) (t : Thread) : (setThread s k t).tables = s.tables := rfl
@[simp] theorem setThread_accesses (s : State) (k : Nat) (t : Thread) : (setThread s k t).accesses = s.accesses := rfl
@[simp] theorem setThread_links (s : State) (k : Nat) (t : Thread) : (setThread s k t).links = s.links := rfl
@[simp] theorem setThread_turns (s : State) (k : Nat) (t : Thread) : (setThread s k t).turns = s.turns := rfl
@[simp] theorem setThread_eccBad (s : State) (k : Nat) (t : Thread) : (setThread s k t).eccBad = s.eccBad := rfl
@[simp] theorem setThread_accBad (s : State) (k : Nat) (t : Thread) : (setThread s k t).accBad = s.accBad := rfl
@[simp] theorem setThread_eccSoft (s : State) (k : Nat) (t : Thread) : (setThread s k t).eccSoft = s.eccSoft := rfl
@[simp] theorem setThread_corrected (s : State) (k : Nat) (t : Thread) : (setThread s k t).corrected = s.corrected := rfl
@[simp] theorem setThread_migrations (s : State) (k : Nat) (t : Thread) : (setThread s k t).migrations = s.migrations := rfl
@[simp] theorem setThread_invals (s : State) (k : Nat) (t : Thread) : (setThread s k t).invals = s.invals := rfl
@[simp] theorem setThread_shootdown (s : State) (k : Nat) (t : Thread) : (setThread s k t).shootdown = s.shootdown := rfl
@[simp] theorem setThread_asidtab (s : State) (k : Nat) (t : Thread) : (setThread s k t).asidtab = s.asidtab := rfl
@[simp] theorem setThread_migpool (s : State) (k : Nat) (t : Thread) : (setThread s k t).migpool = s.migpool := rfl
@[simp] theorem setThread_frames (s : State) (k : Nat) (t : Thread) : (setThread s k t).frames = s.frames := rfl
@[simp] theorem setThread_held (s : State) (k : Nat) (t : Thread) : (setThread s k t).held = s.held := rfl
@[simp] theorem setThread_relayed (s : State) (k : Nat) (t : Thread) : (setThread s k t).relayed = s.relayed := rfl
@[simp] theorem setThread_peers (s : State) (k : Nat) (t : Thread) : (setThread s k t).peers = s.peers := rfl
@[simp] theorem setThread_lanes (s : State) (k : Nat) (t : Thread) : (setThread s k t).lanes = s.lanes := rfl
@[simp] theorem setThread_combsFailed (s : State) (k : Nat) (t : Thread) : (setThread s k t).combsFailed = s.combsFailed := rfl
@[simp] theorem setThread_rlytab (s : State) (k : Nat) (t : Thread) : (setThread s k t).rlytab = s.rlytab := rfl
@[simp] theorem setThread_secondDown (s : State) (k : Nat) (t : Thread) : (setThread s k t).secondDown = s.secondDown := rfl
@[simp] theorem setThread_notices (s : State) (k : Nat) (t : Thread) : (setThread s k t).notices = s.notices := rfl
@[simp] theorem setThread_heldNotices (s : State) (k : Nat) (t : Thread) : (setThread s k t).heldNotices = s.heldNotices := rfl
@[simp] theorem setThread_dommap (s : State) (k : Nat) (t : Thread) : (setThread s k t).dommap = s.dommap := rfl
@[simp] theorem setThread_domtag (s : State) (k : Nat) (t : Thread) : (setThread s k t).domtag = s.domtag := rfl
@[simp] theorem setThread_seq (s : State) (k : Nat) (t : Thread) : (setThread s k t).seq = s.seq := rfl
@[simp] theorem setThread_log (s : State) (k : Nat) (t : Thread) : (setThread s k t).log = s.log := rfl
@[simp] theorem setThread_ctxs (s : State) (k : Nat) (t : Thread) : (setThread s k t).ctxs = s.ctxs := rfl
@[simp] theorem setThread_autos (s : State) (k : Nat) (t : Thread) : (setThread s k t).autos = s.autos := rfl
@[simp] theorem setThread_ports (s : State) (k : Nat) (t : Thread) : (setThread s k t).ports = s.ports := rfl
@[simp] theorem setThread_claims (s : State) (k : Nat) (t : Thread) : (setThread s k t).claims = s.claims := rfl
@[simp] theorem setThread_nodes (s : State) (k : Nat) (t : Thread) : (setThread s k t).nodes = s.nodes := rfl
@[simp] theorem setThread_gens (s : State) (k : Nat) (t : Thread) : (setThread s k t).gens = s.gens := rfl
@[simp] theorem setThread_readyLists (s : State) (k : Nat) (t : Thread) : (setThread s k t).readyLists = s.readyLists := rfl
@[simp] theorem setThread_reservation (s : State) (k : Nat) (t : Thread) : (setThread s k t).reservation = s.reservation := rfl
@[simp] theorem setThread_cohorts (s : State) (k : Nat) (t : Thread) : (setThread s k t).cohorts = s.cohorts := rfl
@[simp] theorem setThread_departed (s : State) (k : Nat) (t : Thread) : (setThread s k t).departed = s.departed := rfl
@[simp] theorem setThread_cicada (s : State) (k : Nat) (t : Thread) : (setThread s k t).cicada = s.cicada := rfl
@[simp] theorem setThread_specLines (s : State) (k : Nat) (t : Thread) : (setThread s k t).specLines = s.specLines := rfl
@[simp] theorem setThread_parked (s : State) (k : Nat) (t : Thread) : (setThread s k t).parked = s.parked := rfl
@[simp] theorem setThread_contexts (s : State) (k : Nat) (t : Thread) : (setThread s k t).contexts = s.contexts := rfl
@[simp] theorem setThread_hubReqs (s : State) (k : Nat) (t : Thread) : (setThread s k t).hubReqs = s.hubReqs := rfl
@[simp] theorem setThread_cmdring (s : State) (k : Nat) (t : Thread) : (setThread s k t).cmdring = s.cmdring := rfl
@[simp] theorem setThread_ringIndex (s : State) (k : Nat) (t : Thread) : (setThread s k t).ringIndex = s.ringIndex := rfl
@[simp] theorem setThread_ringPass (s : State) (k : Nat) (t : Thread) : (setThread s k t).ringPass = s.ringPass := rfl
@[simp] theorem setThread_consumed (s : State) (k : Nat) (t : Thread) : (setThread s k t).consumed = s.consumed := rfl
@[simp] theorem setThread_cmdBuffer (s : State) (k : Nat) (t : Thread) : (setThread s k t).cmdBuffer = s.cmdBuffer := rfl
@[simp] theorem setThread_mirror (s : State) (k : Nat) (t : Thread) : (setThread s k t).mirror = s.mirror := rfl
@[simp] theorem setThread_commands (s : State) (k : Nat) (t : Thread) : (setThread s k t).commands = s.commands := rfl
@[simp] theorem setThread_msix (s : State) (k : Nat) (t : Thread) : (setThread s k t).msix = s.msix := rfl
@[simp] theorem setThread_linkUp (s : State) (k : Nat) (t : Thread) : (setThread s k t).linkUp = s.linkUp := rfl
@[simp] theorem setThread_linkLostAt (s : State) (k : Nat) (t : Thread) : (setThread s k t).linkLostAt = s.linkLostAt := rfl
@[simp] theorem setThread_tvecdef (s : State) (k : Nat) (t : Thread) : (setThread s k t).tvecdef = s.tvecdef := rfl
@[simp] theorem setThread_service (s : State) (k : Nat) (t : Thread) : (setThread s k t).service = s.service := rfl
@[simp] theorem setThread_evstate (s : State) (k : Nat) (t : Thread) : (setThread s k t).evstate = s.evstate := rfl
@[simp] theorem setThread_evictTo (s : State) (k : Nat) (t : Thread) : (setThread s k t).evictTo = s.evictTo := rfl
@[simp] theorem setThread_evictRanges (s : State) (k : Nat) (t : Thread) : (setThread s k t).evictRanges = s.evictRanges := rfl
@[simp] theorem setThread_redirects (s : State) (k : Nat) (t : Thread) : (setThread s k t).redirects = s.redirects := rfl
@[simp] theorem setThread_peerEvicts (s : State) (k : Nat) (t : Thread) : (setThread s k t).peerEvicts = s.peerEvicts := rfl
@[simp] theorem setThread_evictSent (s : State) (k : Nat) (t : Thread) : (setThread s k t).evictSent = s.evictSent := rfl
@[simp] theorem setThread_throttled (s : State) (k : Nat) (t : Thread) : (setThread s k t).throttled = s.throttled := rfl
@[simp] theorem setThread_startFault (s : State) (k : Nat) (t : Thread) : (setThread s k t).startFault = s.startFault := rfl
@[simp] theorem setThread_mismatchAt (s : State) (k : Nat) (t : Thread) : (setThread s k t).mismatchAt = s.mismatchAt := rfl
@[simp] theorem setThread_boots (s : State) (k : Nat) (t : Thread) : (setThread s k t).boots = s.boots := rfl
@[simp] theorem setThread_unlatch (s : State) (k : Nat) (t : Thread) : (setThread s k t).unlatch = s.unlatch := rfl
@[simp] theorem setThread_lastDev (s : State) (k : Nat) (t : Thread) : (setThread s k t).lastDev = s.lastDev := rfl
@[simp] theorem setThread_cfg (s : State) (k : Nat) (t : Thread) : (setThread s k t).cfg = s.cfg := rfl
@[simp] theorem setThread_hostAnswers (s : State) (k : Nat) (t : Thread) : (setThread s k t).hostAnswers = s.hostAnswers := rfl
@[simp] theorem setThread_busAnswer (s : State) (k : Nat) (t : Thread) : (setThread s k t).busAnswer = s.busAnswer := rfl
@[simp] theorem setThread_agenda (s : State) (k : Nat) (t : Thread) : (setThread s k t).agenda = s.agenda := rfl
@[simp] theorem setThread_acted (s : State) (k : Nat) (t : Thread) : (setThread s k t).acted = s.acted := rfl
@[simp] theorem setThread_turn (s : State) (k : Nat) (t : Thread) : (setThread s k t).turn = s.turn := rfl
@[simp] theorem setThread_fresh (s : State) (k : Nat) (t : Thread) : (setThread s k t).fresh = s.fresh := rfl
@[simp] theorem setThread_freeCount (s : State) (k : Nat) (t : Thread) : (setThread s k t).freeCount = s.freeCount := rfl

/-! `modCore`. -/
@[simp] theorem modCore_cc (s : State) (c : Nat) (f : Core → Core) : (modCore c f s).cc = s.cc := rfl
@[simp] theorem modCore_threads (s : State) (c : Nat) (f : Core → Core) : (modCore c f s).threads = s.threads := rfl
@[simp] theorem modCore_cores (s : State) (c : Nat) (f : Core → Core) : (modCore c f s).cores = put s.cores c (f (getCore s c)) := rfl
@[simp] theorem modCore_mem (s : State) (c : Nat) (f : Core → Core) : (modCore c f s).mem = s.mem := rfl
@[simp] theorem modCore_hostMem (s : State) (c : Nat) (f : Core → Core) : (modCore c f s).hostMem = s.hostMem := rfl
@[simp] theorem modCore_full (s : State) (c : Nat) (f : Core → Core) : (modCore c f s).full = s.full := rfl
@[simp] theorem modCore_acc (s : State) (c : Nat) (f : Core → Core) : (modCore c f s).acc = s.acc := rfl
@[simp] theorem modCore_accAsid (s : State) (c : Nat) (f : Core → Core) : (modCore c f s).accAsid = s.accAsid := rfl
@[simp] theorem modCore_waiters (s : State) (c : Nat) (f : Core → Core) : (modCore c f s).waiters = s.waiters := rfl
@[simp] theorem modCore_woken (s : State) (c : Nat) (f : Core → Core) : (modCore c f s).woken = s.woken := rfl
@[simp] theorem modCore_tlb1 (s : State) (c : Nat) (f : Core → Core) : (modCore c f s).tlb1 = s.tlb1 := rfl
@[simp] theorem modCore_tlb2 (s : State) (c : Nat) (f : Core → Core) : (modCore c f s).tlb2 = s.tlb2 := rfl
@[simp] theorem modCore_walks (s : State) (c : Nat) (f : Core → Core) : (modCore c f s).walks = s.walks := rfl
@[simp] theorem modCore_l1 (s : State) (c : Nat) (f : Core → Core) : (modCore c f s).l1 = s.l1 := rfl
@[simp] theorem modCore_dir (s : State) (c : Nat) (f : Core → Core) : (modCore c f s).dir = s.dir := rfl
@[simp] theorem modCore_granules (s : State) (c : Nat) (f : Core → Core) : (modCore c f s).granules = s.granules := rfl
@[simp] theorem modCore_tables (s : State) (c : Nat) (f : Core → Core) : (modCore c f s).tables = s.tables := rfl
@[simp] theorem modCore_accesses (s : State) (c : Nat) (f : Core → Core) : (modCore c f s).accesses = s.accesses := rfl
@[simp] theorem modCore_links (s : State) (c : Nat) (f : Core → Core) : (modCore c f s).links = s.links := rfl
@[simp] theorem modCore_turns (s : State) (c : Nat) (f : Core → Core) : (modCore c f s).turns = s.turns := rfl
@[simp] theorem modCore_eccBad (s : State) (c : Nat) (f : Core → Core) : (modCore c f s).eccBad = s.eccBad := rfl
@[simp] theorem modCore_accBad (s : State) (c : Nat) (f : Core → Core) : (modCore c f s).accBad = s.accBad := rfl
@[simp] theorem modCore_eccSoft (s : State) (c : Nat) (f : Core → Core) : (modCore c f s).eccSoft = s.eccSoft := rfl
@[simp] theorem modCore_corrected (s : State) (c : Nat) (f : Core → Core) : (modCore c f s).corrected = s.corrected := rfl
@[simp] theorem modCore_migrations (s : State) (c : Nat) (f : Core → Core) : (modCore c f s).migrations = s.migrations := rfl
@[simp] theorem modCore_invals (s : State) (c : Nat) (f : Core → Core) : (modCore c f s).invals = s.invals := rfl
@[simp] theorem modCore_shootdown (s : State) (c : Nat) (f : Core → Core) : (modCore c f s).shootdown = s.shootdown := rfl
@[simp] theorem modCore_asidtab (s : State) (c : Nat) (f : Core → Core) : (modCore c f s).asidtab = s.asidtab := rfl
@[simp] theorem modCore_migpool (s : State) (c : Nat) (f : Core → Core) : (modCore c f s).migpool = s.migpool := rfl
@[simp] theorem modCore_frames (s : State) (c : Nat) (f : Core → Core) : (modCore c f s).frames = s.frames := rfl
@[simp] theorem modCore_held (s : State) (c : Nat) (f : Core → Core) : (modCore c f s).held = s.held := rfl
@[simp] theorem modCore_relayed (s : State) (c : Nat) (f : Core → Core) : (modCore c f s).relayed = s.relayed := rfl
@[simp] theorem modCore_peers (s : State) (c : Nat) (f : Core → Core) : (modCore c f s).peers = s.peers := rfl
@[simp] theorem modCore_lanes (s : State) (c : Nat) (f : Core → Core) : (modCore c f s).lanes = s.lanes := rfl
@[simp] theorem modCore_combsFailed (s : State) (c : Nat) (f : Core → Core) : (modCore c f s).combsFailed = s.combsFailed := rfl
@[simp] theorem modCore_rlytab (s : State) (c : Nat) (f : Core → Core) : (modCore c f s).rlytab = s.rlytab := rfl
@[simp] theorem modCore_secondDown (s : State) (c : Nat) (f : Core → Core) : (modCore c f s).secondDown = s.secondDown := rfl
@[simp] theorem modCore_notices (s : State) (c : Nat) (f : Core → Core) : (modCore c f s).notices = s.notices := rfl
@[simp] theorem modCore_heldNotices (s : State) (c : Nat) (f : Core → Core) : (modCore c f s).heldNotices = s.heldNotices := rfl
@[simp] theorem modCore_dommap (s : State) (c : Nat) (f : Core → Core) : (modCore c f s).dommap = s.dommap := rfl
@[simp] theorem modCore_domtag (s : State) (c : Nat) (f : Core → Core) : (modCore c f s).domtag = s.domtag := rfl
@[simp] theorem modCore_seq (s : State) (c : Nat) (f : Core → Core) : (modCore c f s).seq = s.seq := rfl
@[simp] theorem modCore_log (s : State) (c : Nat) (f : Core → Core) : (modCore c f s).log = s.log := rfl
@[simp] theorem modCore_ctxs (s : State) (c : Nat) (f : Core → Core) : (modCore c f s).ctxs = s.ctxs := rfl
@[simp] theorem modCore_autos (s : State) (c : Nat) (f : Core → Core) : (modCore c f s).autos = s.autos := rfl
@[simp] theorem modCore_ports (s : State) (c : Nat) (f : Core → Core) : (modCore c f s).ports = s.ports := rfl
@[simp] theorem modCore_claims (s : State) (c : Nat) (f : Core → Core) : (modCore c f s).claims = s.claims := rfl
@[simp] theorem modCore_nodes (s : State) (c : Nat) (f : Core → Core) : (modCore c f s).nodes = s.nodes := rfl
@[simp] theorem modCore_gens (s : State) (c : Nat) (f : Core → Core) : (modCore c f s).gens = s.gens := rfl
@[simp] theorem modCore_readyLists (s : State) (c : Nat) (f : Core → Core) : (modCore c f s).readyLists = s.readyLists := rfl
@[simp] theorem modCore_reservation (s : State) (c : Nat) (f : Core → Core) : (modCore c f s).reservation = s.reservation := rfl
@[simp] theorem modCore_cohorts (s : State) (c : Nat) (f : Core → Core) : (modCore c f s).cohorts = s.cohorts := rfl
@[simp] theorem modCore_departed (s : State) (c : Nat) (f : Core → Core) : (modCore c f s).departed = s.departed := rfl
@[simp] theorem modCore_cicada (s : State) (c : Nat) (f : Core → Core) : (modCore c f s).cicada = s.cicada := rfl
@[simp] theorem modCore_specLines (s : State) (c : Nat) (f : Core → Core) : (modCore c f s).specLines = s.specLines := rfl
@[simp] theorem modCore_parked (s : State) (c : Nat) (f : Core → Core) : (modCore c f s).parked = s.parked := rfl
@[simp] theorem modCore_contexts (s : State) (c : Nat) (f : Core → Core) : (modCore c f s).contexts = s.contexts := rfl
@[simp] theorem modCore_hubReqs (s : State) (c : Nat) (f : Core → Core) : (modCore c f s).hubReqs = s.hubReqs := rfl
@[simp] theorem modCore_cmdring (s : State) (c : Nat) (f : Core → Core) : (modCore c f s).cmdring = s.cmdring := rfl
@[simp] theorem modCore_ringIndex (s : State) (c : Nat) (f : Core → Core) : (modCore c f s).ringIndex = s.ringIndex := rfl
@[simp] theorem modCore_ringPass (s : State) (c : Nat) (f : Core → Core) : (modCore c f s).ringPass = s.ringPass := rfl
@[simp] theorem modCore_consumed (s : State) (c : Nat) (f : Core → Core) : (modCore c f s).consumed = s.consumed := rfl
@[simp] theorem modCore_cmdBuffer (s : State) (c : Nat) (f : Core → Core) : (modCore c f s).cmdBuffer = s.cmdBuffer := rfl
@[simp] theorem modCore_mirror (s : State) (c : Nat) (f : Core → Core) : (modCore c f s).mirror = s.mirror := rfl
@[simp] theorem modCore_commands (s : State) (c : Nat) (f : Core → Core) : (modCore c f s).commands = s.commands := rfl
@[simp] theorem modCore_msix (s : State) (c : Nat) (f : Core → Core) : (modCore c f s).msix = s.msix := rfl
@[simp] theorem modCore_linkUp (s : State) (c : Nat) (f : Core → Core) : (modCore c f s).linkUp = s.linkUp := rfl
@[simp] theorem modCore_linkLostAt (s : State) (c : Nat) (f : Core → Core) : (modCore c f s).linkLostAt = s.linkLostAt := rfl
@[simp] theorem modCore_tvecdef (s : State) (c : Nat) (f : Core → Core) : (modCore c f s).tvecdef = s.tvecdef := rfl
@[simp] theorem modCore_service (s : State) (c : Nat) (f : Core → Core) : (modCore c f s).service = s.service := rfl
@[simp] theorem modCore_evstate (s : State) (c : Nat) (f : Core → Core) : (modCore c f s).evstate = s.evstate := rfl
@[simp] theorem modCore_evictTo (s : State) (c : Nat) (f : Core → Core) : (modCore c f s).evictTo = s.evictTo := rfl
@[simp] theorem modCore_evictRanges (s : State) (c : Nat) (f : Core → Core) : (modCore c f s).evictRanges = s.evictRanges := rfl
@[simp] theorem modCore_redirects (s : State) (c : Nat) (f : Core → Core) : (modCore c f s).redirects = s.redirects := rfl
@[simp] theorem modCore_peerEvicts (s : State) (c : Nat) (f : Core → Core) : (modCore c f s).peerEvicts = s.peerEvicts := rfl
@[simp] theorem modCore_evictSent (s : State) (c : Nat) (f : Core → Core) : (modCore c f s).evictSent = s.evictSent := rfl
@[simp] theorem modCore_throttled (s : State) (c : Nat) (f : Core → Core) : (modCore c f s).throttled = s.throttled := rfl
@[simp] theorem modCore_startFault (s : State) (c : Nat) (f : Core → Core) : (modCore c f s).startFault = s.startFault := rfl
@[simp] theorem modCore_mismatchAt (s : State) (c : Nat) (f : Core → Core) : (modCore c f s).mismatchAt = s.mismatchAt := rfl
@[simp] theorem modCore_boots (s : State) (c : Nat) (f : Core → Core) : (modCore c f s).boots = s.boots := rfl
@[simp] theorem modCore_unlatch (s : State) (c : Nat) (f : Core → Core) : (modCore c f s).unlatch = s.unlatch := rfl
@[simp] theorem modCore_lastDev (s : State) (c : Nat) (f : Core → Core) : (modCore c f s).lastDev = s.lastDev := rfl
@[simp] theorem modCore_cfg (s : State) (c : Nat) (f : Core → Core) : (modCore c f s).cfg = s.cfg := rfl
@[simp] theorem modCore_hostAnswers (s : State) (c : Nat) (f : Core → Core) : (modCore c f s).hostAnswers = s.hostAnswers := rfl
@[simp] theorem modCore_busAnswer (s : State) (c : Nat) (f : Core → Core) : (modCore c f s).busAnswer = s.busAnswer := rfl
@[simp] theorem modCore_agenda (s : State) (c : Nat) (f : Core → Core) : (modCore c f s).agenda = s.agenda := rfl
@[simp] theorem modCore_acted (s : State) (c : Nat) (f : Core → Core) : (modCore c f s).acted = s.acted := rfl
@[simp] theorem modCore_turn (s : State) (c : Nat) (f : Core → Core) : (modCore c f s).turn = s.turn := rfl
@[simp] theorem modCore_fresh (s : State) (c : Nat) (f : Core → Core) : (modCore c f s).fresh = s.fresh := rfl
@[simp] theorem modCore_freeCount (s : State) (c : Nat) (f : Core → Core) : (modCore c f s).freeCount = s.freeCount := rfl

/-! `writePa`. -/
@[simp] theorem writePa_cc (s : State) (pa : Nat) (b : List Byte) : (writePa pa b s).cc = s.cc := rfl
@[simp] theorem writePa_threads (s : State) (pa : Nat) (b : List Byte) : (writePa pa b s).threads = s.threads := rfl
@[simp] theorem writePa_cores (s : State) (pa : Nat) (b : List Byte) : (writePa pa b s).cores = s.cores := rfl
@[simp] theorem writePa_mem (s : State) (pa : Nat) (b : List Byte) : (writePa pa b s).mem = s.mem.store pa b := rfl
@[simp] theorem writePa_hostMem (s : State) (pa : Nat) (b : List Byte) : (writePa pa b s).hostMem = s.hostMem := rfl
@[simp] theorem writePa_full (s : State) (pa : Nat) (b : List Byte) : (writePa pa b s).full = s.full := rfl
@[simp] theorem writePa_acc (s : State) (pa : Nat) (b : List Byte) : (writePa pa b s).acc = s.acc := rfl
@[simp] theorem writePa_accAsid (s : State) (pa : Nat) (b : List Byte) : (writePa pa b s).accAsid = s.accAsid := rfl
@[simp] theorem writePa_waiters (s : State) (pa : Nat) (b : List Byte) : (writePa pa b s).waiters = s.waiters := rfl
@[simp] theorem writePa_woken (s : State) (pa : Nat) (b : List Byte) : (writePa pa b s).woken = s.woken := rfl
@[simp] theorem writePa_tlb1 (s : State) (pa : Nat) (b : List Byte) : (writePa pa b s).tlb1 = s.tlb1 := rfl
@[simp] theorem writePa_tlb2 (s : State) (pa : Nat) (b : List Byte) : (writePa pa b s).tlb2 = s.tlb2 := rfl
@[simp] theorem writePa_walks (s : State) (pa : Nat) (b : List Byte) : (writePa pa b s).walks = s.walks := rfl
@[simp] theorem writePa_l1 (s : State) (pa : Nat) (b : List Byte) : (writePa pa b s).l1 = s.l1 := rfl
@[simp] theorem writePa_dir (s : State) (pa : Nat) (b : List Byte) : (writePa pa b s).dir = s.dir := rfl
@[simp] theorem writePa_granules (s : State) (pa : Nat) (b : List Byte) : (writePa pa b s).granules = s.granules := rfl
@[simp] theorem writePa_tables (s : State) (pa : Nat) (b : List Byte) : (writePa pa b s).tables = s.tables := rfl
@[simp] theorem writePa_accesses (s : State) (pa : Nat) (b : List Byte) : (writePa pa b s).accesses = s.accesses := rfl
@[simp] theorem writePa_links (s : State) (pa : Nat) (b : List Byte) : (writePa pa b s).links = s.links := rfl
@[simp] theorem writePa_turns (s : State) (pa : Nat) (b : List Byte) : (writePa pa b s).turns = s.turns := rfl
@[simp] theorem writePa_eccBad (s : State) (pa : Nat) (b : List Byte) : (writePa pa b s).eccBad = s.eccBad := rfl
@[simp] theorem writePa_accBad (s : State) (pa : Nat) (b : List Byte) : (writePa pa b s).accBad = s.accBad := rfl
@[simp] theorem writePa_eccSoft (s : State) (pa : Nat) (b : List Byte) : (writePa pa b s).eccSoft = s.eccSoft := rfl
@[simp] theorem writePa_corrected (s : State) (pa : Nat) (b : List Byte) : (writePa pa b s).corrected = s.corrected := rfl
@[simp] theorem writePa_migrations (s : State) (pa : Nat) (b : List Byte) : (writePa pa b s).migrations = s.migrations := rfl
@[simp] theorem writePa_invals (s : State) (pa : Nat) (b : List Byte) : (writePa pa b s).invals = s.invals := rfl
@[simp] theorem writePa_shootdown (s : State) (pa : Nat) (b : List Byte) : (writePa pa b s).shootdown = s.shootdown := rfl
@[simp] theorem writePa_asidtab (s : State) (pa : Nat) (b : List Byte) : (writePa pa b s).asidtab = s.asidtab := rfl
@[simp] theorem writePa_migpool (s : State) (pa : Nat) (b : List Byte) : (writePa pa b s).migpool = s.migpool := rfl
@[simp] theorem writePa_frames (s : State) (pa : Nat) (b : List Byte) : (writePa pa b s).frames = s.frames := rfl
@[simp] theorem writePa_held (s : State) (pa : Nat) (b : List Byte) : (writePa pa b s).held = s.held := rfl
@[simp] theorem writePa_relayed (s : State) (pa : Nat) (b : List Byte) : (writePa pa b s).relayed = s.relayed := rfl
@[simp] theorem writePa_peers (s : State) (pa : Nat) (b : List Byte) : (writePa pa b s).peers = s.peers := rfl
@[simp] theorem writePa_lanes (s : State) (pa : Nat) (b : List Byte) : (writePa pa b s).lanes = s.lanes := rfl
@[simp] theorem writePa_combsFailed (s : State) (pa : Nat) (b : List Byte) : (writePa pa b s).combsFailed = s.combsFailed := rfl
@[simp] theorem writePa_rlytab (s : State) (pa : Nat) (b : List Byte) : (writePa pa b s).rlytab = s.rlytab := rfl
@[simp] theorem writePa_secondDown (s : State) (pa : Nat) (b : List Byte) : (writePa pa b s).secondDown = s.secondDown := rfl
@[simp] theorem writePa_notices (s : State) (pa : Nat) (b : List Byte) : (writePa pa b s).notices = s.notices := rfl
@[simp] theorem writePa_heldNotices (s : State) (pa : Nat) (b : List Byte) : (writePa pa b s).heldNotices = s.heldNotices := rfl
@[simp] theorem writePa_dommap (s : State) (pa : Nat) (b : List Byte) : (writePa pa b s).dommap = s.dommap := rfl
@[simp] theorem writePa_domtag (s : State) (pa : Nat) (b : List Byte) : (writePa pa b s).domtag = s.domtag := rfl
@[simp] theorem writePa_seq (s : State) (pa : Nat) (b : List Byte) : (writePa pa b s).seq = s.seq := rfl
@[simp] theorem writePa_log (s : State) (pa : Nat) (b : List Byte) : (writePa pa b s).log = s.log := rfl
@[simp] theorem writePa_ctxs (s : State) (pa : Nat) (b : List Byte) : (writePa pa b s).ctxs = s.ctxs := rfl
@[simp] theorem writePa_autos (s : State) (pa : Nat) (b : List Byte) : (writePa pa b s).autos = s.autos := rfl
@[simp] theorem writePa_ports (s : State) (pa : Nat) (b : List Byte) : (writePa pa b s).ports = s.ports := rfl
@[simp] theorem writePa_claims (s : State) (pa : Nat) (b : List Byte) : (writePa pa b s).claims = s.claims := rfl
@[simp] theorem writePa_nodes (s : State) (pa : Nat) (b : List Byte) : (writePa pa b s).nodes = s.nodes := rfl
@[simp] theorem writePa_gens (s : State) (pa : Nat) (b : List Byte) : (writePa pa b s).gens = s.gens := rfl
@[simp] theorem writePa_readyLists (s : State) (pa : Nat) (b : List Byte) : (writePa pa b s).readyLists = s.readyLists := rfl
@[simp] theorem writePa_reservation (s : State) (pa : Nat) (b : List Byte) : (writePa pa b s).reservation = s.reservation := rfl
@[simp] theorem writePa_cohorts (s : State) (pa : Nat) (b : List Byte) : (writePa pa b s).cohorts = s.cohorts := rfl
@[simp] theorem writePa_departed (s : State) (pa : Nat) (b : List Byte) : (writePa pa b s).departed = s.departed := rfl
@[simp] theorem writePa_cicada (s : State) (pa : Nat) (b : List Byte) : (writePa pa b s).cicada = s.cicada := rfl
@[simp] theorem writePa_specLines (s : State) (pa : Nat) (b : List Byte) : (writePa pa b s).specLines = s.specLines := rfl
@[simp] theorem writePa_parked (s : State) (pa : Nat) (b : List Byte) : (writePa pa b s).parked = s.parked := rfl
@[simp] theorem writePa_contexts (s : State) (pa : Nat) (b : List Byte) : (writePa pa b s).contexts = s.contexts := rfl
@[simp] theorem writePa_hubReqs (s : State) (pa : Nat) (b : List Byte) : (writePa pa b s).hubReqs = s.hubReqs := rfl
@[simp] theorem writePa_cmdring (s : State) (pa : Nat) (b : List Byte) : (writePa pa b s).cmdring = s.cmdring := rfl
@[simp] theorem writePa_ringIndex (s : State) (pa : Nat) (b : List Byte) : (writePa pa b s).ringIndex = s.ringIndex := rfl
@[simp] theorem writePa_ringPass (s : State) (pa : Nat) (b : List Byte) : (writePa pa b s).ringPass = s.ringPass := rfl
@[simp] theorem writePa_consumed (s : State) (pa : Nat) (b : List Byte) : (writePa pa b s).consumed = s.consumed := rfl
@[simp] theorem writePa_cmdBuffer (s : State) (pa : Nat) (b : List Byte) : (writePa pa b s).cmdBuffer = s.cmdBuffer := rfl
@[simp] theorem writePa_mirror (s : State) (pa : Nat) (b : List Byte) : (writePa pa b s).mirror = s.mirror := rfl
@[simp] theorem writePa_commands (s : State) (pa : Nat) (b : List Byte) : (writePa pa b s).commands = s.commands := rfl
@[simp] theorem writePa_msix (s : State) (pa : Nat) (b : List Byte) : (writePa pa b s).msix = s.msix := rfl
@[simp] theorem writePa_linkUp (s : State) (pa : Nat) (b : List Byte) : (writePa pa b s).linkUp = s.linkUp := rfl
@[simp] theorem writePa_linkLostAt (s : State) (pa : Nat) (b : List Byte) : (writePa pa b s).linkLostAt = s.linkLostAt := rfl
@[simp] theorem writePa_tvecdef (s : State) (pa : Nat) (b : List Byte) : (writePa pa b s).tvecdef = s.tvecdef := rfl
@[simp] theorem writePa_service (s : State) (pa : Nat) (b : List Byte) : (writePa pa b s).service = s.service := rfl
@[simp] theorem writePa_evstate (s : State) (pa : Nat) (b : List Byte) : (writePa pa b s).evstate = s.evstate := rfl
@[simp] theorem writePa_evictTo (s : State) (pa : Nat) (b : List Byte) : (writePa pa b s).evictTo = s.evictTo := rfl
@[simp] theorem writePa_evictRanges (s : State) (pa : Nat) (b : List Byte) : (writePa pa b s).evictRanges = s.evictRanges := rfl
@[simp] theorem writePa_redirects (s : State) (pa : Nat) (b : List Byte) : (writePa pa b s).redirects = s.redirects := rfl
@[simp] theorem writePa_peerEvicts (s : State) (pa : Nat) (b : List Byte) : (writePa pa b s).peerEvicts = s.peerEvicts := rfl
@[simp] theorem writePa_evictSent (s : State) (pa : Nat) (b : List Byte) : (writePa pa b s).evictSent = s.evictSent := rfl
@[simp] theorem writePa_throttled (s : State) (pa : Nat) (b : List Byte) : (writePa pa b s).throttled = s.throttled := rfl
@[simp] theorem writePa_startFault (s : State) (pa : Nat) (b : List Byte) : (writePa pa b s).startFault = s.startFault := rfl
@[simp] theorem writePa_mismatchAt (s : State) (pa : Nat) (b : List Byte) : (writePa pa b s).mismatchAt = s.mismatchAt := rfl
@[simp] theorem writePa_boots (s : State) (pa : Nat) (b : List Byte) : (writePa pa b s).boots = s.boots := rfl
@[simp] theorem writePa_unlatch (s : State) (pa : Nat) (b : List Byte) : (writePa pa b s).unlatch = s.unlatch := rfl
@[simp] theorem writePa_lastDev (s : State) (pa : Nat) (b : List Byte) : (writePa pa b s).lastDev = s.lastDev := rfl
@[simp] theorem writePa_cfg (s : State) (pa : Nat) (b : List Byte) : (writePa pa b s).cfg = s.cfg := rfl
@[simp] theorem writePa_hostAnswers (s : State) (pa : Nat) (b : List Byte) : (writePa pa b s).hostAnswers = s.hostAnswers := rfl
@[simp] theorem writePa_busAnswer (s : State) (pa : Nat) (b : List Byte) : (writePa pa b s).busAnswer = s.busAnswer := rfl
@[simp] theorem writePa_agenda (s : State) (pa : Nat) (b : List Byte) : (writePa pa b s).agenda = s.agenda := rfl
@[simp] theorem writePa_acted (s : State) (pa : Nat) (b : List Byte) : (writePa pa b s).acted = s.acted := rfl
@[simp] theorem writePa_turn (s : State) (pa : Nat) (b : List Byte) : (writePa pa b s).turn = s.turn := rfl
@[simp] theorem writePa_fresh (s : State) (pa : Nat) (b : List Byte) : (writePa pa b s).fresh = s.fresh := rfl
@[simp] theorem writePa_freeCount (s : State) (pa : Nat) (b : List Byte) : (writePa pa b s).freeCount = s.freeCount := rfl

/-! `writeHost`. -/
@[simp] theorem writeHost_cc (s : State) (pa : Nat) (b : List Byte) : (writeHost pa b s).cc = s.cc := rfl
@[simp] theorem writeHost_threads (s : State) (pa : Nat) (b : List Byte) : (writeHost pa b s).threads = s.threads := rfl
@[simp] theorem writeHost_cores (s : State) (pa : Nat) (b : List Byte) : (writeHost pa b s).cores = s.cores := rfl
@[simp] theorem writeHost_mem (s : State) (pa : Nat) (b : List Byte) : (writeHost pa b s).mem = s.mem := rfl
@[simp] theorem writeHost_hostMem (s : State) (pa : Nat) (b : List Byte) : (writeHost pa b s).hostMem = s.hostMem.store pa b := rfl
@[simp] theorem writeHost_full (s : State) (pa : Nat) (b : List Byte) : (writeHost pa b s).full = s.full := rfl
@[simp] theorem writeHost_acc (s : State) (pa : Nat) (b : List Byte) : (writeHost pa b s).acc = s.acc := rfl
@[simp] theorem writeHost_accAsid (s : State) (pa : Nat) (b : List Byte) : (writeHost pa b s).accAsid = s.accAsid := rfl
@[simp] theorem writeHost_waiters (s : State) (pa : Nat) (b : List Byte) : (writeHost pa b s).waiters = s.waiters := rfl
@[simp] theorem writeHost_woken (s : State) (pa : Nat) (b : List Byte) : (writeHost pa b s).woken = s.woken := rfl
@[simp] theorem writeHost_tlb1 (s : State) (pa : Nat) (b : List Byte) : (writeHost pa b s).tlb1 = s.tlb1 := rfl
@[simp] theorem writeHost_tlb2 (s : State) (pa : Nat) (b : List Byte) : (writeHost pa b s).tlb2 = s.tlb2 := rfl
@[simp] theorem writeHost_walks (s : State) (pa : Nat) (b : List Byte) : (writeHost pa b s).walks = s.walks := rfl
@[simp] theorem writeHost_l1 (s : State) (pa : Nat) (b : List Byte) : (writeHost pa b s).l1 = s.l1 := rfl
@[simp] theorem writeHost_dir (s : State) (pa : Nat) (b : List Byte) : (writeHost pa b s).dir = s.dir := rfl
@[simp] theorem writeHost_granules (s : State) (pa : Nat) (b : List Byte) : (writeHost pa b s).granules = s.granules := rfl
@[simp] theorem writeHost_tables (s : State) (pa : Nat) (b : List Byte) : (writeHost pa b s).tables = s.tables := rfl
@[simp] theorem writeHost_accesses (s : State) (pa : Nat) (b : List Byte) : (writeHost pa b s).accesses = s.accesses := rfl
@[simp] theorem writeHost_links (s : State) (pa : Nat) (b : List Byte) : (writeHost pa b s).links = s.links := rfl
@[simp] theorem writeHost_turns (s : State) (pa : Nat) (b : List Byte) : (writeHost pa b s).turns = s.turns := rfl
@[simp] theorem writeHost_eccBad (s : State) (pa : Nat) (b : List Byte) : (writeHost pa b s).eccBad = s.eccBad := rfl
@[simp] theorem writeHost_accBad (s : State) (pa : Nat) (b : List Byte) : (writeHost pa b s).accBad = s.accBad := rfl
@[simp] theorem writeHost_eccSoft (s : State) (pa : Nat) (b : List Byte) : (writeHost pa b s).eccSoft = s.eccSoft := rfl
@[simp] theorem writeHost_corrected (s : State) (pa : Nat) (b : List Byte) : (writeHost pa b s).corrected = s.corrected := rfl
@[simp] theorem writeHost_migrations (s : State) (pa : Nat) (b : List Byte) : (writeHost pa b s).migrations = s.migrations := rfl
@[simp] theorem writeHost_invals (s : State) (pa : Nat) (b : List Byte) : (writeHost pa b s).invals = s.invals := rfl
@[simp] theorem writeHost_shootdown (s : State) (pa : Nat) (b : List Byte) : (writeHost pa b s).shootdown = s.shootdown := rfl
@[simp] theorem writeHost_asidtab (s : State) (pa : Nat) (b : List Byte) : (writeHost pa b s).asidtab = s.asidtab := rfl
@[simp] theorem writeHost_migpool (s : State) (pa : Nat) (b : List Byte) : (writeHost pa b s).migpool = s.migpool := rfl
@[simp] theorem writeHost_frames (s : State) (pa : Nat) (b : List Byte) : (writeHost pa b s).frames = s.frames := rfl
@[simp] theorem writeHost_held (s : State) (pa : Nat) (b : List Byte) : (writeHost pa b s).held = s.held := rfl
@[simp] theorem writeHost_relayed (s : State) (pa : Nat) (b : List Byte) : (writeHost pa b s).relayed = s.relayed := rfl
@[simp] theorem writeHost_peers (s : State) (pa : Nat) (b : List Byte) : (writeHost pa b s).peers = s.peers := rfl
@[simp] theorem writeHost_lanes (s : State) (pa : Nat) (b : List Byte) : (writeHost pa b s).lanes = s.lanes := rfl
@[simp] theorem writeHost_combsFailed (s : State) (pa : Nat) (b : List Byte) : (writeHost pa b s).combsFailed = s.combsFailed := rfl
@[simp] theorem writeHost_rlytab (s : State) (pa : Nat) (b : List Byte) : (writeHost pa b s).rlytab = s.rlytab := rfl
@[simp] theorem writeHost_secondDown (s : State) (pa : Nat) (b : List Byte) : (writeHost pa b s).secondDown = s.secondDown := rfl
@[simp] theorem writeHost_notices (s : State) (pa : Nat) (b : List Byte) : (writeHost pa b s).notices = s.notices := rfl
@[simp] theorem writeHost_heldNotices (s : State) (pa : Nat) (b : List Byte) : (writeHost pa b s).heldNotices = s.heldNotices := rfl
@[simp] theorem writeHost_dommap (s : State) (pa : Nat) (b : List Byte) : (writeHost pa b s).dommap = s.dommap := rfl
@[simp] theorem writeHost_domtag (s : State) (pa : Nat) (b : List Byte) : (writeHost pa b s).domtag = s.domtag := rfl
@[simp] theorem writeHost_seq (s : State) (pa : Nat) (b : List Byte) : (writeHost pa b s).seq = s.seq := rfl
@[simp] theorem writeHost_log (s : State) (pa : Nat) (b : List Byte) : (writeHost pa b s).log = s.log := rfl
@[simp] theorem writeHost_ctxs (s : State) (pa : Nat) (b : List Byte) : (writeHost pa b s).ctxs = s.ctxs := rfl
@[simp] theorem writeHost_autos (s : State) (pa : Nat) (b : List Byte) : (writeHost pa b s).autos = s.autos := rfl
@[simp] theorem writeHost_ports (s : State) (pa : Nat) (b : List Byte) : (writeHost pa b s).ports = s.ports := rfl
@[simp] theorem writeHost_claims (s : State) (pa : Nat) (b : List Byte) : (writeHost pa b s).claims = s.claims := rfl
@[simp] theorem writeHost_nodes (s : State) (pa : Nat) (b : List Byte) : (writeHost pa b s).nodes = s.nodes := rfl
@[simp] theorem writeHost_gens (s : State) (pa : Nat) (b : List Byte) : (writeHost pa b s).gens = s.gens := rfl
@[simp] theorem writeHost_readyLists (s : State) (pa : Nat) (b : List Byte) : (writeHost pa b s).readyLists = s.readyLists := rfl
@[simp] theorem writeHost_reservation (s : State) (pa : Nat) (b : List Byte) : (writeHost pa b s).reservation = s.reservation := rfl
@[simp] theorem writeHost_cohorts (s : State) (pa : Nat) (b : List Byte) : (writeHost pa b s).cohorts = s.cohorts := rfl
@[simp] theorem writeHost_departed (s : State) (pa : Nat) (b : List Byte) : (writeHost pa b s).departed = s.departed := rfl
@[simp] theorem writeHost_cicada (s : State) (pa : Nat) (b : List Byte) : (writeHost pa b s).cicada = s.cicada := rfl
@[simp] theorem writeHost_specLines (s : State) (pa : Nat) (b : List Byte) : (writeHost pa b s).specLines = s.specLines := rfl
@[simp] theorem writeHost_parked (s : State) (pa : Nat) (b : List Byte) : (writeHost pa b s).parked = s.parked := rfl
@[simp] theorem writeHost_contexts (s : State) (pa : Nat) (b : List Byte) : (writeHost pa b s).contexts = s.contexts := rfl
@[simp] theorem writeHost_hubReqs (s : State) (pa : Nat) (b : List Byte) : (writeHost pa b s).hubReqs = s.hubReqs := rfl
@[simp] theorem writeHost_cmdring (s : State) (pa : Nat) (b : List Byte) : (writeHost pa b s).cmdring = s.cmdring := rfl
@[simp] theorem writeHost_ringIndex (s : State) (pa : Nat) (b : List Byte) : (writeHost pa b s).ringIndex = s.ringIndex := rfl
@[simp] theorem writeHost_ringPass (s : State) (pa : Nat) (b : List Byte) : (writeHost pa b s).ringPass = s.ringPass := rfl
@[simp] theorem writeHost_consumed (s : State) (pa : Nat) (b : List Byte) : (writeHost pa b s).consumed = s.consumed := rfl
@[simp] theorem writeHost_cmdBuffer (s : State) (pa : Nat) (b : List Byte) : (writeHost pa b s).cmdBuffer = s.cmdBuffer := rfl
@[simp] theorem writeHost_mirror (s : State) (pa : Nat) (b : List Byte) : (writeHost pa b s).mirror = s.mirror := rfl
@[simp] theorem writeHost_commands (s : State) (pa : Nat) (b : List Byte) : (writeHost pa b s).commands = s.commands := rfl
@[simp] theorem writeHost_msix (s : State) (pa : Nat) (b : List Byte) : (writeHost pa b s).msix = s.msix := rfl
@[simp] theorem writeHost_linkUp (s : State) (pa : Nat) (b : List Byte) : (writeHost pa b s).linkUp = s.linkUp := rfl
@[simp] theorem writeHost_linkLostAt (s : State) (pa : Nat) (b : List Byte) : (writeHost pa b s).linkLostAt = s.linkLostAt := rfl
@[simp] theorem writeHost_tvecdef (s : State) (pa : Nat) (b : List Byte) : (writeHost pa b s).tvecdef = s.tvecdef := rfl
@[simp] theorem writeHost_service (s : State) (pa : Nat) (b : List Byte) : (writeHost pa b s).service = s.service := rfl
@[simp] theorem writeHost_evstate (s : State) (pa : Nat) (b : List Byte) : (writeHost pa b s).evstate = s.evstate := rfl
@[simp] theorem writeHost_evictTo (s : State) (pa : Nat) (b : List Byte) : (writeHost pa b s).evictTo = s.evictTo := rfl
@[simp] theorem writeHost_evictRanges (s : State) (pa : Nat) (b : List Byte) : (writeHost pa b s).evictRanges = s.evictRanges := rfl
@[simp] theorem writeHost_redirects (s : State) (pa : Nat) (b : List Byte) : (writeHost pa b s).redirects = s.redirects := rfl
@[simp] theorem writeHost_peerEvicts (s : State) (pa : Nat) (b : List Byte) : (writeHost pa b s).peerEvicts = s.peerEvicts := rfl
@[simp] theorem writeHost_evictSent (s : State) (pa : Nat) (b : List Byte) : (writeHost pa b s).evictSent = s.evictSent := rfl
@[simp] theorem writeHost_throttled (s : State) (pa : Nat) (b : List Byte) : (writeHost pa b s).throttled = s.throttled := rfl
@[simp] theorem writeHost_startFault (s : State) (pa : Nat) (b : List Byte) : (writeHost pa b s).startFault = s.startFault := rfl
@[simp] theorem writeHost_mismatchAt (s : State) (pa : Nat) (b : List Byte) : (writeHost pa b s).mismatchAt = s.mismatchAt := rfl
@[simp] theorem writeHost_boots (s : State) (pa : Nat) (b : List Byte) : (writeHost pa b s).boots = s.boots := rfl
@[simp] theorem writeHost_unlatch (s : State) (pa : Nat) (b : List Byte) : (writeHost pa b s).unlatch = s.unlatch := rfl
@[simp] theorem writeHost_lastDev (s : State) (pa : Nat) (b : List Byte) : (writeHost pa b s).lastDev = s.lastDev := rfl
@[simp] theorem writeHost_cfg (s : State) (pa : Nat) (b : List Byte) : (writeHost pa b s).cfg = s.cfg := rfl
@[simp] theorem writeHost_hostAnswers (s : State) (pa : Nat) (b : List Byte) : (writeHost pa b s).hostAnswers = s.hostAnswers := rfl
@[simp] theorem writeHost_busAnswer (s : State) (pa : Nat) (b : List Byte) : (writeHost pa b s).busAnswer = s.busAnswer := rfl
@[simp] theorem writeHost_agenda (s : State) (pa : Nat) (b : List Byte) : (writeHost pa b s).agenda = s.agenda := rfl
@[simp] theorem writeHost_acted (s : State) (pa : Nat) (b : List Byte) : (writeHost pa b s).acted = s.acted := rfl
@[simp] theorem writeHost_turn (s : State) (pa : Nat) (b : List Byte) : (writeHost pa b s).turn = s.turn := rfl
@[simp] theorem writeHost_fresh (s : State) (pa : Nat) (b : List Byte) : (writeHost pa b s).fresh = s.fresh := rfl
@[simp] theorem writeHost_freeCount (s : State) (pa : Nat) (b : List Byte) : (writeHost pa b s).freeCount = s.freeCount := rfl

/-! `setFull`. -/
@[simp] theorem setFull_cc (s : State) (pa : Nat) (b : Bool) : (setFull pa b s).cc = s.cc := rfl
@[simp] theorem setFull_threads (s : State) (pa : Nat) (b : Bool) : (setFull pa b s).threads = s.threads := rfl
@[simp] theorem setFull_cores (s : State) (pa : Nat) (b : Bool) : (setFull pa b s).cores = s.cores := rfl
@[simp] theorem setFull_mem (s : State) (pa : Nat) (b : Bool) : (setFull pa b s).mem = s.mem := rfl
@[simp] theorem setFull_hostMem (s : State) (pa : Nat) (b : Bool) : (setFull pa b s).hostMem = s.hostMem := rfl
@[simp] theorem setFull_acc (s : State) (pa : Nat) (b : Bool) : (setFull pa b s).acc = s.acc := rfl
@[simp] theorem setFull_accAsid (s : State) (pa : Nat) (b : Bool) : (setFull pa b s).accAsid = s.accAsid := rfl
@[simp] theorem setFull_waiters (s : State) (pa : Nat) (b : Bool) : (setFull pa b s).waiters = s.waiters := rfl
@[simp] theorem setFull_tlb1 (s : State) (pa : Nat) (b : Bool) : (setFull pa b s).tlb1 = s.tlb1 := rfl
@[simp] theorem setFull_tlb2 (s : State) (pa : Nat) (b : Bool) : (setFull pa b s).tlb2 = s.tlb2 := rfl
@[simp] theorem setFull_walks (s : State) (pa : Nat) (b : Bool) : (setFull pa b s).walks = s.walks := rfl
@[simp] theorem setFull_l1 (s : State) (pa : Nat) (b : Bool) : (setFull pa b s).l1 = s.l1 := rfl
@[simp] theorem setFull_dir (s : State) (pa : Nat) (b : Bool) : (setFull pa b s).dir = s.dir := rfl
@[simp] theorem setFull_granules (s : State) (pa : Nat) (b : Bool) : (setFull pa b s).granules = s.granules := rfl
@[simp] theorem setFull_tables (s : State) (pa : Nat) (b : Bool) : (setFull pa b s).tables = s.tables := rfl
@[simp] theorem setFull_accesses (s : State) (pa : Nat) (b : Bool) : (setFull pa b s).accesses = s.accesses := rfl
@[simp] theorem setFull_links (s : State) (pa : Nat) (b : Bool) : (setFull pa b s).links = s.links := rfl
@[simp] theorem setFull_turns (s : State) (pa : Nat) (b : Bool) : (setFull pa b s).turns = s.turns := rfl
@[simp] theorem setFull_eccBad (s : State) (pa : Nat) (b : Bool) : (setFull pa b s).eccBad = s.eccBad := rfl
@[simp] theorem setFull_accBad (s : State) (pa : Nat) (b : Bool) : (setFull pa b s).accBad = s.accBad := rfl
@[simp] theorem setFull_eccSoft (s : State) (pa : Nat) (b : Bool) : (setFull pa b s).eccSoft = s.eccSoft := rfl
@[simp] theorem setFull_corrected (s : State) (pa : Nat) (b : Bool) : (setFull pa b s).corrected = s.corrected := rfl
@[simp] theorem setFull_migrations (s : State) (pa : Nat) (b : Bool) : (setFull pa b s).migrations = s.migrations := rfl
@[simp] theorem setFull_invals (s : State) (pa : Nat) (b : Bool) : (setFull pa b s).invals = s.invals := rfl
@[simp] theorem setFull_shootdown (s : State) (pa : Nat) (b : Bool) : (setFull pa b s).shootdown = s.shootdown := rfl
@[simp] theorem setFull_asidtab (s : State) (pa : Nat) (b : Bool) : (setFull pa b s).asidtab = s.asidtab := rfl
@[simp] theorem setFull_migpool (s : State) (pa : Nat) (b : Bool) : (setFull pa b s).migpool = s.migpool := rfl
@[simp] theorem setFull_frames (s : State) (pa : Nat) (b : Bool) : (setFull pa b s).frames = s.frames := rfl
@[simp] theorem setFull_held (s : State) (pa : Nat) (b : Bool) : (setFull pa b s).held = s.held := rfl
@[simp] theorem setFull_relayed (s : State) (pa : Nat) (b : Bool) : (setFull pa b s).relayed = s.relayed := rfl
@[simp] theorem setFull_peers (s : State) (pa : Nat) (b : Bool) : (setFull pa b s).peers = s.peers := rfl
@[simp] theorem setFull_lanes (s : State) (pa : Nat) (b : Bool) : (setFull pa b s).lanes = s.lanes := rfl
@[simp] theorem setFull_combsFailed (s : State) (pa : Nat) (b : Bool) : (setFull pa b s).combsFailed = s.combsFailed := rfl
@[simp] theorem setFull_rlytab (s : State) (pa : Nat) (b : Bool) : (setFull pa b s).rlytab = s.rlytab := rfl
@[simp] theorem setFull_secondDown (s : State) (pa : Nat) (b : Bool) : (setFull pa b s).secondDown = s.secondDown := rfl
@[simp] theorem setFull_notices (s : State) (pa : Nat) (b : Bool) : (setFull pa b s).notices = s.notices := rfl
@[simp] theorem setFull_heldNotices (s : State) (pa : Nat) (b : Bool) : (setFull pa b s).heldNotices = s.heldNotices := rfl
@[simp] theorem setFull_dommap (s : State) (pa : Nat) (b : Bool) : (setFull pa b s).dommap = s.dommap := rfl
@[simp] theorem setFull_domtag (s : State) (pa : Nat) (b : Bool) : (setFull pa b s).domtag = s.domtag := rfl
@[simp] theorem setFull_seq (s : State) (pa : Nat) (b : Bool) : (setFull pa b s).seq = s.seq := rfl
@[simp] theorem setFull_log (s : State) (pa : Nat) (b : Bool) : (setFull pa b s).log = s.log := rfl
@[simp] theorem setFull_ctxs (s : State) (pa : Nat) (b : Bool) : (setFull pa b s).ctxs = s.ctxs := rfl
@[simp] theorem setFull_autos (s : State) (pa : Nat) (b : Bool) : (setFull pa b s).autos = s.autos := rfl
@[simp] theorem setFull_ports (s : State) (pa : Nat) (b : Bool) : (setFull pa b s).ports = s.ports := rfl
@[simp] theorem setFull_claims (s : State) (pa : Nat) (b : Bool) : (setFull pa b s).claims = s.claims := rfl
@[simp] theorem setFull_nodes (s : State) (pa : Nat) (b : Bool) : (setFull pa b s).nodes = s.nodes := rfl
@[simp] theorem setFull_gens (s : State) (pa : Nat) (b : Bool) : (setFull pa b s).gens = s.gens := rfl
@[simp] theorem setFull_readyLists (s : State) (pa : Nat) (b : Bool) : (setFull pa b s).readyLists = s.readyLists := rfl
@[simp] theorem setFull_reservation (s : State) (pa : Nat) (b : Bool) : (setFull pa b s).reservation = s.reservation := rfl
@[simp] theorem setFull_cohorts (s : State) (pa : Nat) (b : Bool) : (setFull pa b s).cohorts = s.cohorts := rfl
@[simp] theorem setFull_departed (s : State) (pa : Nat) (b : Bool) : (setFull pa b s).departed = s.departed := rfl
@[simp] theorem setFull_cicada (s : State) (pa : Nat) (b : Bool) : (setFull pa b s).cicada = s.cicada := rfl
@[simp] theorem setFull_specLines (s : State) (pa : Nat) (b : Bool) : (setFull pa b s).specLines = s.specLines := rfl
@[simp] theorem setFull_parked (s : State) (pa : Nat) (b : Bool) : (setFull pa b s).parked = s.parked := rfl
@[simp] theorem setFull_contexts (s : State) (pa : Nat) (b : Bool) : (setFull pa b s).contexts = s.contexts := rfl
@[simp] theorem setFull_hubReqs (s : State) (pa : Nat) (b : Bool) : (setFull pa b s).hubReqs = s.hubReqs := rfl
@[simp] theorem setFull_cmdring (s : State) (pa : Nat) (b : Bool) : (setFull pa b s).cmdring = s.cmdring := rfl
@[simp] theorem setFull_ringIndex (s : State) (pa : Nat) (b : Bool) : (setFull pa b s).ringIndex = s.ringIndex := rfl
@[simp] theorem setFull_ringPass (s : State) (pa : Nat) (b : Bool) : (setFull pa b s).ringPass = s.ringPass := rfl
@[simp] theorem setFull_consumed (s : State) (pa : Nat) (b : Bool) : (setFull pa b s).consumed = s.consumed := rfl
@[simp] theorem setFull_cmdBuffer (s : State) (pa : Nat) (b : Bool) : (setFull pa b s).cmdBuffer = s.cmdBuffer := rfl
@[simp] theorem setFull_mirror (s : State) (pa : Nat) (b : Bool) : (setFull pa b s).mirror = s.mirror := rfl
@[simp] theorem setFull_commands (s : State) (pa : Nat) (b : Bool) : (setFull pa b s).commands = s.commands := rfl
@[simp] theorem setFull_msix (s : State) (pa : Nat) (b : Bool) : (setFull pa b s).msix = s.msix := rfl
@[simp] theorem setFull_linkUp (s : State) (pa : Nat) (b : Bool) : (setFull pa b s).linkUp = s.linkUp := rfl
@[simp] theorem setFull_linkLostAt (s : State) (pa : Nat) (b : Bool) : (setFull pa b s).linkLostAt = s.linkLostAt := rfl
@[simp] theorem setFull_tvecdef (s : State) (pa : Nat) (b : Bool) : (setFull pa b s).tvecdef = s.tvecdef := rfl
@[simp] theorem setFull_service (s : State) (pa : Nat) (b : Bool) : (setFull pa b s).service = s.service := rfl
@[simp] theorem setFull_evstate (s : State) (pa : Nat) (b : Bool) : (setFull pa b s).evstate = s.evstate := rfl
@[simp] theorem setFull_evictTo (s : State) (pa : Nat) (b : Bool) : (setFull pa b s).evictTo = s.evictTo := rfl
@[simp] theorem setFull_evictRanges (s : State) (pa : Nat) (b : Bool) : (setFull pa b s).evictRanges = s.evictRanges := rfl
@[simp] theorem setFull_redirects (s : State) (pa : Nat) (b : Bool) : (setFull pa b s).redirects = s.redirects := rfl
@[simp] theorem setFull_peerEvicts (s : State) (pa : Nat) (b : Bool) : (setFull pa b s).peerEvicts = s.peerEvicts := rfl
@[simp] theorem setFull_evictSent (s : State) (pa : Nat) (b : Bool) : (setFull pa b s).evictSent = s.evictSent := rfl
@[simp] theorem setFull_throttled (s : State) (pa : Nat) (b : Bool) : (setFull pa b s).throttled = s.throttled := rfl
@[simp] theorem setFull_startFault (s : State) (pa : Nat) (b : Bool) : (setFull pa b s).startFault = s.startFault := rfl
@[simp] theorem setFull_mismatchAt (s : State) (pa : Nat) (b : Bool) : (setFull pa b s).mismatchAt = s.mismatchAt := rfl
@[simp] theorem setFull_boots (s : State) (pa : Nat) (b : Bool) : (setFull pa b s).boots = s.boots := rfl
@[simp] theorem setFull_unlatch (s : State) (pa : Nat) (b : Bool) : (setFull pa b s).unlatch = s.unlatch := rfl
@[simp] theorem setFull_lastDev (s : State) (pa : Nat) (b : Bool) : (setFull pa b s).lastDev = s.lastDev := rfl
@[simp] theorem setFull_cfg (s : State) (pa : Nat) (b : Bool) : (setFull pa b s).cfg = s.cfg := rfl
@[simp] theorem setFull_hostAnswers (s : State) (pa : Nat) (b : Bool) : (setFull pa b s).hostAnswers = s.hostAnswers := rfl
@[simp] theorem setFull_busAnswer (s : State) (pa : Nat) (b : Bool) : (setFull pa b s).busAnswer = s.busAnswer := rfl
@[simp] theorem setFull_agenda (s : State) (pa : Nat) (b : Bool) : (setFull pa b s).agenda = s.agenda := rfl
@[simp] theorem setFull_acted (s : State) (pa : Nat) (b : Bool) : (setFull pa b s).acted = s.acted := rfl
@[simp] theorem setFull_turn (s : State) (pa : Nat) (b : Bool) : (setFull pa b s).turn = s.turn := rfl
@[simp] theorem setFull_fresh (s : State) (pa : Nat) (b : Bool) : (setFull pa b s).fresh = s.fresh := rfl
@[simp] theorem setFull_freeCount (s : State) (pa : Nat) (b : Bool) : (setFull pa b s).freeCount = s.freeCount := rfl

/-! `modThread` changes threads only. -/
@[simp] theorem modThread_cc (s : State) (k : Nat) (f : Thread → Thread) : (modThread k f s).cc = s.cc := by
  unfold modThread; split <;> rfl
@[simp] theorem modThread_cores (s : State) (k : Nat) (f : Thread → Thread) : (modThread k f s).cores = s.cores := by
  unfold modThread; split <;> rfl
@[simp] theorem modThread_mem (s : State) (k : Nat) (f : Thread → Thread) : (modThread k f s).mem = s.mem := by
  unfold modThread; split <;> rfl
@[simp] theorem modThread_hostMem (s : State) (k : Nat) (f : Thread → Thread) : (modThread k f s).hostMem = s.hostMem := by
  unfold modThread; split <;> rfl
@[simp] theorem modThread_full (s : State) (k : Nat) (f : Thread → Thread) : (modThread k f s).full = s.full := by
  unfold modThread; split <;> rfl
@[simp] theorem modThread_acc (s : State) (k : Nat) (f : Thread → Thread) : (modThread k f s).acc = s.acc := by
  unfold modThread; split <;> rfl
@[simp] theorem modThread_accAsid (s : State) (k : Nat) (f : Thread → Thread) : (modThread k f s).accAsid = s.accAsid := by
  unfold modThread; split <;> rfl
@[simp] theorem modThread_waiters (s : State) (k : Nat) (f : Thread → Thread) : (modThread k f s).waiters = s.waiters := by
  unfold modThread; split <;> rfl
@[simp] theorem modThread_woken (s : State) (k : Nat) (f : Thread → Thread) : (modThread k f s).woken = s.woken := by
  unfold modThread; split <;> rfl
@[simp] theorem modThread_tlb1 (s : State) (k : Nat) (f : Thread → Thread) : (modThread k f s).tlb1 = s.tlb1 := by
  unfold modThread; split <;> rfl
@[simp] theorem modThread_tlb2 (s : State) (k : Nat) (f : Thread → Thread) : (modThread k f s).tlb2 = s.tlb2 := by
  unfold modThread; split <;> rfl
@[simp] theorem modThread_walks (s : State) (k : Nat) (f : Thread → Thread) : (modThread k f s).walks = s.walks := by
  unfold modThread; split <;> rfl
@[simp] theorem modThread_l1 (s : State) (k : Nat) (f : Thread → Thread) : (modThread k f s).l1 = s.l1 := by
  unfold modThread; split <;> rfl
@[simp] theorem modThread_dir (s : State) (k : Nat) (f : Thread → Thread) : (modThread k f s).dir = s.dir := by
  unfold modThread; split <;> rfl
@[simp] theorem modThread_granules (s : State) (k : Nat) (f : Thread → Thread) : (modThread k f s).granules = s.granules := by
  unfold modThread; split <;> rfl
@[simp] theorem modThread_tables (s : State) (k : Nat) (f : Thread → Thread) : (modThread k f s).tables = s.tables := by
  unfold modThread; split <;> rfl
@[simp] theorem modThread_accesses (s : State) (k : Nat) (f : Thread → Thread) : (modThread k f s).accesses = s.accesses := by
  unfold modThread; split <;> rfl
@[simp] theorem modThread_links (s : State) (k : Nat) (f : Thread → Thread) : (modThread k f s).links = s.links := by
  unfold modThread; split <;> rfl
@[simp] theorem modThread_turns (s : State) (k : Nat) (f : Thread → Thread) : (modThread k f s).turns = s.turns := by
  unfold modThread; split <;> rfl
@[simp] theorem modThread_eccBad (s : State) (k : Nat) (f : Thread → Thread) : (modThread k f s).eccBad = s.eccBad := by
  unfold modThread; split <;> rfl
@[simp] theorem modThread_accBad (s : State) (k : Nat) (f : Thread → Thread) : (modThread k f s).accBad = s.accBad := by
  unfold modThread; split <;> rfl
@[simp] theorem modThread_eccSoft (s : State) (k : Nat) (f : Thread → Thread) : (modThread k f s).eccSoft = s.eccSoft := by
  unfold modThread; split <;> rfl
@[simp] theorem modThread_corrected (s : State) (k : Nat) (f : Thread → Thread) : (modThread k f s).corrected = s.corrected := by
  unfold modThread; split <;> rfl
@[simp] theorem modThread_migrations (s : State) (k : Nat) (f : Thread → Thread) : (modThread k f s).migrations = s.migrations := by
  unfold modThread; split <;> rfl
@[simp] theorem modThread_invals (s : State) (k : Nat) (f : Thread → Thread) : (modThread k f s).invals = s.invals := by
  unfold modThread; split <;> rfl
@[simp] theorem modThread_shootdown (s : State) (k : Nat) (f : Thread → Thread) : (modThread k f s).shootdown = s.shootdown := by
  unfold modThread; split <;> rfl
@[simp] theorem modThread_asidtab (s : State) (k : Nat) (f : Thread → Thread) : (modThread k f s).asidtab = s.asidtab := by
  unfold modThread; split <;> rfl
@[simp] theorem modThread_migpool (s : State) (k : Nat) (f : Thread → Thread) : (modThread k f s).migpool = s.migpool := by
  unfold modThread; split <;> rfl
@[simp] theorem modThread_frames (s : State) (k : Nat) (f : Thread → Thread) : (modThread k f s).frames = s.frames := by
  unfold modThread; split <;> rfl
@[simp] theorem modThread_held (s : State) (k : Nat) (f : Thread → Thread) : (modThread k f s).held = s.held := by
  unfold modThread; split <;> rfl
@[simp] theorem modThread_relayed (s : State) (k : Nat) (f : Thread → Thread) : (modThread k f s).relayed = s.relayed := by
  unfold modThread; split <;> rfl
@[simp] theorem modThread_peers (s : State) (k : Nat) (f : Thread → Thread) : (modThread k f s).peers = s.peers := by
  unfold modThread; split <;> rfl
@[simp] theorem modThread_lanes (s : State) (k : Nat) (f : Thread → Thread) : (modThread k f s).lanes = s.lanes := by
  unfold modThread; split <;> rfl
@[simp] theorem modThread_combsFailed (s : State) (k : Nat) (f : Thread → Thread) : (modThread k f s).combsFailed = s.combsFailed := by
  unfold modThread; split <;> rfl
@[simp] theorem modThread_rlytab (s : State) (k : Nat) (f : Thread → Thread) : (modThread k f s).rlytab = s.rlytab := by
  unfold modThread; split <;> rfl
@[simp] theorem modThread_secondDown (s : State) (k : Nat) (f : Thread → Thread) : (modThread k f s).secondDown = s.secondDown := by
  unfold modThread; split <;> rfl
@[simp] theorem modThread_notices (s : State) (k : Nat) (f : Thread → Thread) : (modThread k f s).notices = s.notices := by
  unfold modThread; split <;> rfl
@[simp] theorem modThread_heldNotices (s : State) (k : Nat) (f : Thread → Thread) : (modThread k f s).heldNotices = s.heldNotices := by
  unfold modThread; split <;> rfl
@[simp] theorem modThread_dommap (s : State) (k : Nat) (f : Thread → Thread) : (modThread k f s).dommap = s.dommap := by
  unfold modThread; split <;> rfl
@[simp] theorem modThread_domtag (s : State) (k : Nat) (f : Thread → Thread) : (modThread k f s).domtag = s.domtag := by
  unfold modThread; split <;> rfl
@[simp] theorem modThread_seq (s : State) (k : Nat) (f : Thread → Thread) : (modThread k f s).seq = s.seq := by
  unfold modThread; split <;> rfl
@[simp] theorem modThread_log (s : State) (k : Nat) (f : Thread → Thread) : (modThread k f s).log = s.log := by
  unfold modThread; split <;> rfl
@[simp] theorem modThread_ctxs (s : State) (k : Nat) (f : Thread → Thread) : (modThread k f s).ctxs = s.ctxs := by
  unfold modThread; split <;> rfl
@[simp] theorem modThread_autos (s : State) (k : Nat) (f : Thread → Thread) : (modThread k f s).autos = s.autos := by
  unfold modThread; split <;> rfl
@[simp] theorem modThread_ports (s : State) (k : Nat) (f : Thread → Thread) : (modThread k f s).ports = s.ports := by
  unfold modThread; split <;> rfl
@[simp] theorem modThread_claims (s : State) (k : Nat) (f : Thread → Thread) : (modThread k f s).claims = s.claims := by
  unfold modThread; split <;> rfl
@[simp] theorem modThread_nodes (s : State) (k : Nat) (f : Thread → Thread) : (modThread k f s).nodes = s.nodes := by
  unfold modThread; split <;> rfl
@[simp] theorem modThread_gens (s : State) (k : Nat) (f : Thread → Thread) : (modThread k f s).gens = s.gens := by
  unfold modThread; split <;> rfl
@[simp] theorem modThread_readyLists (s : State) (k : Nat) (f : Thread → Thread) : (modThread k f s).readyLists = s.readyLists := by
  unfold modThread; split <;> rfl
@[simp] theorem modThread_reservation (s : State) (k : Nat) (f : Thread → Thread) : (modThread k f s).reservation = s.reservation := by
  unfold modThread; split <;> rfl
@[simp] theorem modThread_cohorts (s : State) (k : Nat) (f : Thread → Thread) : (modThread k f s).cohorts = s.cohorts := by
  unfold modThread; split <;> rfl
@[simp] theorem modThread_departed (s : State) (k : Nat) (f : Thread → Thread) : (modThread k f s).departed = s.departed := by
  unfold modThread; split <;> rfl
@[simp] theorem modThread_cicada (s : State) (k : Nat) (f : Thread → Thread) : (modThread k f s).cicada = s.cicada := by
  unfold modThread; split <;> rfl
@[simp] theorem modThread_specLines (s : State) (k : Nat) (f : Thread → Thread) : (modThread k f s).specLines = s.specLines := by
  unfold modThread; split <;> rfl
@[simp] theorem modThread_parked (s : State) (k : Nat) (f : Thread → Thread) : (modThread k f s).parked = s.parked := by
  unfold modThread; split <;> rfl
@[simp] theorem modThread_contexts (s : State) (k : Nat) (f : Thread → Thread) : (modThread k f s).contexts = s.contexts := by
  unfold modThread; split <;> rfl
@[simp] theorem modThread_hubReqs (s : State) (k : Nat) (f : Thread → Thread) : (modThread k f s).hubReqs = s.hubReqs := by
  unfold modThread; split <;> rfl
@[simp] theorem modThread_cmdring (s : State) (k : Nat) (f : Thread → Thread) : (modThread k f s).cmdring = s.cmdring := by
  unfold modThread; split <;> rfl
@[simp] theorem modThread_ringIndex (s : State) (k : Nat) (f : Thread → Thread) : (modThread k f s).ringIndex = s.ringIndex := by
  unfold modThread; split <;> rfl
@[simp] theorem modThread_ringPass (s : State) (k : Nat) (f : Thread → Thread) : (modThread k f s).ringPass = s.ringPass := by
  unfold modThread; split <;> rfl
@[simp] theorem modThread_consumed (s : State) (k : Nat) (f : Thread → Thread) : (modThread k f s).consumed = s.consumed := by
  unfold modThread; split <;> rfl
@[simp] theorem modThread_cmdBuffer (s : State) (k : Nat) (f : Thread → Thread) : (modThread k f s).cmdBuffer = s.cmdBuffer := by
  unfold modThread; split <;> rfl
@[simp] theorem modThread_mirror (s : State) (k : Nat) (f : Thread → Thread) : (modThread k f s).mirror = s.mirror := by
  unfold modThread; split <;> rfl
@[simp] theorem modThread_commands (s : State) (k : Nat) (f : Thread → Thread) : (modThread k f s).commands = s.commands := by
  unfold modThread; split <;> rfl
@[simp] theorem modThread_msix (s : State) (k : Nat) (f : Thread → Thread) : (modThread k f s).msix = s.msix := by
  unfold modThread; split <;> rfl
@[simp] theorem modThread_linkUp (s : State) (k : Nat) (f : Thread → Thread) : (modThread k f s).linkUp = s.linkUp := by
  unfold modThread; split <;> rfl
@[simp] theorem modThread_linkLostAt (s : State) (k : Nat) (f : Thread → Thread) : (modThread k f s).linkLostAt = s.linkLostAt := by
  unfold modThread; split <;> rfl
@[simp] theorem modThread_tvecdef (s : State) (k : Nat) (f : Thread → Thread) : (modThread k f s).tvecdef = s.tvecdef := by
  unfold modThread; split <;> rfl
@[simp] theorem modThread_service (s : State) (k : Nat) (f : Thread → Thread) : (modThread k f s).service = s.service := by
  unfold modThread; split <;> rfl
@[simp] theorem modThread_evstate (s : State) (k : Nat) (f : Thread → Thread) : (modThread k f s).evstate = s.evstate := by
  unfold modThread; split <;> rfl
@[simp] theorem modThread_evictTo (s : State) (k : Nat) (f : Thread → Thread) : (modThread k f s).evictTo = s.evictTo := by
  unfold modThread; split <;> rfl
@[simp] theorem modThread_evictRanges (s : State) (k : Nat) (f : Thread → Thread) : (modThread k f s).evictRanges = s.evictRanges := by
  unfold modThread; split <;> rfl
@[simp] theorem modThread_redirects (s : State) (k : Nat) (f : Thread → Thread) : (modThread k f s).redirects = s.redirects := by
  unfold modThread; split <;> rfl
@[simp] theorem modThread_peerEvicts (s : State) (k : Nat) (f : Thread → Thread) : (modThread k f s).peerEvicts = s.peerEvicts := by
  unfold modThread; split <;> rfl
@[simp] theorem modThread_evictSent (s : State) (k : Nat) (f : Thread → Thread) : (modThread k f s).evictSent = s.evictSent := by
  unfold modThread; split <;> rfl
@[simp] theorem modThread_throttled (s : State) (k : Nat) (f : Thread → Thread) : (modThread k f s).throttled = s.throttled := by
  unfold modThread; split <;> rfl
@[simp] theorem modThread_startFault (s : State) (k : Nat) (f : Thread → Thread) : (modThread k f s).startFault = s.startFault := by
  unfold modThread; split <;> rfl
@[simp] theorem modThread_mismatchAt (s : State) (k : Nat) (f : Thread → Thread) : (modThread k f s).mismatchAt = s.mismatchAt := by
  unfold modThread; split <;> rfl
@[simp] theorem modThread_boots (s : State) (k : Nat) (f : Thread → Thread) : (modThread k f s).boots = s.boots := by
  unfold modThread; split <;> rfl
@[simp] theorem modThread_unlatch (s : State) (k : Nat) (f : Thread → Thread) : (modThread k f s).unlatch = s.unlatch := by
  unfold modThread; split <;> rfl
@[simp] theorem modThread_lastDev (s : State) (k : Nat) (f : Thread → Thread) : (modThread k f s).lastDev = s.lastDev := by
  unfold modThread; split <;> rfl
@[simp] theorem modThread_cfg (s : State) (k : Nat) (f : Thread → Thread) : (modThread k f s).cfg = s.cfg := by
  unfold modThread; split <;> rfl
@[simp] theorem modThread_hostAnswers (s : State) (k : Nat) (f : Thread → Thread) : (modThread k f s).hostAnswers = s.hostAnswers := by
  unfold modThread; split <;> rfl
@[simp] theorem modThread_busAnswer (s : State) (k : Nat) (f : Thread → Thread) : (modThread k f s).busAnswer = s.busAnswer := by
  unfold modThread; split <;> rfl
@[simp] theorem modThread_agenda (s : State) (k : Nat) (f : Thread → Thread) : (modThread k f s).agenda = s.agenda := by
  unfold modThread; split <;> rfl
@[simp] theorem modThread_acted (s : State) (k : Nat) (f : Thread → Thread) : (modThread k f s).acted = s.acted := by
  unfold modThread; split <;> rfl
@[simp] theorem modThread_turn (s : State) (k : Nat) (f : Thread → Thread) : (modThread k f s).turn = s.turn := by
  unfold modThread; split <;> rfl
@[simp] theorem modThread_fresh (s : State) (k : Nat) (f : Thread → Thread) : (modThread k f s).fresh = s.fresh := by
  unfold modThread; split <;> rfl
@[simp] theorem modThread_freeCount (s : State) (k : Nat) (f : Thread → Thread) : (modThread k f s).freeCount = s.freeCount := by
  unfold modThread; split <;> rfl

/-! `advance` changes the clocks, the PC and the wait. -/
@[simp] theorem advance_node (t : Thread) (c : Nat) : (advance t c).node = t.node := by
  unfold advance; dsimp only; split <;> rfl
@[simp] theorem advance_bx (t : Thread) (c : Nat) : (advance t c).bx = t.bx := by
  unfold advance; dsimp only; split <;> rfl
@[simp] theorem advance_bY (t : Thread) (c : Nat) : (advance t c).bY = t.bY := by
  unfold advance; dsimp only; split <;> rfl
@[simp] theorem advance_line (t : Thread) (c : Nat) : (advance t c).line = t.line := by
  unfold advance; dsimp only; split <;> rfl
@[simp] theorem advance_system (t : Thread) (c : Nat) : (advance t c).system = t.system := by
  unfold advance; dsimp only; split <;> rfl
@[simp] theorem advance_regs (t : Thread) (c : Nat) : (advance t c).regs = t.regs := by
  unfold advance; dsimp only; split <;> rfl
@[simp] theorem advance_flight (t : Thread) (c : Nat) : (advance t c).flight = t.flight := by
  unfold advance; dsimp only; split <;> rfl
@[simp] theorem advance_handles (t : Thread) (c : Nat) : (advance t c).handles = t.handles := by
  unfold advance; dsimp only; split <;> rfl
@[simp] theorem advance_sys (t : Thread) (c : Nat) : (advance t c).sys = t.sys := by
  unfold advance; dsimp only; split <;> rfl
@[simp] theorem advance_lfsr (t : Thread) (c : Nat) : (advance t c).lfsr = t.lfsr := by
  unfold advance; dsimp only; split <;> rfl
@[simp] theorem advance_tokens (t : Thread) (c : Nat) : (advance t c).tokens = t.tokens := by
  unfold advance; dsimp only; split <;> rfl
@[simp] theorem advance_pushed (t : Thread) (c : Nat) : (advance t c).pushed = t.pushed := by
  unfold advance; dsimp only; split <;> rfl
@[simp] theorem advance_pushedAt (t : Thread) (c : Nat) : (advance t c).pushedAt = t.pushedAt := by
  unfold advance; dsimp only; split <;> rfl
@[simp] theorem advance_me (t : Thread) (c : Nat) : (advance t c).me = t.me := by
  unfold advance; dsimp only; split <;> rfl
@[simp] theorem advance_c0 (t : Thread) (c : Nat) : (advance t c).c0 = t.c0 := by
  unfold advance; dsimp only; split <;> rfl
@[simp] theorem advance_c1 (t : Thread) (c : Nat) : (advance t c).c1 = t.c1 := by
  unfold advance; dsimp only; split <;> rfl
@[simp] theorem advance_mx (t : Thread) (c : Nat) : (advance t c).mx = t.mx := by
  unfold advance; dsimp only; split <;> rfl
@[simp] theorem advance_chains (t : Thread) (c : Nat) : (advance t c).chains = t.chains := by
  unfold advance; dsimp only; split <;> rfl
@[simp] theorem advance_windowGen (t : Thread) (c : Nat) : (advance t c).windowGen = t.windowGen := by
  unfold advance; dsimp only; split <;> rfl
@[simp] theorem advance_faultQueue (t : Thread) (c : Nat) : (advance t c).faultQueue = t.faultQueue := by
  unfold advance; dsimp only; split <;> rfl
@[simp] theorem advance_watch (t : Thread) (c : Nat) : (advance t c).watch = t.watch := by
  unfold advance; dsimp only; split <;> rfl
@[simp] theorem advance_clock (t : Thread) (c : Nat) : (advance t c).clock = t.clock := by
  unfold advance; dsimp only; split <;> rfl
@[simp] theorem advance_cohort (t : Thread) (c : Nat) : (advance t c).cohort = t.cohort := by
  unfold advance; dsimp only; split <;> rfl
@[simp] theorem advance_leaving (t : Thread) (c : Nat) : (advance t c).leaving = t.leaving := by
  unfold advance; dsimp only; split <;> rfl
@[simp] theorem advance_names (t : Thread) (c : Nat) : (advance t c).names = t.names := by
  unfold advance; dsimp only; split <;> rfl
@[simp] theorem advance_trapping (t : Thread) (c : Nat) : (advance t c).trapping = t.trapping := by
  unfold advance; dsimp only; split <;> rfl
@[simp] theorem advance_saved (t : Thread) (c : Nat) : (advance t c).saved = t.saved := by
  unfold advance; dsimp only; split <;> rfl
@[simp] theorem advance_boundary (t : Thread) (c : Nat) : (advance t c).boundary = t.boundary := by
  unfold advance; dsimp only; split <;> rfl
@[simp] theorem advance_dropped (t : Thread) (c : Nat) : (advance t c).dropped = t.dropped := by
  unfold advance; dsimp only; split <;> rfl
@[simp] theorem advance_dropDev (t : Thread) (c : Nat) : (advance t c).dropDev = t.dropDev := by
  unfold advance; dsimp only; split <;> rfl
@[simp] theorem advance_droppedHost (t : Thread) (c : Nat) : (advance t c).droppedHost = t.droppedHost := by
  unfold advance; dsimp only; split <;> rfl
@[simp] theorem advance_spec (t : Thread) (c : Nat) : (advance t c).spec = t.spec := by
  unfold advance; dsimp only; split <;> rfl
@[simp] theorem advance_deferredTrap (t : Thread) (c : Nat) : (advance t c).deferredTrap = t.deferredTrap := by
  unfold advance; dsimp only; split <;> rfl
@[simp] theorem advance_life (t : Thread) (c : Nat) : (advance t c).life = t.life := by
  unfold advance; dsimp only; split <;> rfl
@[simp] theorem advance_hold (t : Thread) (c : Nat) : (advance t c).hold = t.hold := by
  unfold advance; dsimp only; split <;> rfl
@[simp] theorem advance_fetchFault (t : Thread) (c : Nat) : (advance t c).fetchFault = t.fetchFault := by
  unfold advance; dsimp only; split <;> rfl
@[simp] theorem advance_readySince (t : Thread) (c : Nat) : (advance t c).readySince = t.readySince := by
  unfold advance; dsimp only; split <;> rfl
@[simp] theorem advance_dispatched (t : Thread) (c : Nat) : (advance t c).dispatched = t.dispatched := by
  unfold advance; dsimp only; split <;> rfl
@[simp] theorem advance_gather (t : Thread) (c : Nat) : (advance t c).gather = t.gather := by
  unfold advance; dsimp only; split <;> rfl
@[simp] theorem advance_noIssueBefore (t : Thread) (c : Nat) : (advance t c).noIssueBefore = t.noIssueBefore := by
  unfold advance; dsimp only; split <;> rfl
@[simp] theorem advance_stopping (t : Thread) (c : Nat) : (advance t c).stopping = t.stopping := by
  unfold advance; dsimp only; split <;> rfl
@[simp] theorem advance_pc (t : Thread) (c : Nat) : (advance t c).pc = t.pc + 16 := by
  unfold advance; dsimp only; split <;> rfl
@[simp] theorem advance_wait (t : Thread) (c : Nat) : (advance t c).wait = none := by
  unfold advance; dsimp only; split <;> rfl
@[simp] theorem advance_sWait (t : Thread) (c : Nat) : (advance t c).sWait = none := by
  unfold advance; dsimp only; split <;> rfl

/-! Threads. -/

@[simp] theorem getThread_setThread (s : State) (k : Nat) (t : Thread) : getThread (setThread s k t) k = some t := by
  simp [getThread]
@[simp] theorem look_setThread (s : State) (k : Nat) (t : Thread) : look (setThread s k t).threads k = some t := by simp
@[simp] theorem setThread_setThread (s : State) (k : Nat) (t u : Thread) : setThread (setThread s k t) k u = setThread s k u := by
  simp [setThread]
@[simp] theorem modThread_setThread (s : State) (k : Nat) (t : Thread) (f : Thread → Thread) :
    modThread k f (setThread s k t) = setThread s k (f t) := by
  simp [modThread, setThread]
@[simp] theorem addItem_setThread (s : State) (k : Nat) (t : Thread) (i : Item) :
    addItem k i (setThread s k t) = setThread s k { t with flight := t.flight ++ [i] } := by
  simp [addItem]
@[simp] theorem modSys_setThread (s : State) (k : Nat) (t : Thread) (f : Sys → Sys) :
    modSys k f (setThread s k t) = setThread s k { t with sys := f t.sys } := by
  simp [modSys]
theorem modThread_of {s : State} {k : Nat} {t : Thread} (h : getThread s k = some t) (f : Thread → Thread) :
    modThread k f s = setThread s k (f t) := by
  simp only [getThread] at h
  simp [modThread, h, setThread]
@[simp] theorem getThread_modThread (s : State) (k : Nat) (f : Thread → Thread) :
    getThread (modThread k f s) k = (getThread s k).map f := by
  unfold modThread getThread
  split <;> simp [*]
theorem getThread_setThread_other {s : State} (h : keysRise s.threads = true) {k j : Nat} (hj : j ≠ k) (t : Thread) :
    getThread (setThread s k t) j = getThread s j := by
  simp [getThread, look_put_other h hj]

end Sys2Proof.Machine
end

