-- ==== Sys2Proof/Laws/Issue.lean ====
section
/-! SUPPORT. What the issue of a bundle can do: it faults without a thread, waits, traps, is held, or acts. -/

namespace Sys2Proof.Machine

@[simp] theorem pickTrap_nil : pickTrap [] = none := rfl
@[simp] theorem pickTrap_one (t : Trap) : pickTrap [t] = some t := rfl

theorem pickTrap_none {l : List Trap} : pickTrap l = none ↔ l = [] := by
  cases l with
  | nil => simp
  | cons t ts =>
    simp only [pickTrap, reduceCtorEq, iff_false]
    split
    · simp
    · split <;> simp

/-! A bundle of one operation. -/

@[simp] theorem bundleTraps_one (t : Thread) (r : OpRun) : bundleTraps t [r] = if feDone t then [] else r.traps := by
  simp [bundleTraps]
@[simp] theorem anyHold_one (s : State) (k : Nat) (r : OpRun) : anyHold s k [r] = r.hold := by
  have h : (([r] : List OpRun).filter fun r => decide (r.entries ≠ 0)).length < 2 :=
    Nat.lt_of_le_of_lt (List.length_filter_le _ _) (by simp)
  have h2 : crowded s k [r] = false := by
    simp only [crowded, Bool.and_eq_false_iff, decide_eq_false_iff_not]
    exact .inl (Nat.not_le_of_lt h)
  rw [anyHold, h2, List.any_cons, List.any_nil, Bool.or_false, Bool.or_false]
@[simp] theorem actOrder_one (r : OpRun) : actOrder [r] = [r] := by
  cases h : r.last <;> simp [actOrder, h]
theorem startWait_one {r : OpRun} (h : r.hold = true) (s : State) : startWait [r] s = r.onHold (r.note s) := by
  simp [startWait, h]

theorem issueOp_noThread {s : State} (h : getThread s s.turn = none) (p : Nat) (o : Op) : issueOp p o s = .fault .noThread := by
  simp [issueOp, issueOps, h]

theorem issueOp_waits {s : State} {t : Thread} (h : getThread s s.turn = some t) (hp : presentable t = false) (p : Nat) (o : Op) :
    issueOp p o s = .next s := by
  simp [issueOp, issueOps, h, hp]

theorem issueOp_issues {s : State} {t : Thread} (h : AtTurn s t) {p : Nat} {o : Op}
    (ht : (o.run p s.turn s t).traps = []) (hh : (o.run p s.turn s t).hold = false) :
    issueOp p o s = .next ((o.run p s.turn s t).act (afterBundle s t)) := by
  simp [issueOp, issueOps, h.1, h.2, runOps, ht, hh, afterBundle]

/-- R199: the bundle of a full/empty form whose action has been performed issues; nothing of it traps. -/
theorem issueOp_performed {s : State} {t : Thread} (h : AtTurn s t) (hd : feDone t = true) {p : Nat} {o : Op}
    (hh : (o.run p s.turn s t).hold = false) : issueOp p o s = .next ((o.run p s.turn s t).act (afterBundle s t)) := by
  simp [issueOp, issueOps, h.1, h.2, runOps, hd, hh, afterBundle]

theorem issueOp_traps {s : State} {t : Thread} (h : AtTurn s t) (hd : feDone t = false) {p : Nat} {o : Op} {tr : Trap}
    (ht : pickTrap (o.run p s.turn s t).traps = some tr) : issueOp p o s = .next (raiseTrap s.turn tr s) := by
  simp [issueOp, issueOps, h.1, h.2, runOps, hd, ht]

theorem issueOp_holds {s : State} {t : Thread} (h : AtTurn s t) {p : Nat} {o : Op}
    (ht : (o.run p s.turn s t).traps = []) (hh : (o.run p s.turn s t).hold = true) :
    issueOp p o s = .next ((o.run p s.turn s t).onHold ((o.run p s.turn s t).note s)) := by
  simp [issueOp, issueOps, h.1, h.2, runOps, ht, hh, startWait_one]

/-- Everything a bundle of one operation can do. -/
theorem issueOp_cases (p : Nat) (o : Op) (s : State) :
    issueOp p o s = .fault .noThread ∨ issueOp p o s = .next s
      ∨ (∃ t, AtTurn s t ∧ ((∃ tr, feDone t = false ∧ issueOp p o s = .next (raiseTrap s.turn tr s))
          ∨ issueOp p o s = .next ((o.run p s.turn s t).onHold ((o.run p s.turn s t).note s))
          ∨ issueOp p o s = .next ((o.run p s.turn s t).act (afterBundle s t)))) := by
  cases h : getThread s s.turn with
  | none => exact .inl (issueOp_noThread h p o)
  | some t =>
    cases hp : presentable t with
    | false => exact .inr (.inl (issueOp_waits h hp p o))
    | true =>
      refine .inr (.inr ⟨t, ⟨h, hp⟩, ?_⟩)
      cases ht : pickTrap (bundleTraps t [o.run p s.turn s t]) with
      | some tr =>
        refine .inl ⟨tr, ?_, ?_⟩
        · cases hd : feDone t <;> simp_all
        · simp [issueOp, issueOps, h, hp, runOps, -bundleTraps_one, ht]
      | none =>
        cases hh : (o.run p s.turn s t).hold with
        | true => exact .inr (.inl (by simp [issueOp, issueOps, h, hp, runOps, -bundleTraps_one, ht, hh, startWait_one]))
        | false =>
          exact .inr (.inr (by simp [issueOp, issueOps, h, hp, runOps, -bundleTraps_one, ht, hh, afterBundle]))

/-! The shapes of an operation that pushes one result. -/

theorem issue_opScalar {s : State} {t : Thread} (h : AtTurn s t) {p lat : Nat} {as : List SSpec} {f : Thread → W64 × FpFlags}
    (hp : poisonS t as = []) : issueOp p (opScalar lat as f) s = .next (pushes s t 1 lat (.scalar (.val (f t).1)) (f t).2) := by
  rw [issueOp_issues h (o := opScalar lat as f) hp rfl]
  simp [opScalar, afterBundle, pushes, afterWith]

theorem issue_opVector {s : State} {t : Thread} (h : AtTurn s t) {p lat : Nat} {as : List VSpec} {f : Thread → Vec × FpFlags}
    (hp : poisonV t as = []) : issueOp p (opVector lat as f) s = .next (pushes s t 2 lat (.vector (.val (f t).1)) (f t).2) := by
  rw [issueOp_issues h (o := opVector lat as f) hp rfl]
  simp [opVector, afterBundle, pushes, afterWith]

theorem issue_opVectorScalar {s : State} {t : Thread} (h : AtTurn s t) {p lat : Nat} {as : List VSpec} {f : Thread → W64}
    (hp : poisonV t as = []) : issueOp p (opVectorScalar lat as f) s = .next (pushes s t 2 lat (.scalar (.val (f t))) .none) := by
  rw [issueOp_issues h (o := opVectorScalar lat as f) hp rfl]
  simp [opVectorScalar, afterBundle, pushes, afterWith]

/-- A poison-free list of operands is poison-free in each part. -/
theorem poisonS_cons {t : Thread} {a : SSpec} {as : List SSpec} :
    poisonS t (a :: as) = [] ↔ poisonS t [a] = [] ∧ poisonS t as = [] := by
  simp [poisonS]
theorem poisonV_cons {t : Thread} {a : VSpec} {as : List VSpec} :
    poisonV t (a :: as) = [] ↔ poisonV t [a] = [] ∧ poisonV t as = [] := by
  simp [poisonV]
@[simp] theorem poisonS_nil (t : Thread) : poisonS t [] = [] := rfl
@[simp] theorem poisonV_nil (t : Thread) : poisonV t [] = [] := rfl

/-- A scratchpad access that passes the checks raises nothing. -/
theorem localTraps_ok {t : Thread} {x : W64} {n : Nat} (h : ScratchOk t x n) (p : Nat) : localTraps t p x n = [] := by
  obtain ⟨h1, h2, h3⟩ := h
  simpa [localTraps, h1, h3] using h2

end Sys2Proof.Machine
end

