-- ==== Sys2Proof/Laws/Memory.lean ====
section
/-! SUPPORT. The operations of Machine/ that write memory keep its canonical form. -/

namespace Sys2Proof.Machine

theorem wf_foldl_store {α : Type} (f : α → Nat) (g : α → List Byte) (l : List α) {m : Memory} (h : m.wf = true) :
    Memory.wf (l.foldl (fun m x => m.store (f x) (g x)) m) = true := by
  induction l generalizing m with
  | nil => exact h
  | cons x xs ih => exact ih (Memory.wf_store h _ _)
theorem wf_foldl_write (l : List (Nat × Byte)) {m : Memory} (h : m.wf = true) :
    Memory.wf (l.foldl (fun m c => m.write c.1 c.2) m) = true := by
  induction l generalizing m with
  | nil => exact h
  | cons x xs ih => exact ih (Memory.wf_write h _ _)
theorem wf_foldl {α : Type} (f : Memory → α → Memory) (hf : ∀ m x, Memory.wf m = true → Memory.wf (f m x) = true) (l : List α)
    {m : Memory} (h : m.wf = true) : Memory.wf (l.foldl f m) = true := by
  induction l generalizing m with
  | nil => exact h
  | cons x xs ih => exact ih (hf _ _ h)

theorem wf_moveBytes (src dst n : Nat) {m : Memory} (h : m.wf = true) : Memory.wf (moveBytes src dst n m) = true :=
  wf_foldl_write _ (Memory.wf_clear (Memory.wf_clear h _ _) _ _)
theorem wf_zeroed (s : State) (keep : Bool) {m : Memory} (h : m.wf = true) : Memory.wf (zeroed s keep m) = true :=
  Memory.wf_filter h _
theorem wf_writePa (pa : Nat) (b : List Byte) {s : State} (h : s.mem.wf = true) : (writePa pa b s).mem.wf = true :=
  Memory.wf_store h _ _
theorem wf_writeHost (pa : Nat) (b : List Byte) {s : State} (h : s.hostMem.wf = true) : (writeHost pa b s).hostMem.wf = true :=
  Memory.wf_store h _ _
theorem wf_ite {c : Prop} [Decidable c] {s u : State} (hs : s.mem.wf = true) (hu : u.mem.wf = true) :
    (if c then s else u).mem.wf = true := by
  split
  · exact hs
  · exact hu
theorem wf_ownScratch (core asid a n : Nat) {s : State} (h : s.mem.wf = true) : (ownScratch core asid a n s).mem.wf = true := by
  simp only [ownScratch, modCore]
  cases (takeUnits asid a n (getCore s core).scrAsid).1
  · exact h
  · exact Memory.wf_clear h _ _
theorem wf_ownWeights (core asid : Nat) (d e : Nat × Nat) {s : State} (h : s.mem.wf = true) : (ownWeights core asid d e s).mem.wf = true := by
  simp only [ownWeights]
  split
  · dsimp only
    apply Memory.wf_clear
    refine wf_foldl _ ?_ _ ?_
    · intro m i hm
      exact Memory.wf_clear hm _ _
    · simpa using h
  · simpa using h
/-- R276: an atomic writes through `writePa`, a masked store through `storeMasked`. -/
theorem wf_performAtomic (op : AccOp) (pa : Nat) {s : State} (h : s.mem.wf = true) : (performAtomic op pa s).2.2.mem.wf = true := by
  cases op with
  | amo o w v => exact wf_writePa _ _ h
  | cas w e n => exact wf_writePa _ _ h
  | cas2 e n => exact wf_writePa _ _ h
  | read n => exact h
  | write d => exact Memory.wf_storeMasked h _ _
  | fe k w => exact h
  | bar k a b => exact h
  | shapepub a b => exact h
  | chain p => exact h

end Sys2Proof.Machine
end

