-- ==== Sys2Proof/Laws/PerInstr.lean ====
section
/-! SUPPORT. One lemma per instruction: it has an operation exactly if it has a word (R49, R51). -/

namespace Sys2Proof.Laws.Encoding
open Sys2Proof.Machine

/-- An instruction stands in bundles exactly if it has a word; the others are steps of the other agents. -/
def Statement (i : Instr) : Prop := (opOf i).isSome = (encode i).isSome

theorem sNop (x : BitVec 25) : Statement (.sNop x) := rfl
theorem add (a : SSpec) (b : SSpec) (w : Bool) : Statement (.add a b w) := rfl
theorem sub (a : SSpec) (b : SSpec) (w : Bool) : Statement (.sub a b w) := rfl
theorem mul (a : SSpec) (b : SSpec) (w : Bool) : Statement (.mul a b w) := rfl
theorem mulh (a : SSpec) (b : SSpec) (w : Bool) : Statement (.mulh a b w) := rfl
theorem mulhu (a : SSpec) (b : SSpec) (w : Bool) : Statement (.mulhu a b w) := rfl
theorem div (a : SSpec) (b : SSpec) (w : Bool) : Statement (.div a b w) := rfl
theorem divu (a : SSpec) (b : SSpec) (w : Bool) : Statement (.divu a b w) := rfl
theorem rem (a : SSpec) (b : SSpec) (w : Bool) : Statement (.rem a b w) := rfl
theorem remu (a : SSpec) (b : SSpec) (w : Bool) : Statement (.remu a b w) := rfl
theorem and (a : SSpec) (b : SSpec) (w : Bool) : Statement (.and a b w) := rfl
theorem or (a : SSpec) (b : SSpec) (w : Bool) : Statement (.or a b w) := rfl
theorem xor (a : SSpec) (b : SSpec) (w : Bool) : Statement (.xor a b w) := rfl
theorem andn (a : SSpec) (b : SSpec) (w : Bool) : Statement (.andn a b w) := rfl
theorem shl (a : SSpec) (b : SSpec) (w : Bool) : Statement (.shl a b w) := rfl
theorem shr (a : SSpec) (b : SSpec) (w : Bool) : Statement (.shr a b w) := rfl
theorem sar (a : SSpec) (b : SSpec) (w : Bool) : Statement (.sar a b w) := rfl
theorem rotl (a : SSpec) (b : SSpec) (w : Bool) : Statement (.rotl a b w) := rfl
theorem min (a : SSpec) (b : SSpec) (w : Bool) : Statement (.min a b w) := rfl
theorem max (a : SSpec) (b : SSpec) (w : Bool) : Statement (.max a b w) := rfl
theorem minu (a : SSpec) (b : SSpec) (w : Bool) : Statement (.minu a b w) := rfl
theorem maxu (a : SSpec) (b : SSpec) (w : Bool) : Statement (.maxu a b w) := rfl
theorem clz (a : SSpec) (w : Bool) : Statement (.clz a w) := rfl
theorem ctz (a : SSpec) (w : Bool) : Statement (.ctz a w) := rfl
theorem popc (a : SSpec) (w : Bool) : Statement (.popc a w) := rfl
theorem sext (a : SSpec) (width : ExtWidth) : Statement (.sext a width) := rfl
theorem zext (a : SSpec) (width : ExtWidth) : Statement (.zext a width) := rfl
theorem keep (d : Fin 16) (b : SSpec) : Statement (.keep d b) := rfl
theorem ceq (a : SSpec) (b : SSpec) (w : Bool) : Statement (.ceq a b w) := rfl
theorem cne (a : SSpec) (b : SSpec) (w : Bool) : Statement (.cne a b w) := rfl
theorem clt (a : SSpec) (b : SSpec) (w : Bool) : Statement (.clt a b w) := rfl
theorem cltu (a : SSpec) (b : SSpec) (w : Bool) : Statement (.cltu a b w) := rfl
theorem cle (a : SSpec) (b : SSpec) (w : Bool) : Statement (.cle a b w) := rfl
theorem cleu (a : SSpec) (b : SSpec) (w : Bool) : Statement (.cleu a b w) := rfl
theorem sel (a : SSpec) (b : SSpec) (c : SSpec) : Statement (.sel a b c) := rfl
theorem li (i : BitVec 20) : Statement (.li i) := rfl
theorem lih (a : SSpec) (i : BitVec 20) : Statement (.lih a i) := rfl
theorem addi (a : SSpec) (i : BitVec 20) : Statement (.addi a i) := rfl
theorem andi (a : SSpec) (i : BitVec 20) : Statement (.andi a i) := rfl
theorem ori (a : SSpec) (i : BitVec 20) : Statement (.ori a i) := rfl
theorem shli (a : SSpec) (s0 : BitVec 6) : Statement (.shli a s0) := rfl
theorem fadd (a : SSpec) (b : SSpec) (r : Rnd) (d : Bool) : Statement (.fadd a b r d) := rfl
theorem fsub (a : SSpec) (b : SSpec) (r : Rnd) (d : Bool) : Statement (.fsub a b r d) := rfl
theorem fmul (a : SSpec) (b : SSpec) (r : Rnd) (d : Bool) : Statement (.fmul a b r d) := rfl
theorem ffma (a : SSpec) (b : SSpec) (c : SSpec) (r : Rnd) (d : Bool) : Statement (.ffma a b c r d) := rfl
theorem fmin (a : SSpec) (b : SSpec) (d : Bool) : Statement (.fmin a b d) := rfl
theorem fmax (a : SSpec) (b : SSpec) (d : Bool) : Statement (.fmax a b d) := rfl
theorem fceq (a : SSpec) (b : SSpec) (r : Rnd) (d : Bool) : Statement (.fceq a b r d) := rfl
theorem fclt (a : SSpec) (b : SSpec) (r : Rnd) (d : Bool) : Statement (.fclt a b r d) := rfl
theorem fcle (a : SSpec) (b : SSpec) (r : Rnd) (d : Bool) : Statement (.fcle a b r d) := rfl
theorem fcvt (a : SSpec) (f : SType) (t : SType) (r : Rnd) : Statement (.fcvt a f t r) := rfl
theorem br (c : SSpec) (o : BitVec 20) : Statement (.br c o) := rfl
theorem brz (c : SSpec) (o : BitVec 20) : Statement (.brz c o) := rfl
theorem jmp (o : BitVec 20) : Statement (.jmp o) := rfl
theorem call (o : BitVec 20) : Statement (.call o) := rfl
theorem ret (a : SSpec) : Statement (.ret a) := rfl
theorem loop (k : Fin 16) (o : BitVec 20) : Statement (.loop k o) := rfl
theorem halt : Statement (.halt) := rfl
theorem epush (a : SSpec) (e : Eng) : Statement (.epush a e) := rfl
theorem tkwait (s0 : Side) (k : BitVec 4) : Statement (.tkwait s0 k) := rfl
theorem tksig (s0 : Side) (k : BitVec 4) : Statement (.tksig s0 k) := rfl
theorem estat (e : Eng) : Statement (.estat e) := rfl
theorem getid (s0 : BitVec 4) : Statement (.getid s0) := rfl
theorem join (a : SSpec) (new : Bool) (lock : Bool) : Statement (.join a new lock) := rfl
theorem leave (a : SSpec) : Statement (.leave a) := rfl
theorem vclk : Statement (.vclk) := rfl
theorem launch (a : SSpec) (b : SSpec) : Statement (.launch a b) := rfl
theorem launchW (a : SSpec) (b : SSpec) : Statement (.launchW a b) := rfl
theorem shapepub (a : SSpec) (b : SSpec) : Statement (.shapepub a b) := rfl
theorem shapeq (a : SSpec) : Statement (.shapeq a) := rfl
theorem shapew (a : SSpec) : Statement (.shapew a) := rfl
theorem rdsys (r : BitVec 10) : Statement (.rdsys r) := rfl
theorem wrsys (a : SSpec) (r : BitVec 10) : Statement (.wrsys a r) := rfl
theorem trap (code : BitVec 8) : Statement (.trap code) := rfl
theorem rft : Statement (.rft) := rfl
theorem yield : Statement (.yield) := rfl
theorem vNop (x : BitVec 25) : Statement (.vNop x) := rfl
theorem vadd (a : VSpec) (b : VSpec) (m : Fin 8) (t : VType) (r : Rnd) : Statement (.vadd a b m t r) := rfl
theorem vsub (a : VSpec) (b : VSpec) (m : Fin 8) (t : VType) (r : Rnd) : Statement (.vsub a b m t r) := rfl
theorem vmul (a : VSpec) (b : VSpec) (m : Fin 8) (t : VType) (r : Rnd) : Statement (.vmul a b m t r) := rfl
theorem vfma (a : VSpec) (b : VSpec) (c : VSpec) (m : Fin 8) (t : VType) (r : Rnd) : Statement (.vfma a b c m t r) := rfl
theorem vfms (a : VSpec) (b : VSpec) (c : VSpec) (m : Fin 8) (t : VType) (r : Rnd) : Statement (.vfms a b c m t r) := rfl
theorem vfnma (a : VSpec) (b : VSpec) (c : VSpec) (m : Fin 8) (t : VType) (r : Rnd) : Statement (.vfnma a b c m t r) := rfl
theorem vmin (a : VSpec) (b : VSpec) (m : Fin 8) (t : VType) : Statement (.vmin a b m t) := rfl
theorem vmax (a : VSpec) (b : VSpec) (m : Fin 8) (t : VType) : Statement (.vmax a b m t) := rfl
theorem vabs (a : VSpec) (m : Fin 8) (t : VType) : Statement (.vabs a m t) := rfl
theorem vneg (a : VSpec) (m : Fin 8) (t : VType) : Statement (.vneg a m t) := rfl
theorem viadd (a : VSpec) (b : VSpec) (m : Fin 8) (t : VType) : Statement (.viadd a b m t) := rfl
theorem visub (a : VSpec) (b : VSpec) (m : Fin 8) (t : VType) : Statement (.visub a b m t) := rfl
theorem vimul (a : VSpec) (b : VSpec) (m : Fin 8) (t : VType) : Statement (.vimul a b m t) := rfl
theorem vimulh (a : VSpec) (b : VSpec) (m : Fin 8) (t : VType) (u : Bool) : Statement (.vimulh a b m t u) := rfl
theorem viand (a : VSpec) (b : VSpec) (m : Fin 8) (t : VType) : Statement (.viand a b m t) := rfl
theorem vior (a : VSpec) (b : VSpec) (m : Fin 8) (t : VType) : Statement (.vior a b m t) := rfl
theorem vixor (a : VSpec) (b : VSpec) (m : Fin 8) (t : VType) : Statement (.vixor a b m t) := rfl
theorem vishl (a : VSpec) (b : VSpec) (m : Fin 8) (t : VType) : Statement (.vishl a b m t) := rfl
theorem vishr (a : VSpec) (b : VSpec) (m : Fin 8) (t : VType) : Statement (.vishr a b m t) := rfl
theorem visar (a : VSpec) (b : VSpec) (m : Fin 8) (t : VType) : Statement (.visar a b m t) := rfl
theorem vimin (a : VSpec) (b : VSpec) (m : Fin 8) (t : VType) (u : Bool) : Statement (.vimin a b m t u) := rfl
theorem vimax (a : VSpec) (b : VSpec) (m : Fin 8) (t : VType) (u : Bool) : Statement (.vimax a b m t u) := rfl
theorem vcmp (a : VSpec) (b : VSpec) (u : Bool) (k : VCond) (m : Fin 8) (t : VType) : Statement (.vcmp a b u k m t) := rfl
theorem vsel (a : VSpec) (b : VSpec) (m : Fin 8) (t : VType) : Statement (.vsel a b m t) := rfl
theorem mand (x : Fin 8) (y : Fin 8) (m : Fin 8) : Statement (.mand x y m) := rfl
theorem mor (x : Fin 8) (y : Fin 8) (m : Fin 8) : Statement (.mor x y m) := rfl
theorem mxor (x : Fin 8) (y : Fin 8) (m : Fin 8) : Statement (.mxor x y m) := rfl
theorem mnot (x : Fin 8) (m : Fin 8) : Statement (.mnot x m) := rfl
theorem mpop (x : Fin 8) (m : Fin 8) : Statement (.mpop x m) := rfl
theorem mfirst (x : Fin 8) (m : Fin 8) : Statement (.mfirst x m) := rfl
theorem vcvt (a : VSpec) (g : VType) (m : Fin 8) (s0 : VType) (r : Rnd) (p : BitVec 2) : Statement (.vcvt a g m s0 r p) := rfl
theorem vcvts (a : VSpec) (g : VType) (m : Fin 8) (s0 : VType) (p : BitVec 2) : Statement (.vcvts a g m s0 p) := rfl
theorem vqnt4 (a : VSpec) (b : VSpec) (q : BitVec 3) (m : Fin 8) (n : Bool) : Statement (.vqnt4 a b q m n) := rfl
theorem vdq4 (a : VSpec) (b : VSpec) (m : Fin 8) (r : Rnd) : Statement (.vdq4 a b m r) := rfl
theorem vrcp (a : VSpec) (m : Fin 8) (t : VType) (r : Rnd) : Statement (.vrcp a m t r) := rfl
theorem vrsq (a : VSpec) (m : Fin 8) (t : VType) (r : Rnd) : Statement (.vrsq a m t r) := rfl
theorem vsqrt (a : VSpec) (m : Fin 8) (t : VType) (r : Rnd) : Statement (.vsqrt a m t r) := rfl
theorem vexp2 (a : VSpec) (m : Fin 8) (t : VType) (r : Rnd) : Statement (.vexp2 a m t r) := rfl
theorem vlog2 (a : VSpec) (m : Fin 8) (t : VType) (r : Rnd) : Statement (.vlog2 a m t r) := rfl
theorem vperm (a : VSpec) (b : VSpec) (m : Fin 8) (t : VType) : Statement (.vperm a b m t) := rfl
theorem vrot (a : VSpec) (b : VSpec) (m : Fin 8) (t : VType) : Statement (.vrot a b m t) := rfl
theorem vbcast (a : VSpec) (m : Fin 8) (t : VType) : Statement (.vbcast a m t) := rfl
theorem vext (a : VSpec) (m : Fin 8) (t : VType) : Statement (.vext a m t) := rfl
theorem vins (a : VSpec) (b : VSpec) (m : Fin 8) (t : VType) : Statement (.vins a b m t) := rfl
theorem viota (a : VSpec) (m : Fin 8) : Statement (.viota a m) := rfl
theorem vredadd (a : VSpec) (m : Fin 8) (t : VType) (r : Rnd) : Statement (.vredadd a m t r) := rfl
theorem vredmax (a : VSpec) (m : Fin 8) (t : VType) (u : Bool) : Statement (.vredmax a m t u) := rfl
theorem vredmin (a : VSpec) (m : Fin 8) (t : VType) (u : Bool) : Statement (.vredmin a m t u) := rfl
theorem vscan (a : VSpec) (m : Fin 8) (t : VType) (r : Rnd) : Statement (.vscan a m t r) := rfl
theorem vkeep (d : Fin 8) (b : VSpec) (m : Fin 8) : Statement (.vkeep d b m) := rfl
theorem mkeep (d : Fin 8) (b : VSpec) (m : Fin 8) : Statement (.mkeep d b m) := rfl
theorem aNop (x : BitVec 25) : Statement (.aNop x) := rfl
theorem ld (b : SSpec) (sz : LoadSize) (i : BitVec 16) : Statement (.ld b sz i) := rfl
theorem st (b : SSpec) (sz : StoreSize) (d : SSpec) (i : BitVec 11) : Statement (.st b sz d i) := rfl
theorem vld (b : SSpec) (i : BitVec 16) : Statement (.vld b i) := rfl
theorem vst (b : SSpec) (d : VSpec) (i : BitVec 11) : Statement (.vst b d i) := rfl
theorem vlds (a : SSpec) (b : SSpec) : Statement (.vlds a b) := rfl
theorem vsts (a : SSpec) (b : SSpec) (c : VSpec) : Statement (.vsts a b c) := rfl
theorem vgath (a : SSpec) (b : VSpec) : Statement (.vgath a b) := rfl
theorem vscat (a : SSpec) (b : VSpec) (c : VSpec) : Statement (.vscat a b c) := rfl
theorem ldwf (b : SSpec) (i : BitVec 16) : Statement (.ldwf b i) := rfl
theorem ldwfe (b : SSpec) (i : BitVec 16) : Statement (.ldwfe b i) := rfl
theorem stwe (b : SSpec) (d : SSpec) (i : BitVec 11) : Statement (.stwe b d i) := rfl
theorem stf (b : SSpec) (d : SSpec) (i : BitVec 11) : Statement (.stf b d i) := rfl
theorem feset (b : SSpec) (i : BitVec 16) : Statement (.feset b i) := rfl
theorem feclr (b : SSpec) (i : BitVec 16) : Statement (.feclr b i) := rfl
theorem fetest (b : SSpec) (i : BitVec 16) : Statement (.fetest b i) := rfl
theorem gld (b : SSpec) (h : Fin 16) (sz : LoadSize) (i : BitVec 13) : Statement (.gld b h sz i) := rfl
theorem gst (b : SSpec) (h : Fin 16) (d : SSpec) (sz : StoreSize) (i : BitVec 9) : Statement (.gst b h d sz i) := rfl
theorem gvld (b : SSpec) (h : Fin 16) (i : BitVec 16) : Statement (.gvld b h i) := rfl
theorem gvst (b : SSpec) (h : Fin 16) (d : VSpec) (i : BitVec 11) : Statement (.gvst b h d i) := rfl
theorem gwait : Statement (.gwait) := rfl
theorem xlat (a : SSpec) (h : Fin 16) (p : BitVec 3) : Statement (.xlat a h p) := rfl
theorem hdrop (h : Fin 16) : Statement (.hdrop h) := rfl
theorem hchk (a : SSpec) (h : Fin 16) : Statement (.hchk a h) := rfl
theorem hinfo (h : Fin 16) : Statement (.hinfo h) := rfl
theorem amo (a : SSpec) (b : SSpec) (h : Fin 16) (o : AmoOp) (w : AmoWidth) : Statement (.amo a b h o w) := rfl
theorem cas (a : SSpec) (b : SSpec) (c : SSpec) (h : Fin 16) (w : AmoWidth) : Statement (.cas a b c h w) := rfl
theorem cas2 (a : SSpec) (b : SSpec) (h : Fin 16) : Statement (.cas2 a b h) := rfl
theorem chain (a : SSpec) : Statement (.chain a) := rfl
theorem chainq (a : SSpec) : Statement (.chainq a) := rfl
theorem barinit (a : SSpec) (b : SSpec) (g : Option (Fin 16)) : Statement (.barinit a b g) := rfl
theorem bararr (a : SSpec) (b : SSpec) (g : Option (Fin 16)) : Statement (.bararr a b g) := rfl
theorem bardrop (a : SSpec) (b : SSpec) (g : Option (Fin 16)) : Statement (.bardrop a b g) := rfl
theorem barjoin (a : SSpec) (b : SSpec) (g : Option (Fin 16)) : Statement (.barjoin a b g) := rfl
theorem barwait (a : SSpec) (b : SSpec) (g : Option (Fin 16)) : Statement (.barwait a b g) := rfl
theorem barbytes (a : SSpec) (b : SSpec) (g : Option (Fin 16)) : Statement (.barbytes a b g) := rfl
theorem barq (a : SSpec) (b : SSpec) (g : Option (Fin 16)) : Statement (.barq a b g) := rfl
theorem csend (b : VSpec) (h : BitVec 7) : Statement (.csend b h) := rfl
theorem cstat (h : BitVec 7) : Statement (.cstat h) := rfl
theorem fenceQ (q : BitVec 4) : Statement (.fenceQ q) := rfl
theorem fenceSys : Statement (.fenceSys) := rfl
theorem fenceHost : Statement (.fenceHost) := rfl
theorem harv (a : SSpec) : Statement (.harv a) := rfl
theorem xinval (a : SSpec) (z : PageSize) : Statement (.xinval a z) := rfl
theorem engineNop : Statement (.engineNop) := rfl
theorem lit (e : Eng) (v : BitVec 13) : Statement (.lit e v) := rfl
theorem litx (e : Eng) (v : BitVec 11) : Statement (.litx e v) := rfl
theorem commonNop : Statement (.commonNop) := rfl
theorem dup (e : Eng) : Statement (.dup e) := rfl
theorem drop (e : Eng) : Statement (.drop e) := rfl
theorem swap (e : Eng) : Statement (.swap e) := rfl
theorem tokenOnly (e : Eng) (tk : Tok) : Statement (.tokenOnly e tk) := rfl
theorem lda (tk : Tok) (t : MType) : Statement (.lda tk t) := rfl
theorem ldac (tk : Tok) (i : Bool) (t : MType) : Statement (.ldac tk i t) := rfl
theorem mma (tk : Tok) (t : MType) : Statement (.mma tk t) := rfl
theorem mmaz (tk : Tok) (t : MType) : Statement (.mmaz tk t) := rfl
theorem drain (tk : Tok) (fe : Bool) (f : DrainFmt) : Statement (.drain tk fe f) := rfl
theorem drainq (tk : Tok) (n : Bool) (s0 : BitVec 3) : Statement (.drainq tk n s0) := rfl
theorem nest (tk : Tok) : Statement (.nest tk) := rfl
theorem zacc (tk : Tok) : Statement (.zacc tk) := rfl
theorem msync (tk : Tok) (take : Bool) : Statement (.msync tk take) := rfl
theorem mstat (tk : Tok) (clr : Bool) : Statement (.mstat tk clr) := rfl
theorem g2s (c : Chan) (tk : Tok) (path : PathSel) (fe : Bool) : Statement (.g2s c tk path fe) := rfl
theorem s2g (c : Chan) (tk : Tok) (path : PathSel) (fe : Bool) : Statement (.s2g c tk path fe) := rfl
theorem s2s (c : Chan) (tk : Tok) (path : PathSel) (fe : Bool) : Statement (.s2s c tk path fe) := rfl
theorem s2w (c : Chan) (tk : Tok) : Statement (.s2w c tk) := rfl
theorem g2w (c : Chan) (tk : Tok) (path : PathSel) : Statement (.g2w c tk path) := rfl
theorem g2g (c : Chan) (tk : Tok) (path : PathSel) (fe : Bool) : Statement (.g2g c tk path fe) := rfl
theorem circ (c : Chan) (tk : Tok) (fe : Bool) : Statement (.circ c tk fe) := rfl
theorem cflag (c : Chan) (tk : Tok) (fe : Bool) : Statement (.cflag c tk fe) := rfl
theorem cnest (c : Chan) (tk : Tok) (path : PathSel) (fe : Bool) : Statement (.cnest c tk path fe) := rfl
theorem cbar (c : Chan) (tk : Tok) (g : Bool) : Statement (.cbar c tk g) := rfl
theorem channelCstat (c : Chan) (tk : Tok) : Statement (.channelCstat c tk) := rfl
theorem step (ctx : Nat) : Statement (.step ctx) := rfl
theorem rptRepetition (ctx : Nat) : Statement (.rptRepetition ctx) := rfl
theorem waitc (ctx : Nat) : Statement (.waitc ctx) := rfl
theorem resultPush (slot : Nat) : Statement (.resultPush slot) := rfl
theorem lateItemArrival (slot : Nat) : Statement (.lateItemArrival slot) := rfl
theorem bundleFetchFault (slot : Nat) : Statement (.bundleFetchFault slot) := rfl
theorem slotSwitch (core : Nat) : Statement (.slotSwitch core) := rfl
theorem quantumExpiry (core : Nat) : Statement (.quantumExpiry core) := rfl
theorem watchdogExpiry (slot : Nat) : Statement (.watchdogExpiry slot) := rfl
theorem trapEntry (slot : Nat) : Statement (.trapEntry slot) := rfl
theorem boundaryTrap (slot : Nat) : Statement (.boundaryTrap slot) := rfl
theorem feWaiterPerform (word : Nat) : Statement (.feWaiterPerform word) := rfl
theorem feTimeout (word : Nat) (waiter : Nat) : Statement (.feTimeout word waiter) := rfl
theorem vgathPass (slot : Nat) : Statement (.vgathPass slot) := rfl
theorem enginePortAccess (slot : Nat) (e : Eng) (k : Nat) : Statement (.enginePortAccess slot e k) := rfl
theorem pageWalkComplete (slot : Nat) (tag : Nat) : Statement (.pageWalkComplete slot tag) := rfl
theorem xinvalComplete (slot : Nat) : Statement (.xinvalComplete slot) := rfl
theorem harvComplete (slot : Nat) : Statement (.harvComplete slot) := rfl
theorem migrationEvaluation : Statement (.migrationEvaluation) := rfl
theorem pageMigrationComplete (k : Nat) : Statement (.pageMigrationComplete k) := rfl
theorem homeLineAccess (id : Served) : Statement (.homeLineAccess id) := rfl
theorem atomicPerform (id : Served) : Statement (.atomicPerform id) := rfl
theorem packetRoute (id : Nat) : Statement (.packetRoute id) := rfl
theorem mergedReplySplit (id : Nat) : Statement (.mergedReplySplit id) := rfl
theorem responseReceive (id : Nat) : Statement (.responseReceive id) := rfl
theorem bounceReinject (id : Nat) : Statement (.bounceReinject id) := rfl
theorem flitReceive (link : LinkId) (ok : Bool) : Statement (.flitReceive link ok) := rfl
theorem replayRequest (link : LinkId) : Statement (.replayRequest link) := rfl
theorem linkAck (link : LinkId) : Statement (.linkAck link) := rfl
theorem linkRetrainDone (link : LinkId) (ok : Bool) : Statement (.linkRetrainDone link ok) := rfl
theorem creditReturn (link : LinkId) (resp : Bool) : Statement (.creditReturn link resp) := rfl
theorem creditSyncSend (link : LinkId) (resp : Bool) : Statement (.creditSyncSend link resp) := rfl
theorem creditSyncReceive (link : LinkId) (resp : Bool) : Statement (.creditSyncReceive link resp) := rfl
theorem berWindow (lane : Nat) (w : BitVec 32) (uncorr : Nat) : Statement (.berWindow lane w uncorr) := rfl
theorem codeRequest (lane : Nat) (code : BitVec 2) : Statement (.codeRequest lane code) := rfl
theorem codeMarkerTimeout (lane : Nat) : Statement (.codeMarkerTimeout lane) := rfl
theorem codeChange (lane : Nat) : Statement (.codeChange lane) := rfl
theorem ordFrameReceive (f : FrameRef) : Statement (.ordFrameReceive f) := rfl
theorem bulkFrameReceive (f : FrameRef) : Statement (.bulkFrameReceive f) := rfl
theorem flagFrameApply (f : FrameRef) : Statement (.flagFrameApply f) := rfl
theorem frameAckReceive (id : Nat) : Statement (.frameAckReceive id) := rfl
theorem endToEndCredit (peer : Nat) (ord : Nat) (bulk : Nat) : Statement (.endToEndCredit peer ord bulk) := rfl
theorem frameResendTimeout (id : Nat) (path : Nat) : Statement (.frameResendTimeout id path) := rfl
theorem frameAgeDiscard (id : Nat) : Statement (.frameAgeDiscard id) := rfl
theorem laneFrameReplay (id : Nat) : Statement (.laneFrameReplay id) := rfl
theorem relayForward (id : Nat) : Statement (.relayForward id) := rfl
theorem keepaliveSend (peer : Nat) : Statement (.keepaliveSend peer) := rfl
theorem peerSilenceHold (peer : Nat) : Statement (.peerSilenceHold peer) := rfl
theorem peerLost (peer : Nat) : Statement (.peerLost peer) := rfl
theorem peerBack (peer : Nat) : Statement (.peerBack peer) := rfl
theorem relayRefill (peer : Nat) : Statement (.relayRefill peer) := rfl
theorem combLoss (engine : Nat) : Statement (.combLoss engine) := rfl
theorem combRelock (engine : Nat) : Statement (.combRelock engine) := rfl
theorem tuneLoss (lane : Nat) (rx : Bool) : Statement (.tuneLoss lane rx) := rfl
theorem laneDown (lane : Nat) (rx : Bool) : Statement (.laneDown lane rx) := rfl
theorem laneUp (lane : Nat) (rx : LaneEnd) : Statement (.laneUp lane rx) := rfl
theorem laneNotice (rec : PeerNotice) : Statement (.laneNotice rec) := rfl
theorem circuitSettled (ctx : Nat) (h : Nat) : Statement (.circuitSettled ctx h) := rfl
theorem circuitFailure (ctx : Nat) (h : Nat) (cause : Nat) : Statement (.circuitFailure ctx h cause) := rfl
theorem circuitRepairStart (ctx : Nat) (h : Nat) : Statement (.circuitRepairStart ctx h) := rfl
theorem circuitRepairSearchEnd (ctx : Nat) (h : Nat) (found : Bool) (src : Nat) : Statement (.circuitRepairSearchEnd ctx h found src) := rfl
theorem tearPerform (ctx : Nat) (h : Nat) : Statement (.tearPerform ctx h) := rfl
theorem tearComplete (ctx : Nat) (h : Nat) : Statement (.tearComplete ctx h) := rfl
theorem csendLanding (port : Nat) : Statement (.csendLanding port) := rfl
theorem autoCircuitIdleTear (src : Nat) : Statement (.autoCircuitIdleTear src) := rfl
theorem copyWordStart (slot : Nat) (c : Chan) : Statement (.copyWordStart slot c) := rfl
theorem matrixWordStart (slot : Nat) : Statement (.matrixWordStart slot) := rfl
theorem nestIteration (slot : Nat) : Statement (.nestIteration slot) := rfl
theorem engineWordFinish (slot : Nat) (e : Eng) : Statement (.engineWordFinish slot e) := rfl
theorem chainStep (id : Nat) (k : Nat) : Statement (.chainStep id k) := rfl
theorem chainReturn (id : Nat) (k : Nat) : Statement (.chainReturn id k) := rfl
theorem barrierAction (id : Nat) : Statement (.barrierAction id) := rfl
theorem barwaitTimeout (slot : Nat) : Statement (.barwaitTimeout slot) := rfl
theorem fenceLimitExpiry (slot : Nat) : Statement (.fenceLimitExpiry slot) := rfl
theorem launchRequest (slot : Nat) (entry : Nat) : Statement (.launchRequest slot entry) := rfl
theorem launchWaitTimeout (slot : Nat) : Statement (.launchWaitTimeout slot) := rfl
theorem cohortRequest (slot : Nat) (cohort : Nat) : Statement (.cohortRequest slot cohort) := rfl
theorem shapeResolution (slot : Nat) : Statement (.shapeResolution slot) := rfl
theorem shapewTimeout (slot : Nat) : Statement (.shapewTimeout slot) := rfl
theorem blockDispatch (entry : Nat) (place : Placement) : Statement (.blockDispatch entry place) := rfl
theorem gangDispatch (entry : Nat) (cohort : Nat) (ctx : Nat) (places : List Placement) : Statement (.gangDispatch entry cohort ctx places) := rfl
theorem gangReservation (entry : Nat) (places : List Placement) : Statement (.gangReservation entry places) := rfl
theorem nodeCompletion (entry : Nat) : Statement (.nodeCompletion entry) := rfl
theorem preemption (slot : Nat) : Statement (.preemption slot) := rfl
theorem contextRestore (k : Nat) (slots : List Nat) (cohort : Nat) (ctx : Nat) : Statement (.contextRestore k slots cohort ctx) := rfl
theorem asidregWrite (slot : Nat) (v : BitVec 64) : Statement (.asidregWrite slot v) := rfl
theorem srseedWrite (slot : Nat) (v : BitVec 64) : Statement (.srseedWrite slot v) := rfl
theorem frecpop (slot : Nat) : Statement (.frecpop slot) := rfl
theorem landwinWrite (slot : Nat) (v : BitVec 64) : Statement (.landwinWrite slot v) := rfl
theorem chdrop (slot : Nat) (v : BitVec 64) : Statement (.chdrop slot v) := rfl
theorem mnest1Drop (slot : Nat) : Statement (.mnest1Drop slot) := rfl
theorem wdlimitWrite (slot : Nat) (v : BitVec 64) : Statement (.wdlimitWrite slot v) := rfl
theorem lanePinWrite (lane : Nat) (pin : Bool) (pcode : BitVec 2) : Statement (.lanePinWrite lane pin pcode) := rfl
theorem laneDisWrite (lane : Nat) (dis : Bool) : Statement (.laneDisWrite lane dis) := rfl
theorem cmdringEnable (v : BitVec 64) : Statement (.cmdringEnable v) := rfl
theorem cmdringDisable (v : BitVec 64) : Statement (.cmdringDisable v) := rfl
theorem accessTableWrite (table : Nat) (index : Nat) (v : BitVec 128) : Statement (.accessTableWrite table index v) := rfl
theorem registerWrite (reg : RegRef) (v : BitVec 64) : Statement (.registerWrite reg v) := rfl
theorem hostAccess (x : HostReq) : Statement (.hostAccess x) := rfl
theorem hostAtomicop (x : HostAtomic) : Statement (.hostAtomicop x) := rfl
theorem commandConsume : Statement (.commandConsume) := rfl
theorem commandCompletion (k : Nat) : Statement (.commandCompletion k) := rfl
theorem nopCommand (k : Nat) : Statement (.nopCommand k) := rfl
theorem launchCommand (k : Nat) (entries : List Nat) : Statement (.launchCommand k entries) := rfl
theorem shootdown (k : Nat) : Statement (.shootdown k) := rfl
theorem harvest (k : Nat) : Statement (.harvest k) := rfl
theorem preempt (k : Nat) : Statement (.preempt k) := rfl
theorem attest (k : Nat) : Statement (.attest k) := rfl
theorem redirclr (k : Nat) : Statement (.redirclr k) := rfl
theorem settvec (k : Nat) : Statement (.settvec k) := rfl
theorem abort (k : Nat) : Statement (.abort k) := rfl
theorem subst (k : Nat) : Statement (.subst k) := rfl
theorem start (warm : Bool) (keepHbm : Bool) : Statement (.start warm keepHbm) := rfl
theorem evict (cmd : List (BitVec 8)) : Statement (.evict cmd) := rfl
theorem identityMemoryRead (offset : Nat) (count : Nat) : Statement (.identityMemoryRead offset count) := rfl
theorem evictionMoving : Statement (.evictionMoving) := rfl
theorem evictionRedirected : Statement (.evictionRedirected) := rfl
theorem evictionDrained : Statement (.evictionDrained) := rfl
theorem safeToUnlatch : Statement (.safeToUnlatch) := rfl
theorem evictionFailed (cause : Nat) : Statement (.evictionFailed cause) := rfl
theorem evictNotice (dev : Nat) (dest : Nat) : Statement (.evictNotice dev dest) := rfl
theorem moveDoneNotice (dev : Nat) (dest : Nat) (ranges : List MoveRange) : Statement (.moveDoneNotice dev dest ranges) := rfl
theorem powerOn : Statement (.powerOn) := rfl
theorem startComplete : Statement (.startComplete) := rfl
theorem powerLoss : Statement (.powerLoss) := rfl
theorem packageOutOfService : Statement (.packageOutOfService) := rfl
theorem lockstepMismatch : Statement (.lockstepMismatch) := rfl
theorem workerFault (worker : Nat) : Statement (.workerFault worker) := rfl
theorem thermalThrottle : Statement (.thermalThrottle) := rfl
theorem dieLimit : Statement (.dieLimit) := rfl
theorem illegalOp : Statement (.illegalOp) := rfl
theorem keepaliveReceive (peer : Nat) : Statement (.keepaliveReceive peer) := rfl
theorem laneFrameAck (lane : Nat) (upTo : Nat) : Statement (.laneFrameAck lane upTo) := rfl
theorem erardLinkDown : Statement (.erardLinkDown) := rfl
theorem throttleRelease : Statement (.throttleRelease) := rfl

end Sys2Proof.Laws.Encoding
end

