-- ==== Sys2Proof/Laws/Port.lean ====
section
/-! SUPPORT. What the engine ports of the banks change: the grants of a core, and, once they are complete, what an act
changes. -/

namespace Sys2Proof.Machine

theorem noteGrant_eq (core who l : Nat) (s : State) : ∃ cs, noteGrant core who l s = { s with cores := cs } := ⟨_, rfl⟩
theorem dropServed_eq (core who : Nat) (ls : List Nat) (s : State) : ∃ cs, dropServed core who ls s = { s with cores := cs } := ⟨_, rfl⟩
/-- Taking grants changes the cores only. -/
theorem takeGrants_eq (ws : List Want) (core who : Nat) (ls : List Nat) (s : State) :
    ∃ cs, takeGrants ws core who ls s = { s with cores := cs } := by
  unfold takeGrants
  induction ls generalizing s with
  | nil => exact ⟨s.cores, rfl⟩
  | cons l ls ih =>
    simp only [List.foldl_cons]
    split
    · exact ih s
    · obtain ⟨cs, h⟩ := ih (noteGrant core who l (modCore core (fun c => { c with served := c.served ++ [(who, l)] }) s))
      exact ⟨cs, by rw [h]; rfl⟩
/-- An act at a port is performed on the state with other grants, or only the grants change. -/
theorem throughPort_cases (core who : Nat) (ls : List Nat) (act : State → State) (s : State) :
    ∃ cs, throughPort core who ls act s = act { s with cores := cs } ∨ throughPort core who ls act s = { s with cores := cs } := by
  obtain ⟨cs, h⟩ := takeGrants_eq (wants s core) core who ls s
  unfold throughPort
  simp only [h]
  split
  · obtain ⟨ds, hd⟩ := dropServed_eq core who ls { s with cores := cs }
    exact ⟨ds, .inl (by rw [hd])⟩
  · exact ⟨cs, .inr rfl⟩
/-- Grants that lapse change the cores only. -/
theorem lapseGrants_eq (s : State) : ∃ cs, lapseGrants s = { s with cores := cs } := ⟨_, rfl⟩

end Sys2Proof.Machine
end

