-- ==== Sys2Proof/Tests/Slice0.lean ====
section
/-! SUPPORT. Tests of this model on small states: the decoder on words written out from the encoding tables of the
spec (R49 to R66, R69, R171, R231, R258 to R266), an ill-formed term for each check, and for each statement a state and
operands that meet its premises together, with a look at what the step leaves. -/

set_option Elab.async false

namespace Tests
open Sys2Proof Sys2Proof.Machine

/-! ## Words of every operation (R53 to R66, R69) -/

theorem test_decode_s_binary :
    (decode .s 0b0000001_00010_10010_00000_0000000001).toOption = some (.add (.q 2) (.n 2) true)
    ∧ (decode .s 0b0000010_00010_10010_00000_0000000000).toOption = some (.sub (.q 2) (.n 2) false)
    ∧ (decode .s 0b0000011_00010_10010_00000_0000000001).toOption = some (.mul (.q 2) (.n 2) true)
    ∧ (decode .s 0b0000100_00010_10010_00000_0000000000).toOption = some (.mulh (.q 2) (.n 2) false)
    ∧ (decode .s 0b0000101_00010_10010_00000_0000000001).toOption = some (.mulhu (.q 2) (.n 2) true)
    ∧ (decode .s 0b0000110_00010_10010_00000_0000000000).toOption = some (.div (.q 2) (.n 2) false)
    ∧ (decode .s 0b0000111_00010_10010_00000_0000000001).toOption = some (.divu (.q 2) (.n 2) true)
    ∧ (decode .s 0b0001000_00010_10010_00000_0000000000).toOption = some (.rem (.q 2) (.n 2) false)
    ∧ (decode .s 0b0001001_00010_10010_00000_0000000001).toOption = some (.remu (.q 2) (.n 2) true)
    ∧ (decode .s 0b0001010_00010_10010_00000_0000000000).toOption = some (.and (.q 2) (.n 2) false)
    ∧ (decode .s 0b0001011_00010_10010_00000_0000000001).toOption = some (.or (.q 2) (.n 2) true)
    ∧ (decode .s 0b0001100_00010_10010_00000_0000000000).toOption = some (.xor (.q 2) (.n 2) false)
    ∧ (decode .s 0b0001101_00010_10010_00000_0000000001).toOption = some (.andn (.q 2) (.n 2) true)
    ∧ (decode .s 0b0001110_00010_10010_00000_0000000000).toOption = some (.shl (.q 2) (.n 2) false)
    ∧ (decode .s 0b0001111_00010_10010_00000_0000000001).toOption = some (.shr (.q 2) (.n 2) true)
    ∧ (decode .s 0b0010000_00010_10010_00000_0000000000).toOption = some (.sar (.q 2) (.n 2) false)
    ∧ (decode .s 0b0010001_00010_10010_00000_0000000001).toOption = some (.rotl (.q 2) (.n 2) true)
    ∧ (decode .s 0b0010010_00010_10010_00000_0000000000).toOption = some (.min (.q 2) (.n 2) false)
    ∧ (decode .s 0b0010011_00010_10010_00000_0000000001).toOption = some (.max (.q 2) (.n 2) true)
    ∧ (decode .s 0b0010100_00010_10010_00000_0000000000).toOption = some (.minu (.q 2) (.n 2) false)
    ∧ (decode .s 0b0010101_00010_10010_00000_0000000001).toOption = some (.maxu (.q 2) (.n 2) true)
    ∧ (decode .s 0b0100000_00010_10010_00000_0000000000).toOption = some (.ceq (.q 2) (.n 2) false)
    ∧ (decode .s 0b0100001_00010_10010_00000_0000000001).toOption = some (.cne (.q 2) (.n 2) true)
    ∧ (decode .s 0b0100010_00010_10010_00000_0000000000).toOption = some (.clt (.q 2) (.n 2) false)
    ∧ (decode .s 0b0100011_00010_10010_00000_0000000001).toOption = some (.cltu (.q 2) (.n 2) true)
    ∧ (decode .s 0b0100100_00010_10010_00000_0000000000).toOption = some (.cle (.q 2) (.n 2) false)
    ∧ (decode .s 0b0100101_00010_10010_00000_0000000001).toOption = some (.cleu (.q 2) (.n 2) true) := by decide +kernel
theorem test_decode_s_unary :
    (decode .s 0b0010110_11111_00000_00000_0000000001).toOption = some (.clz (.n 15) true)
    ∧ (decode .s 0b0010111_00000_00000_00000_0000000000).toOption = some (.ctz (.q 0) false)
    ∧ (decode .s 0b0011000_00001_00000_00000_0000000001).toOption = some (.popc (.q 1) true)
    ∧ (decode .s 0b0011001_00001_00000_00000_0000000000).toOption = some (.sext (.q 1) .w8)
    ∧ (decode .s 0b0011010_00001_00000_00000_0000000010).toOption = some (.zext (.q 1) .w32)
    ∧ (decode .s 0b0011011_10001_00011_00000_0000000000).toOption = some (.keep 1 (.q 3))
    ∧ (decode .s 0b0100110_00001_00010_00011_0000000000).toOption = some (.sel (.q 1) (.q 2) (.q 3))
    ∧ (decode .s 0b0101000_00000_00000000000000000101).toOption = some (.li 5)
    ∧ (decode .s 0b0101001_00001_11111111111111111111).toOption = some (.lih (.q 1) (BitVec.allOnes 20))
    ∧ (decode .s 0b0101010_10000_00000000000000000001).toOption = some (.addi (.n 0) 1)
    ∧ (decode .s 0b0101011_00000_00000000000000000111).toOption = some (.andi (.q 0) 7)
    ∧ (decode .s 0b0101100_00000_00000000000000001000).toOption = some (.ori (.q 0) 8)
    ∧ (decode .s 0b0101101_00000_00000000000000111111).toOption = some (.shli (.q 0) 63)
    ∧ (decode .s 0b0000000_0000000000000000000000101).toOption = some (.sNop 5) := by decide +kernel
theorem test_decode_s_float :
    (decode .s 0b0110000_00000_00001_00000_0000001001).toOption = some (.fadd (.q 0) (.q 1) .rtz true)
    ∧ (decode .s 0b0110001_00000_00001_00000_0000001001).toOption = some (.fsub (.q 0) (.q 1) .rtz true)
    ∧ (decode .s 0b0110010_00000_00001_00000_0000001001).toOption = some (.fmul (.q 0) (.q 1) .rtz true)
    ∧ (decode .s 0b0110110_00000_00001_00000_0000001001).toOption = some (.fceq (.q 0) (.q 1) .rtz true)
    ∧ (decode .s 0b0110111_00000_00001_00000_0000001001).toOption = some (.fclt (.q 0) (.q 1) .rtz true)
    ∧ (decode .s 0b0111000_00000_00001_00000_0000001001).toOption = some (.fcle (.q 0) (.q 1) .rtz true)
    ∧ (decode .s 0b0110011_00000_00001_00010_0000000100).toOption = some (.ffma (.q 0) (.q 1) (.q 2) .rne false)
    ∧ (decode .s 0b0110100_00000_00001_00000_0000000001).toOption = some (.fmin (.q 0) (.q 1) true)
    ∧ (decode .s 0b0110101_00000_00001_00000_0000000000).toOption = some (.fmax (.q 0) (.q 1) false)
    ∧ (decode .s 0b0111001_00100_00000_00000_0010001000).toOption = some (.fcvt (.q 4) .f64 .f32 .rtz) := by decide +kernel
theorem test_decode_s_control :
    (decode .s 0b1000000_00011_11111111111111111111).toOption = some (.br (.q 3) (BitVec.allOnes 20))
    ∧ (decode .s 0b1000001_10000_00000000000000000010).toOption = some (.brz (.n 0) 2)
    ∧ (decode .s 0b1000010_00000_00000000000000000011).toOption = some (.jmp 3)
    ∧ (decode .s 0b1000011_00000_00000000000000000100).toOption = some (.call 4)
    ∧ (decode .s 0b1000100_00001_00000_00000_0000000000).toOption = some (.ret (.q 1))
    ∧ (decode .s 0b1000101_10100_11111111111111111110).toOption = some (.loop 4 0xFFFFE)
    ∧ (decode .s 0b1000110_00000_00000_00000_0000000000).toOption = some (.halt) := by decide +kernel
theorem test_decode_s_system :
    (decode .s 0b1001000_00010_00000_00000_0100000000).toOption = some (.epush (.q 2) .c0)
    ∧ (decode .s 0b1001001_00000_00000_00000_0100000011).toOption = some (.tkwait .c0 3)
    ∧ (decode .s 0b1001010_00000_00000_00000_0000001111).toOption = some (.tksig .c1 15)
    ∧ (decode .s 0b1001011_00000_00000_00000_1000000000).toOption = some (.estat .c1)
    ∧ (decode .s 0b1001100_00000_00000_00000_0000001011).toOption = some (.getid 11)
    ∧ (decode .s 0b1001101_00001_00000_00000_0000000010).toOption = some (.join (.q 1) true false)
    ∧ (decode .s 0b1001110_00001_00000_00000_0000000000).toOption = some (.leave (.q 1))
    ∧ (decode .s 0b1001111_00000_00000_00000_0000000000).toOption = some (.vclk)
    ∧ (decode .s 0b1010000_00000_00001_00000_0000000000).toOption = some (.launch (.q 0) (.q 1))
    ∧ (decode .s 0b1010000_00000_00001_00000_0000000001).toOption = some (.launchW (.q 0) (.q 1))
    ∧ (decode .s 0b1010001_00000_00001_00000_0000000000).toOption = some (.shapepub (.q 0) (.q 1))
    ∧ (decode .s 0b1010010_00001_00000_00000_0000000000).toOption = some (.shapeq (.q 1))
    ∧ (decode .s 0b1010011_00001_00000_00000_0000000000).toOption = some (.shapew (.q 1))
    ∧ (decode .s 0b1011000_00000_00000_00000_0000010100).toOption = some (.rdsys 0x14)
    ∧ (decode .s 0b1011001_00001_00000_00000_0000010000).toOption = some (.wrsys (.q 1) 0x10)
    ∧ (decode .s 0b1011010_00000_00000_00000_0010101011).toOption = some (.trap 0xAB)
    ∧ (decode .s 0b1011011_00000_00000_00000_0000000000).toOption = some (.rft)
    ∧ (decode .s 0b1011100_00000_00000_00000_0000000000).toOption = some (.yield) := by decide +kernel
theorem test_decode_v_float :
    (decode .v 0b0000000_0000000000000000000001001).toOption = some (.vNop 9)
    ∧ (decode .v 0b0000001_00000_10001_00000_011_010_01_00).toOption = some (.vadd (.y 0) (.v 1) 3 .bf16x2 .rne)
    ∧ (decode .v 0b0000010_00000_10001_00000_011_010_01_00).toOption = some (.vsub (.y 0) (.v 1) 3 .bf16x2 .rne)
    ∧ (decode .v 0b0000011_00000_10001_00000_011_010_01_00).toOption = some (.vmul (.y 0) (.v 1) 3 .bf16x2 .rne)
    ∧ (decode .v 0b0000100_00000_10001_11111_001_011_10_00).toOption = some (.vfma (.y 0) (.v 1) (.bcast 7) 1 .f16x2 .rtz)
    ∧ (decode .v 0b0000101_00000_10001_11111_001_011_10_00).toOption = some (.vfms (.y 0) (.v 1) (.bcast 7) 1 .f16x2 .rtz)
    ∧ (decode .v 0b0000110_00000_10001_11111_001_011_10_00).toOption = some (.vfnma (.y 0) (.v 1) (.bcast 7) 1 .f16x2 .rtz)
    ∧ (decode .v 0b0000111_00000_00001_00000_000_000_00_00).toOption = some (.vmin (.y 0) (.y 1) 0 .f32)
    ∧ (decode .v 0b0001000_00000_00001_00000_000_000_00_00).toOption = some (.vmax (.y 0) (.y 1) 0 .f32)
    ∧ (decode .v 0b0001001_00001_00000_00000_000_000_00_00).toOption = some (.vabs (.y 1) 0 .f32)
    ∧ (decode .v 0b0001010_00001_00000_00000_000_000_00_00).toOption = some (.vneg (.y 1) 0 .f32)
    ∧ (decode .v 0b0110000_00001_00000_00000_010_000_00_00).toOption = some (.vrcp (.y 1) 2 .f32 .fpc)
    ∧ (decode .v 0b0110001_00001_00000_00000_010_000_00_00).toOption = some (.vrsq (.y 1) 2 .f32 .fpc)
    ∧ (decode .v 0b0110010_00001_00000_00000_010_000_00_00).toOption = some (.vsqrt (.y 1) 2 .f32 .fpc)
    ∧ (decode .v 0b0110011_00001_00000_00000_010_000_00_00).toOption = some (.vexp2 (.y 1) 2 .f32 .fpc)
    ∧ (decode .v 0b0110100_00001_00000_00000_010_000_00_00).toOption = some (.vlog2 (.y 1) 2 .f32 .fpc) := by decide +kernel
theorem test_decode_v_integer :
    (decode .v 0b0010000_00000_00001_00000_000_100_00_00).toOption = some (.viadd (.y 0) (.y 1) 0 .i16x2)
    ∧ (decode .v 0b0010001_00000_00001_00000_000_100_00_00).toOption = some (.visub (.y 0) (.y 1) 0 .i16x2)
    ∧ (decode .v 0b0010010_00000_00001_00000_000_100_00_00).toOption = some (.vimul (.y 0) (.y 1) 0 .i16x2)
    ∧ (decode .v 0b0010100_00000_00001_00000_000_100_00_00).toOption = some (.viand (.y 0) (.y 1) 0 .i16x2)
    ∧ (decode .v 0b0010101_00000_00001_00000_000_100_00_00).toOption = some (.vior (.y 0) (.y 1) 0 .i16x2)
    ∧ (decode .v 0b0010110_00000_00001_00000_000_100_00_00).toOption = some (.vixor (.y 0) (.y 1) 0 .i16x2)
    ∧ (decode .v 0b0010111_00000_00001_00000_000_100_00_00).toOption = some (.vishl (.y 0) (.y 1) 0 .i16x2)
    ∧ (decode .v 0b0011000_00000_00001_00000_000_100_00_00).toOption = some (.vishr (.y 0) (.y 1) 0 .i16x2)
    ∧ (decode .v 0b0011001_00000_00001_00000_000_100_00_00).toOption = some (.visar (.y 0) (.y 1) 0 .i16x2)
    ∧ (decode .v 0b0010011_00000_00001_00000_000_001_00_01).toOption = some (.vimulh (.y 0) (.y 1) 0 .i32 true)
    ∧ (decode .v 0b0011010_00000_00001_00000_000_001_00_01).toOption = some (.vimin (.y 0) (.y 1) 0 .i32 true)
    ∧ (decode .v 0b0011011_00000_00001_00000_000_001_00_01).toOption = some (.vimax (.y 0) (.y 1) 0 .i32 true)
    ∧ (decode .v 0b0100000_00000_11000_01010_111_001_00_00).toOption = some (.vcmp (.y 0) (.bcast 0) true .lt 7 .i32)
    ∧ (decode .v 0b0100001_00000_00001_00000_001_000_00_00).toOption = some (.vsel (.y 0) (.y 1) 1 .f32)
    ∧ (decode .v 0b0100010_00001_00111_00000_010_000_00_00).toOption = some (.mand 1 7 2)
    ∧ (decode .v 0b0100011_00001_00111_00000_010_000_00_00).toOption = some (.mor 1 7 2)
    ∧ (decode .v 0b0100100_00001_00111_00000_010_000_00_00).toOption = some (.mxor 1 7 2)
    ∧ (decode .v 0b0100101_00101_00000_00000_010_000_00_00).toOption = some (.mnot 5 2)
    ∧ (decode .v 0b0100110_00101_00000_00000_010_000_00_00).toOption = some (.mpop 5 2)
    ∧ (decode .v 0b0100111_00101_00000_00000_010_000_00_00).toOption = some (.mfirst 5 2) := by decide +kernel
theorem test_decode_v_move :
    (decode .v 0b0101000_00001_00000_00101_000_000_01_11).toOption = some (.vcvt (.y 1) .e4m3x4 0 .f32 .rne 3)
    ∧ (decode .v 0b0101001_00001_00000_00010_000_000_00_01).toOption = some (.vcvts (.y 1) .bf16x2 0 .f32 1)
    ∧ (decode .v 0b0101010_00001_00010_00100_000_000_00_01).toOption = some (.vqnt4 (.y 1) (.y 2) 4 0 true)
    ∧ (decode .v 0b0101011_00001_00010_00000_000_000_10_00).toOption = some (.vdq4 (.y 1) (.y 2) 0 .rtz)
    ∧ (decode .v 0b0111000_00000_00001_00000_000_001_00_00).toOption = some (.vperm (.y 0) (.y 1) 0 .i32)
    ∧ (decode .v 0b0111001_00000_00001_00000_000_001_00_00).toOption = some (.vrot (.y 0) (.y 1) 0 .i32)
    ∧ (decode .v 0b0111100_00000_00001_00000_000_001_00_00).toOption = some (.vins (.y 0) (.y 1) 0 .i32)
    ∧ (decode .v 0b0111010_00100_00000_00000_001_000_00_00).toOption = some (.vbcast (.y 4) 1 .f32)
    ∧ (decode .v 0b0111011_00100_00000_00000_001_000_00_00).toOption = some (.vext (.y 4) 1 .f32)
    ∧ (decode .v 0b0111101_00000_00000_00000_001_001_00_00).toOption = some (.viota (.y 0) 1)
    ∧ (decode .v 0b1000000_00000_00000_00000_000_000_10_00).toOption = some (.vredadd (.y 0) 0 .f32 .rtz)
    ∧ (decode .v 0b1000011_00000_00000_00000_000_000_10_00).toOption = some (.vscan (.y 0) 0 .f32 .rtz)
    ∧ (decode .v 0b1000001_00000_00000_00000_000_001_00_01).toOption = some (.vredmax (.y 0) 0 .i32 true)
    ∧ (decode .v 0b1000010_00000_00000_00000_000_001_00_01).toOption = some (.vredmin (.y 0) 0 .i32 true)
    ∧ (decode .v 0b1001000_10010_00011_00000_101_000_00_00).toOption = some (.vkeep 2 (.y 3) 5)
    ∧ (decode .v 0b1001001_00010_00011_00000_000_000_00_00).toOption = some (.mkeep 2 (.y 3) 0) := by decide +kernel
theorem test_decode_a_local :
    (decode .a 0b0000000_0000000000000000000000001).toOption = some (.aNop 1)
    ∧ (decode .a 0b0000001_10000_0110_1111111111111111).toOption = some (.ld (.n 0) .sw (BitVec.allOnes 16))
    ∧ (decode .a 0b0000010_00000_0011_00001_11111111111).toOption = some (.st (.q 0) .d (.q 1) (BitVec.allOnes 11))
    ∧ (decode .a 0b0000011_00000_0000_0000000000000010).toOption = some (.vld (.q 0) 2)
    ∧ (decode .a 0b0000100_00000_0000_10001_00000000011).toOption = some (.vst (.q 0) (.v 1) 3)
    ∧ (decode .a 0b0000101_00000_00001_00000_0000000000).toOption = some (.vlds (.q 0) (.q 1))
    ∧ (decode .a 0b0000110_00000_00001_00010_0000000000).toOption = some (.vsts (.q 0) (.q 1) (.y 2))
    ∧ (decode .a 0b0000111_00000_10001_00000_0000000000).toOption = some (.vgath (.q 0) (.v 1))
    ∧ (decode .a 0b0001000_00000_10001_00010_0000000000).toOption = some (.vscat (.q 0) (.v 1) (.y 2))
    ∧ (decode .a 0b0001001_00011_0000_0000000000000100).toOption = some (.ldwf (.q 3) 4)
    ∧ (decode .a 0b0001010_00011_0000_0000000000000100).toOption = some (.ldwfe (.q 3) 4)
    ∧ (decode .a 0b0001101_00011_0000_0000000000000100).toOption = some (.feset (.q 3) 4)
    ∧ (decode .a 0b0001110_00011_0000_0000000000000100).toOption = some (.feclr (.q 3) 4)
    ∧ (decode .a 0b0001111_00011_0000_0000000000000100).toOption = some (.fetest (.q 3) 4)
    ∧ (decode .a 0b0001011_00011_0000_10011_00000000101).toOption = some (.stwe (.q 3) (.n 3) 5)
    ∧ (decode .a 0b0001100_00011_0000_10011_00000000101).toOption = some (.stf (.q 3) (.n 3) 5) := by decide +kernel
theorem test_decode_a_global :
    (decode .a 0b0010000_00001_1001_011_1111111111111).toOption = some (.gld (.q 1) 9 .d (BitVec.allOnes 13))
    ∧ (decode .a 0b0010001_00001_1001_00010_01_000000011).toOption = some (.gst (.q 1) 9 (.q 2) .h 3)
    ∧ (decode .a 0b0010010_00001_1111_0000000000000001).toOption = some (.gvld (.q 1) 15 1)
    ∧ (decode .a 0b0010011_00001_1111_00010_00000000001).toOption = some (.gvst (.q 1) 15 (.y 2) 1)
    ∧ (decode .a 0b0010100_00000_00000_00000_0000000000).toOption = some (.gwait)
    ∧ (decode .a 0b0011000_00001_00000_00000_0111000101).toOption = some (.xlat (.q 1) 7 5)
    ∧ (decode .a 0b0011001_00000_00000_00000_0111000000).toOption = some (.hdrop 7)
    ∧ (decode .a 0b0011010_00001_00000_00000_0111000000).toOption = some (.hchk (.q 1) 7)
    ∧ (decode .a 0b0011011_00000_00000_00000_0111000000).toOption = some (.hinfo 7)
    ∧ (decode .a 0b0100000_00000_00001_00000_0101100110).toOption = some (.amo (.q 0) (.q 1) 5 .fadd .w4)
    ∧ (decode .a 0b0100001_00000_00001_00010_0101000011).toOption = some (.cas (.q 0) (.q 1) (.q 2) 5 .w8)
    ∧ (decode .a 0b0100010_00000_00001_00000_0101000000).toOption = some (.cas2 (.q 0) (.q 1) 5)
    ∧ (decode .a 0b0100011_00001_00000_00000_0000000000).toOption = some (.chain (.q 1))
    ∧ (decode .a 0b0100100_00001_00000_00000_0000000000).toOption = some (.chainq (.q 1))
    ∧ (decode .a 0b0101000_00000_00001_00000_1001100000).toOption = some (.barinit (.q 0) (.q 1) (some 3))
    ∧ (decode .a 0b0101001_00000_00001_00000_1001100000).toOption = some (.bararr (.q 0) (.q 1) (some 3))
    ∧ (decode .a 0b0101010_00000_00001_00000_1001100000).toOption = some (.bardrop (.q 0) (.q 1) (some 3))
    ∧ (decode .a 0b0101011_00000_00001_00000_1001100000).toOption = some (.barjoin (.q 0) (.q 1) (some 3))
    ∧ (decode .a 0b0101100_00000_00001_00000_0000000000).toOption = some (.barwait (.q 0) (.q 1) none)
    ∧ (decode .a 0b0101101_00000_00001_00000_0000000000).toOption = some (.barbytes (.q 0) (.q 1) none)
    ∧ (decode .a 0b0101110_00000_00001_00000_0000000000).toOption = some (.barq (.q 0) (.q 1) none)
    ∧ (decode .a 0b0110000_00000_00011_00000_0001111111).toOption = some (.csend (.y 3) 127)
    ∧ (decode .a 0b0110001_00000_00000_00000_0000000001).toOption = some (.cstat 1)
    ∧ (decode .a 0b0110010_00000_00000_00000_0000001001).toOption = some (.fenceQ 9)
    ∧ (decode .a 0b0110011_00000_00000_00000_0000000000).toOption = some (.fenceSys)
    ∧ (decode .a 0b0110100_00000_00000_00000_0000000000).toOption = some (.fenceHost)
    ∧ (decode .a 0b0111000_00001_00000_00000_0000000000).toOption = some (.harv (.q 1))
    ∧ (decode .a 0b0111001_00001_00000_00000_0000000010).toOption = some (.xinval (.q 1) .g1) := by decide +kernel
theorem test_decode_e_stack :
    (decode .e 0b00_0_00000_0000_0000).toOption = some (.engineNop)
    ∧ (decode .e 0b01_1_1111111111111).toOption = some (.lit .c0 (BitVec.allOnes 13))
    ∧ (decode .e 0b11_1_1000000000101).toOption = some (.litx .c1 5)
    ∧ (decode .e 0b11_0_00000_0000_0000).toOption = some (.commonNop)
    ∧ (decode .e 0b11_0_00001_0000_0010).toOption = some (.dup .c1)
    ∧ (decode .e 0b11_0_00010_0000_0000).toOption = some (.drop .m)
    ∧ (decode .e 0b11_0_00011_0000_0001).toOption = some (.swap .c0)
    ∧ (decode .e 0b10_0_00000_1010_0000).toOption = some (.tokenOnly .c1 ⟨true, false, true, false⟩) := by decide +kernel
theorem test_decode_e_work :
    (decode .e 0b00_0_00001_0101_0001).toOption = some (.lda ⟨false, true, false, true⟩ .f16)
    ∧ (decode .e 0b00_0_00010_0101_1100).toOption = some (.ldac ⟨false, true, false, true⟩ true .i8)
    ∧ (decode .e 0b00_0_00011_0101_0101).toOption = some (.mma ⟨false, true, false, true⟩ .sb4)
    ∧ (decode .e 0b00_0_00100_0101_0000).toOption = some (.mmaz ⟨false, true, false, true⟩ .bf16)
    ∧ (decode .e 0b00_0_00101_0101_1001).toOption = some (.drain ⟨false, true, false, true⟩ true .bf16)
    ∧ (decode .e 0b00_0_00110_0101_1010).toOption = some (.drainq ⟨false, true, false, true⟩ true 2)
    ∧ (decode .e 0b00_0_00111_0101_0000).toOption = some (.nest ⟨false, true, false, true⟩)
    ∧ (decode .e 0b00_0_01000_0101_0000).toOption = some (.zacc ⟨false, true, false, true⟩)
    ∧ (decode .e 0b00_0_01001_0101_0001).toOption = some (.msync ⟨false, true, false, true⟩ true)
    ∧ (decode .e 0b00_0_01010_0101_0001).toOption = some (.mstat ⟨false, true, false, true⟩ true)
    ∧ (decode .e 0b01_0_00001_0101_0001).toOption = some (.g2s .c0 ⟨false, true, false, true⟩ .basic true)
    ∧ (decode .e 0b10_0_00010_0101_0010).toOption = some (.s2g .c1 ⟨false, true, false, true⟩ .net false)
    ∧ (decode .e 0b01_0_00011_0101_0001).toOption = some (.s2s .c0 ⟨false, true, false, true⟩ .basic true)
    ∧ (decode .e 0b10_0_00100_0101_0000).toOption = some (.s2w .c1 ⟨false, true, false, true⟩)
    ∧ (decode .e 0b01_0_00101_0101_1000).toOption = some (.g2w .c0 ⟨false, true, false, true⟩ .direct)
    ∧ (decode .e 0b01_0_00110_0101_1110).toOption = some (.g2g .c0 ⟨false, true, false, true⟩ .relay3 false)
    ∧ (decode .e 0b01_0_00111_0101_0001).toOption = some (.circ .c0 ⟨false, true, false, true⟩ true)
    ∧ (decode .e 0b10_0_01000_0101_0001).toOption = some (.cflag .c1 ⟨false, true, false, true⟩ true)
    ∧ (decode .e 0b01_0_01001_0101_1010).toOption = some (.cnest .c0 ⟨false, true, false, true⟩ .relay1 false)
    ∧ (decode .e 0b01_0_01010_0101_0001).toOption = some (.cbar .c0 ⟨false, true, false, true⟩ true)
    ∧ (decode .e 0b10_0_01011_0101_0000).toOption = some (.channelCstat .c1 ⟨false, true, false, true⟩) := by decide +kernel

/-! ## Ill-formed terms, one for each check of WellFormed -/

theorem test_ill_formed_rounding_and_types :
    [Instr.fadd (.q 0) (.q 1) .reserved true, .fcvt (.q 0) .i32 .u64 .rne, .vadd (.y 0) (.y 1) 0 .i32 .fpc, .vadd (.y 0) (.y 1) 0 .f32 .reserved,
      .vmin (.y 0) (.y 1) 0 .e4m3x4, .viadd (.y 0) (.y 1) 0 .i8x4, .vcmp (.y 0) (.y 1) true .lt 0 .f32, .vcmp (.y 0) (.y 1) false .un 0 .i32,
      .vsel (.y 0) (.y 1) 0 .bf16x2, .vcvt (.y 0) .i32 0 .i16x2 .rne 0, .vcvt (.y 0) .f32 0 .f32 .fpc 1, .vcvts (.y 0) .f32 0 .f32 0].all
      (fun i => !i.wellFormed) = true := by decide +kernel
theorem test_ill_formed_values :
    [Instr.tkwait .c0 0, .tksig .c1 0, .getid 12, .rdsys 0x046, .wrsys (.q 0) 0x003, .vqnt4 (.y 0) (.y 1) 5 0 false, .vredadd (.y 0) 0 .i32 .rtz,
      .vredmax (.y 0) 0 .f32 true, .vscan (.y 0) 0 .i8x4 .fpc, .xlat (.q 1) 0 0, .fenceQ 0, .tokenOnly .m ⟨false, false, false, false⟩,
      .ldac ⟨false, false, false, false⟩ false .sb4, .drainq ⟨false, false, false, false⟩ false 5].all (fun i => !i.wellFormed) = true := by decide +kernel
/-- R51, R53 to R56: reserved fields and unassigned codes are refused, each by its name. -/
theorem test_refused_words :
    [(WordSlot.s, 0b0000001_00000_00000_00001_0000000000), (.s, 0b0101000_00001_00000000000000000000), (.s, 0b0011011_00001_00000_00000_0000000000),
      (.a, 0b0000001_00000_1000_0000000000000000), (.a, 0b0101001_00000_00000_00000_0001100000), (.e, 0b11_1_1100000000000)].all
      (fun x => match decode x.1 x.2 with | .error (.reservedField _) => true | .error (.unassigned _) => true | _ => false) = true := by decide +kernel
theorem test_unassigned_words :
    [(WordSlot.s, 0b0011100_00000_00000_00000_0000000000), (.v, 0b0001011_00000_00000_00000_000_000_00_00),
      (.a, 0b1000000_00000_00000_00000_0000000000), (.e, 0b00_0_01011_0000_0000)].all
      (fun x => match decode x.1 x.2 with | .error (.unassigned _) => true | _ => false) = true := by decide +kernel

/-! ## A block in slot 0, its bundle presented -/

def s0 : State := State.reset.withFetchWord 32 0
def t0 : Thread := blockThread State.reset 0 fetchNode 0 ⟨0, 0, 0, 0⟩ false
/-- The same slot with another thread. -/
def withThread (t : Thread) : State := { s0 with threads := [(0, t)] }
/-- What an outcome leaves; a stop leaves the reset state. -/
def after (o : Host.Outcome State Fault Refusal) : State :=
  match o with
  | .next s => s
  | .fault _ => State.reset
  | .refused _ => State.reset
def threadAfter (o : Host.Outcome State Fault Refusal) : Thread := (getThread (after o) 0).getD t0
/-- The trap that a thread has taken into its handler. -/
def codeAfter (o : Host.Outcome State Fault Refusal) : Nat := bits (threadAfter o).sys.trapinfo.toNat 56 8
def armed : Thread := { t0 with sys := { t0.sys with trapvec := 0x801 } }
def at0 (t : Thread) : Prop := AtTurn (withThread t) t
/-- A store of slot 0 in its buffer. -/
def heldStore : Access := { owner := .thread 0, master := 0, pa := 0x20000, op := .write [some 1], place := .waiting, device := 0, src := (0, 0), dst := (2, 1), buffered := true }

theorem turn0 : AtTurn s0 t0 := ⟨by decide +kernel, by decide +kernel⟩
theorem witness_NopsAdvance : AtTurn s0 t0 ∧ storesPerformed s0 s0.turn = true ∧ (after (exec .gwait s0)).cc = 0 ∧ (threadAfter (exec .gwait s0)).clock = 1
    ∧ AtTurn { s0 with accesses := [(2, heldStore)] } t0 ∧ storesPerformed { s0 with accesses := [(2, heldStore)] } 0 = false := by
  unfold AtTurn
  decide +kernel
theorem witness_IntegerArithmetic : AtTurn s0 t0 ∧ poisonS t0 [.q 15, .n 15] = [] := ⟨turn0, by decide +kernel⟩
theorem witness_IntegerLogicAndShifts : AtTurn s0 t0 ∧ poisonS t0 [.q 0, .n 0] = [] := ⟨turn0, by decide +kernel⟩
theorem witness_ComparesAndSelect : AtTurn s0 t0 ∧ poisonS t0 [.q 0, .q 1] = [] ∧ poisonS t0 [.q 0, .q 1, .n 15] = [] := ⟨turn0, by decide +kernel⟩
theorem witness_Extensions : AtTurn s0 t0 ∧ poisonS t0 [.q 0] = [] := ⟨turn0, by decide +kernel⟩
theorem witness_ExtremesCountsAndImmediates : AtTurn s0 t0 ∧ poisonS t0 [.q 0, .q 1] = [] ∧ poisonS t0 [.q 0] = [] := ⟨turn0, by decide +kernel⟩
theorem witness_KeepsWriteNamed : AtTurn s0 t0 ∧ poisonS t0 [.q 0] = [] ∧ poisonV t0 [.bcast 0] = [] ∧ (7 : Fin 8) ≠ 0 := ⟨turn0, by decide +kernel⟩
theorem witness_ScalarFloat : AtTurn s0 t0 ∧ poisonS t0 [.q 0, .q 1, .q 2] = [] := ⟨turn0, by decide +kernel⟩
def tRet : Thread := { t0 with regs := { t0.regs with q := [.val 0x20, .val 0x21] } }
theorem witness_ControlTransfers : AtTurn (withThread tRet) tRet ∧ poisonS tRet [.q 0] = [] ∧ (readS tRet (.q 0)).toNat % 16 = 0
    ∧ poisonS tRet [.q 1] = [] ∧ (readS tRet (.q 1)).toNat % 16 ≠ 0 ∧ feDone tRet = false := ⟨⟨by decide +kernel, by decide +kernel⟩, by decide +kernel⟩
theorem witness_halt : AtTurn s0 t0 ∧ keysRise s0.threads = true ∧ t0.spec = false ∧ t0.gather = none ∧ bufferUsed s0 s0.turn = 0 ∧ pendingFaults t0 allEngines = []
    ∧ bufferUsed { s0 with accesses := [(2, heldStore)] } 0 = 1 ∧ ((look (after (exec .halt { s0 with nodes := [(0, fetchNode)] })).nodes 0).map Node.done) = some 1
    ∧ [Eng.m, .c0, .c1].all (fun e => engineIdle (getEngine t0 e)) = true ∧ (getThread (after (exec .halt s0)) 0).isNone = true := ⟨turn0, by decide +kernel⟩
def stackOf (l : List W64) : Thread := { t0 with me := { stack := l } }
def tTok : Thread := { t0 with tokens := setSigCount (setWaitCount t0.tokens 3 .c1) 250 .c0 }
theorem witness_EngineStacksAndTokens :
    waitReady 0 tTok .c1 = 3 ∧ tTok.pushedAt = 0 ∧ waitReady 0 { tTok with pushed := { c1Core := 2 } } .c1 = 1 ∧ waitReady 1 { tTok with pushed := { c1Core := 2 } } .c1 = 3
    ∧ feDone tTok = false ∧ at0 (stackOf []) ∧ at0 (stackOf [1]) ∧ at0 (stackOf (List.replicate 8 1)) ∧ at0 tTok ∧ pendingFaults tTok allEngines = []
    ∧ waitCount tTok.tokens .c1 = 3 ∧ sigCount tTok.tokens .c0 = 250
    ∧ waitCount (threadAfter (exec (.tkwait .c1 3) (withThread tTok))).tokens .c1 = 0 ∧ exec (.tkwait .c1 4) (withThread tTok) = .next (withThread tTok)
    ∧ sigCount (threadAfter (exec (.tksig .c0 5) (withThread tTok))).tokens .c0 = 255 :=
  by repeat' first | decide +kernel | exact rfl | refine ⟨?_, ?_⟩
def tSys : Thread := { t0 with system := true }
theorem witness_StatusReads : AtTurn s0 t0 ∧ pendingFaults t0 [.c1] = [] ∧ readPrivileged 0x015 = false ∧ readPrivileged 0x010 = true ∧ t0.system = false
    ∧ at0 tSys ∧ tSys.system = true := by repeat' first | decide +kernel | exact rfl | refine ⟨?_, ?_⟩
theorem witness_SystemRegisterWrites : AtTurn s0 t0 ∧ feDone t0 = false ∧ poisonS t0 [.q 0] = [] ∧ writePrivileged 0x045 = false ∧ writeTraps t0 0x045 (readS t0 (.q 0)) = [] ∧ t0.spec = false
    ∧ writePrivileged 0x002 = true ∧ t0.system = false := ⟨turn0, by decide +kernel⟩
def tVec : Thread := { t0 with sys := { t0.sys with trapvec := 0x40001 } }
def tHandler : Thread := { t0 with system := true, saved := some { t := 5, q := t0.regs.q, y := t0.regs.y, pending := [] } }
theorem witness_SoftwareTrapAndReturn : at0 tVec ∧ flag tVec.sys.trapvec.toNat 0 = true ∧ arrived tVec.flight = true ∧ at0 tHandler ∧ tHandler.saved.isSome = true
    ∧ feDone tVec = false ∧ tVec.spec = false ∧ tVec.system = false ∧ (threadAfter (exec (.trap 7) (withThread tVec))).pc = 0x40000 ∧ (threadAfter (exec .rft (withThread tHandler))).vc = 5 :=
  ⟨⟨by decide +kernel, by decide +kernel⟩, by decide +kernel, by decide +kernel, ⟨by decide +kernel, by decide +kernel⟩, by decide +kernel⟩
theorem witness_HubRequests : AtTurn s0 t0 ∧ poisonS t0 [.q 0, .q 1] = [] ∧ t0.spec = false ∧ storesDone s0 s0.turn = true
    ∧ AtTurn { s0 with accesses := [(2, heldStore)] } t0 ∧ storesDone { s0 with accesses := [(2, heldStore)] } 0 = false := by
  unfold AtTurn
  decide +kernel
/-- The node that q0 names has an open extent. -/
def openNode : Node := { fetchNode with desc := { fetchDesc with shape := true, ceil := 8 }, gen := 0 }
def tShape (w : Option Wait) : Thread := { t0 with sWait := w }
def sOpen (w : Option Wait) : State := { withThread (tShape w) with nodes := [(0, openNode)] }
def shapeWait (e : Bool) : Wait := { kind := .shape, deadline := some 5, since := 0, expired := e }
theorem witness_ShapeInstructions : AtTurn s0 t0 ∧ poisonS t0 [.q 0, .q 1] = [] ∧ t0.spec = false ∧ bufferRoom s0 s0.turn 1 = true ∧ shapeOpen s0 (nameOf t0 (readS t0 (.q 0))) = false
    ∧ AtTurn (sOpen none) (tShape none) ∧ shapeOpen (sOpen none) (nameOf (tShape none) (readS (tShape none) (.q 0))) = true ∧ t0.sWait = none
    ∧ AtTurn (sOpen (some (shapeWait true))) (tShape (some (shapeWait true))) ∧ AtTurn (sOpen (some (shapeWait false))) (tShape (some (shapeWait false)))
    ∧ (threadAfter (exec (.shapew (.q 0)) (sOpen (some (shapeWait true))))).clock = 1 ∧ (threadAfter (exec (.shapew (.q 0)) (sOpen none))).sWait.isSome = true := by
  refine ⟨turn0, ?_⟩
  unfold AtTurn
  decide +kernel

/-! ## Vectors and the scratchpad -/

theorem witness_VectorFloat : AtTurn s0 t0 ∧ poisonV t0 [.y 0, .v 7, .bcast 7] = [] := ⟨turn0, by decide +kernel⟩
theorem witness_VectorInteger : AtTurn s0 t0 ∧ poisonV t0 [.y 15, .v 0] = [] := ⟨turn0, by decide +kernel⟩
theorem witness_VectorComparesAndMasks : AtTurn s0 t0 ∧ poisonV t0 [.y 0, .y 1] = [] := ⟨turn0, by decide +kernel⟩
theorem witness_VectorConversions : AtTurn s0 t0 ∧ poisonV t0 [.y 0, .y 1] = [] ∧ (decodeBlock (blockOfLanes (readVec t0 (.y 0)))).isSome = true := ⟨turn0, by decide +kernel⟩
theorem witness_VectorMoves : AtTurn s0 t0 ∧ poisonV t0 [.bcast 0, .y 0] = [] := ⟨turn0, by decide +kernel⟩
theorem witness_VectorReductions : AtTurn s0 t0 ∧ poisonV t0 [.y 0] = [] := ⟨turn0, by decide +kernel⟩
def tTop : Thread := { t0 with regs := { t0.regs with q := [.val 0xFFFF8, .val 4, .val 0xFFE80, .val 1, .val 0x100000] } }
def tLow : Thread := { t0 with regs := { t0.regs with q := [.val 0, .val 64] } }
/-- An earlier read of slot 0 that has not performed. -/
def heldRead : Access := { heldStore with op := .read 8, buffered := false }
theorem witness_ScratchpadLoads : at0 tTop ∧ LocalFree (withThread tTop) ∧ localHeld { withThread tTop with accesses := [(2, heldRead)] } 0 = true ∧ ScratchOk tTop 0xFFFF8 8 ∧ LineGood (withThread tTop) 0xFFFF8 8
    ∧ ScratchOk tTop 0xFFE80 384 ∧ LineGood (withThread tTop) 0xFFE80 384
    ∧ (∀ p ∈ laneAddrs tLow (strideAddr tLow (.q 0) (.q 1)), ScratchOk tLow p.2 4 ∧ LineGood (withThread tLow) p.2 4)
    ∧ (∀ k, k < 16 → bankLoad (laneAddrs tLow (strideAddr tLow (.q 0) (.q 1))) k ≤ 8)
    ∧ (∃ p ∈ laneAddrs tLow (strideAddr tLow (.q 0) (.q 1)), ¬ LineGood { withThread tLow with eccBad := [scratchPa s0 0 0 / 64] } p.2 4) := by
  refine ⟨⟨by decide +kernel, by decide +kernel⟩, ?_⟩
  unfold LocalFree ScratchOk LineGood
  decide +kernel
theorem witness_ScratchpadStores : at0 tLow ∧ LocalFree (withThread tLow) ∧ (∀ p ∈ laneAddrs tLow (strideAddr tLow (.q 0) (.q 1)), ScratchOk tLow p.2 4)
    ∧ (∀ k, k < 16 → bankLoad (laneAddrs tLow (strideAddr tLow (.q 0) (.q 1))) k ≤ 8) ∧ poisonV tLow [.y 0] = []
    ∧ (∀ q ∈ laneAddrs tLow (strideAddr tLow (.q 0) (.q 1)), 0 < q.1 → q.2 ≠ 0) ∧ (0, 0) ∈ laneAddrs tLow (strideAddr tLow (.q 0) (.q 1)) ∧ (withThread tLow).mem.wf = true ∧ ScratchOk tLow 0 384
    ∧ poisonS tLow [.q 1] = [] := by
  refine ⟨⟨by decide +kernel, by decide +kernel⟩, ?_⟩
  unfold LocalFree ScratchOk
  decide +kernel
theorem witness_ScratchpadChecks : at0 tTop ∧ feDone tTop = false ∧ 0x100000 % 64 = 0 ∧ (effAddr tTop (.q 3) (0 : BitVec 16) 8).toNat % 8 ≠ 0 ∧ (effAddr tTop (.q 4) (0 : BitVec 16) 8).toNat % 8 = 0
    ∧ 2 ^ 20 ≤ (effAddr tTop (.q 4) (0 : BitVec 16) 8).toNat ∧ inScr tTop.sys.scrwin 0x100000 8 = false := ⟨⟨by decide +kernel, by decide +kernel⟩, by decide +kernel⟩
/-- Lane l of y0 is 64 l: six lanes of each bank; every lane of y1 is 0, so that one bank holds all lanes. -/
def tLanes : Thread := { t0 with regs := { t0.regs with y := [.val ((List.range 96).map fun l => BitVec.ofNat 32 (64 * l)), .val zeroVec] } }
theorem witness_GathersAndScatters : at0 tLanes ∧ poisonS tLanes [.q 0] = [] ∧ poisonV tLanes [.y 0] = [] ∧ poisonV tLanes [.y 1] = [] ∧ LocalFree (withThread tLanes)
    ∧ (withThread tLanes).mem.wf = true ∧ 0 < (withThread tLanes).fresh ∧ (∀ i ∈ tLanes.flight, i.tag ≠ s0.fresh) ∧ tLanes.saved = none
    ∧ (∀ p ∈ laneAddrs tLanes (gatherAddr tLanes (.q 0) (.y 0)), ScratchOk tLanes p.2 4 ∧ LineGood (withThread tLanes) p.2 4)
    ∧ (∀ p ∈ laneAddrs tLanes (gatherAddr tLanes (.q 0) (.y 1)), ScratchOk tLanes p.2 4 ∧ LineGood (withThread tLanes) p.2 4)
    ∧ (∀ k, k < 16 → bankLoad (laneAddrs tLanes (gatherAddr tLanes (.q 0) (.y 0))) k ≤ 8)
    ∧ (∃ p ∈ laneAddrs tLanes (gatherAddr tLanes (.q 0) (.y 0)), ¬ LineGood { withThread tLanes with eccBad := [scratchPa s0 0 0 / 64] } p.2 4)
    ∧ bankLoad (laneAddrs tLanes (gatherAddr tLanes (.q 0) (.y 1))) 0 = 96 ∧ passCount (laneAddrs tLanes (gatherAddr tLanes (.q 0) (.y 1))) = 12
    ∧ ((threadAfter (exec (.vgath (.q 0) (.y 1)) (withThread tLanes))).gather.map fun g => g.left.length) = some 88 := by
  refine ⟨⟨by decide +kernel, by decide +kernel⟩, ?_⟩
  unfold LocalFree ScratchOk LineGood
  decide +kernel
def sFull : State := setFull (ownPa s0 0 0) true s0
/-- An entry that lets masters 0 to 4095 do everything below offset 2^42. -/
def openEntry : BitVec 128 := BitVec.ofNat 128 (2 ^ 127 + 7 * 2 ^ 124 + 4095 * 2 ^ 86 + (2 ^ 30 - 1) * 2 ^ 32)
/-- q0 names a word of core 1's scratchpad (R199). -/
def tFar : Thread := { t0 with regs := { t0.regs with q := [.val 0x10100000] } }
def sFar0 : State := setTable ⟨0, 0x7400⟩ 1 openEntry (setTable ⟨0, 0x1400⟩ 1 openEntry (withThread tFar))
def feWait (a e : Bool) : Wait := { kind := .fe, deadline := none, since := 0, answered := a, value := 5, expired := e }
def tFe (a e : Bool) : Thread := { t0 with wait := some (feWait a e) }
theorem witness_FullEmptyForms : AtTurn s0 t0 ∧ AtTurn sFull t0 ∧ poisonS t0 [.q 0, .q 1] = [] ∧ LocalFree sFull ∧ LocalFree s0 ∧ t0.wait = none ∧ t0.chains = []
    ∧ ScratchOk t0 0 8 ∧ isFull sFull (ownPa sFull 0 0) = true ∧ isFull s0 (ownPa s0 0 0) = false
    ∧ AtTurn (withThread (tFe true false)) (tFe true false) ∧ AtTurn (withThread (tFe false true)) (tFe false true) ∧ AtTurn (withThread (tFe false false)) (tFe false false)
    ∧ localHeld { s0 with accesses := [(2, heldRead)] } 0 = true := by
  unfold LocalFree ScratchOk AtTurn
  decide +kernel
theorem witness_FullEmptyForms_far : AtTurn sFar0 tFar ∧ poisonS tFar [.q 0, .q 1] = [] ∧ tFar.wait = none ∧ feRemote (effAddr tFar (.q 0) (0 : BitVec 16) 8) = true
    ∧ bits (effAddr tFar (.q 0) (0 : BitVec 16) 8).toNat 20 8 = 1 ∧ refuse sFar0 (threadMaster sFar0 0) (feRemotePa sFar0 (effAddr tFar (.q 0) (0 : BitVec 16) 8)) 8 (feRight .ldwfe) = none
    ∧ tFar.spec = false ∧ storeWaiting sFar0 0 = false ∧ respRoom sFar0 (.thread 0) 1 = true
    ∧ ((look (after (exec (.ldwfe (.q 0) 0) sFar0)).accesses sFar0.fresh).map Access.op) = some (.fe .ldwfe 0) := by
  unfold AtTurn
  decide +kernel

/-! ## Handles, atomics, chains, barriers, circuits, fences, engine words -/

/-- The tables of the HBM slices of tile 0 let every master in. -/
def opened (s : State) : State := (List.range 4).foldl (fun s i => setTable ⟨0, 0x400 * i⟩ 1 openEntry s) s
def window : Handle := { state := .valid, origin := 0x10000, base := 0x10000, size := .k64, frame := 0x20000, grant := 7 }
def tHandle : Thread := { t0 with handles := t0.handles.set 3 window, regs := { t0.regs with q := [.val 0, .val 0x10000, .val 0x8000000000000000] } }
def sHandle : State := opened (withThread tHandle)
theorem turnHandle : AtTurn sHandle tHandle := ⟨by decide +kernel, by decide +kernel⟩
def sTlb : State := { withThread tHandle with tlb1 := [(0, [{ asid := 0, base := 0x10000, size := .k64, leaf := 0x200BD, level := 3 }])] }
/-- The TLB's leaf is of the system (U = bit 6). -/
def sTlbSys : State := { sTlb with tlb1 := [(0, [{ asid := 0, base := 0x10000, size := .k64, leaf := 0x200FD, level := 3 }])] }
theorem witness_HandleInstructions_walk : AtTurn sHandle tHandle ∧ tlbLookup sHandle sHandle.turn (spaceOf tHandle 0x10000) 0x10000 = none ∧ (handleOf tHandle 3).state = .valid ∧ (handleOf tHandle 4).state = .empty
    ∧ AtTurn sTlbSys tHandle ∧ ((tlbLookup sTlbSys 0 0 0x10000).map fun x => flag x.1.toNat 6) = some true ∧ tHandle.system = false
    ∧ canonical 0xFFFF800000000000 = true ∧ systemHalf 0xFFFF800000000000 = true
    ∧ ((threadAfter (exec (.xlat (.q 1) 5 1) sTlb)).flight.map Item.value) = [some (.scalar (.val (handleWord { window with req := 1, grant := 1 })))] := by
  unfold AtTurn
  decide +kernel
theorem witness_HandleInstructions : AtTurn sTlb tHandle ∧ poisonS tHandle [.q 1] = [] ∧ poisonS tHandle [.q 2] = [] ∧ poisonS tHandle [.q 1, .q 2] = [] ∧ canonical (readS tHandle (.q 1)) = true
    ∧ systemHalf (readS tHandle (.q 1)) = false ∧ (tlbLookup sTlb 0 0 0x10000).isSome = true ∧ canonical (readS tHandle (.q 2)) = false :=
  ⟨⟨by decide +kernel, by decide +kernel⟩, by decide +kernel⟩
theorem witness_GlobalLoads : AtTurn sHandle tHandle ∧ poisonS tHandle [.q 0] = [] ∧ tHandle.spec = false ∧ storeWaiting sHandle 0 = false
    ∧ handleTraps sHandle tHandle (threadMaster sHandle 0) 2 3 0 384 64 rightR permR = [] ∧ loadHits sHandle 0 tHandle (handleOf tHandle 3) 0x10000 384 = false
    ∧ respRoom sHandle (.thread 0) 6 = true ∧ (after (exec (.gvld (.q 0) 3 0) sHandle)).accesses.length = 6 := ⟨turnHandle, by decide +kernel⟩
/-- The store buffer of slot 0 is full. -/
def sCrowded : State := { sHandle with accesses := (List.range 16).map fun i => (i + 2, heldStore) }
theorem witness_GlobalStores : AtTurn sHandle tHandle ∧ poisonS tHandle [.q 0] = [] ∧ poisonS tHandle [.q 1] = [] ∧ poisonV tHandle [.y 0] = []
    ∧ handleTraps sHandle tHandle (threadMaster sHandle 0) 2 3 0xFFF8 8 8 rightW permW = [] ∧ bufferRoom sHandle 0 1 = true
    ∧ handleTraps sHandle tHandle (threadMaster sHandle 0) 2 3 0 384 64 rightW permW = [] ∧ bufferRoom sHandle 0 6 = true
    ∧ bufferRoom sCrowded 0 1 = false ∧ handleTraps sCrowded tHandle (threadMaster sCrowded 0) 2 3 0xFFF8 8 8 rightW permW = []
    ∧ (after (exec (.gst (.q 0) 3 (.q 1) .d 0) sHandle)).accesses.length = 1 := ⟨turnHandle, by decide +kernel⟩
/-- The record of a cas2 at 0 has an uncorrectable error. -/
def sBadRecord : State := { sHandle with eccBad := [scratchPa s0 0 0 / 64] }
theorem witness_AtomicInstructions : AtTurn sHandle tHandle ∧ tHandle.spec = false ∧ AtTurn sBadRecord tHandle ∧ lineBad sBadRecord (ownPa sBadRecord 0 0) 32 = true
    ∧ bufferRoom sBadRecord 0 1 = true ∧ handleTraps sBadRecord tHandle (threadMaster sBadRecord 0) 2 3 0 16 16 rightA permA = []
    ∧ ((threadAfter (exec (.cas2 (.q 0) (.q 0) 3) sBadRecord)).flight.length) = 1
    ∧ handleTraps sHandle (withoutHostA tHandle 3 (.cas .w4 0 0)) (threadMaster sHandle 0) 2 3 0 4 4 rightA permA = []
    ∧ poisonS tHandle [.q 0, .q 0, .q 1] = [] ∧ bufferRoom sHandle 0 1 = true
    ∧ handleTraps sHandle (withoutHostA tHandle 3 (.amo .add .w8 0)) (threadMaster sHandle 0) 2 3 0 8 8 rightA permA = []
    ∧ handleTraps sHandle (withoutHostA tHandle 3 (.cas2 0 0)) (threadMaster sHandle 0) 2 3 0 16 16 rightA permA = []
    ∧ portBusy sHandle 0 = false ∧ sHandle.mem.wf = true ∧ inScr tHandle.sys.scrwin 0 32 = true ∧ lineBad sHandle (ownPa sHandle 0 0) 32 = false := by
  unfold AtTurn
  decide +kernel
theorem test_atomic_add_wraps :
    leNat ((performAtomic (.amo .add .w8 2) 0x20000 { s0 with mem := s0.mem.store 0x20000 (leBytes 8 (2 ^ 64 - 1)) }).2.2.mem.bytes 0x20000 8) = 1 := by decide +kernel
/-- Two steps, field length 8, destination 0x200, status 0x300. -/
def chainDesc : List Byte := leBytes 8 0x10000 ++ leBytes 4 0x200 ++ leBytes 4 0x300 ++ [2, 8] ++ List.replicate 110 0
def sChain : State := { s0 with mem := s0.mem.store (ownPa s0 0 0) chainDesc }
/-- All entries in use, one of them FAULTED with its status word at 8. -/
def aChain : Chain := { state := .faulted, addr := 0, dest := 0x200, stat := 8, flen := 8, gen := 0, order := 0, word := 5 }
def tChains : Thread := { t0 with chains := (List.range 16).map fun i => (i, { aChain with stat := 8 * i }) }
theorem witness_ChainInstructions_others : AtTurn { sChain with threads := [(0, tChains)] } tChains ∧ freeChain tChains = none ∧ chainDescOk t0.sys.scrwin 0 (s0.mem.bytes (ownPa s0 0 0) 128) = false
    ∧ feDone t0 = false ∧ (faultedAt tChains 8).isSome = true ∧ inScr tChains.sys.scrwin 0 8 = true
    ∧ codeAfter (exec (.chain (.q 0)) (withThread armed)) = tChainFault ∧ (threadAfter (exec (.chainq (.q 0)) { sChain with threads := [(0, tChains)] })).chains.length = 15 := by
  unfold AtTurn
  decide +kernel
theorem witness_ChainInstructions : AtTurn sChain t0 ∧ setRises sChain.full = true ∧ poisonS t0 [.q 0] = [] ∧ portBusy sChain 0 = false ∧ inScr t0.sys.scrwin 0 128 = true
    ∧ chainDescOk t0.sys.scrwin 0 (sChain.mem.bytes (ownPa sChain 0 0) 128) = true ∧ (freeChain t0).isSome = true ∧ respRoom sChain (.thread 0) 1 = true
    ∧ sChain.mem.wf = true ∧ lineBad sChain (ownPa sChain 0 0) 8 = false ∧ (threadAfter (exec (.chain (.q 0)) sChain)).chains.length = 1 :=
  ⟨⟨by decide +kernel, by decide +kernel⟩, by decide +kernel⟩
/-- An object with check 7 and two expected arrivals. -/
def sBar : State := after (exec (.barinit (.q 0) (.q 1) none) (withThread { t0 with regs := { t0.regs with q := [.val 0, .val 0x700002] } }))
def tBar : Thread := { t0 with regs := { t0.regs with q := [.val 0, .val 7, .val 0x8007] }, handles := t0.handles.set 3 window }
def sBar2 : State := opened { withThread tBar with mem := sBar.mem }
/-- A thread at its barwait, the wait answered, found stale, expired or going on. -/
def tBarWait (w : Wait) : Thread := { tBar with wait := some w, sys := armed.sys }
def barWaitAt (a e : Bool) (b : Option Trap) : Wait := { kind := .bar, deadline := none, since := 0, answered := a, bad := b, expired := e }
def sBarWait (w : Wait) : State := { sBar2 with threads := [(0, tBarWait w)] }
theorem witness_BarrierInstructions_waits : AtTurn (sBarWait (barWaitAt true false none)) (tBarWait (barWaitAt true false none))
    ∧ AtTurn (sBarWait (barWaitAt false false none)) (tBarWait (barWaitAt false false none)) ∧ AtTurn (sBarWait (barWaitAt false true none)) (tBarWait (barWaitAt false true none))
    ∧ AtTurn (sBarWait (barWaitAt false false (some (trapOf tBarrierStale 2 0)))) (tBarWait (barWaitAt false false (some (trapOf tBarrierStale 2 0))))
    ∧ globalBusy { sBar2 with accesses := [(2, heldRead)] } 0 = true ∧ (barAct .query (sBar2.mem.bytes (ownPa sBar2 0 0) 32) 7 0).1 = .value 0x0007C00000200000
    ∧ codeAfter (exec (.barwait (.q 0) (.q 1) none) (sBarWait (barWaitAt false true none))) = tFeTimeout := by
  unfold AtTurn
  decide +kernel
theorem witness_BarrierInstructions : localHeld sBar2 0 = false ∧ AtTurn sBar2 tBar ∧ tBar.wait = none ∧ globalBusy sBar2 0 = false ∧ (handleOf tBar 3).host = false ∧ bufferRoom sBar2 0 1 = true ∧ tBar.spec = false
    ∧ storeWaiting sBar2 0 = false ∧ respRoom sBar2 (.thread 0) 1 = true ∧ poisonS tBar [.q 0, .q 1] = [] ∧ storesPerformed sBar2 0 = true ∧ portBusy sBar2 0 = false ∧ inScr tBar.sys.scrwin 0 32 = true
    ∧ (barAct .arr (sBar2.mem.bytes (ownPa sBar2 0 0) 32) 7 0).1 = .done ∧ (barAct .arr (sBar2.mem.bytes (ownPa sBar2 0 0) 32) 0x8007 0).1 = .stale 3
    ∧ (barAct .wait (sBar2.mem.bytes (ownPa sBar2 0 0) 32) 7 0).1 = .blocked ∧ (barAct .wait (sBar2.mem.bytes (ownPa sBar2 0 0) 32) 0x8007 0).1 = .done
    ∧ handleTraps sBar2 tBar (threadMaster sBar2 0) 2 3 0 32 8 rightA permA = [] ∧ (after (exec (.bararr (.q 0) (.q 1) (some 3)) sBar2)).accesses.length = 1 :=
  by
  unfold AtTurn
  decide +kernel
def objTwo : BarObj := { phase := 0, check := 7, expected := 2, arrivals := 0, delta := 0, pending := 0, round := 0, raw := 0, ok := true }
theorem witness_BarrierArithmetic : (7 : Nat) < 2 ^ 16 ∧ bits 7 0 15 = objTwo.check ∧ bits 7 15 1 = objTwo.phase ∧ objTwo.arrivals + 1 < objTwo.expected ∧ objTwo.pending = 0 ∧ (objTwo.expected : Int) + objTwo.delta < 2 ^ 20
    ∧ objTwo.ok = true ∧ objTwo.phase ≤ 1 ∧ bits 8 0 15 ≠ objTwo.check ∧ bits 0x8007 0 15 = objTwo.check ∧ bits 0x8007 15 1 ≠ objTwo.phase
    ∧ (barArrive objTwo 7 0 0).1 = .done ∧ ({ objTwo with arrivals := 1 } : BarObj).arrivals + 1 = objTwo.expected
    ∧ (barArrive { objTwo with arrivals := 1 } 7 0 0).2.phase = 1 ∧ (barArrive { objTwo with arrivals := 1 } 7 0 0).2.round = 1 := by decide +kernel
def liveHandle : CHandle := { state := .live, src := 3, sink := 9, gen := 4 }
def sCirc : State := { s0 with
  threads := [(0, { t0 with cohort := some ⟨5, 0, true, false⟩ })]
  cohorts := [(5, { lock := true, asid := 0, members := [(0, 0)] })]
  ctxs := [(2, { cohort := 5, node := ⟨0, 0⟩, prog := [.step 5, .endc], mode := .atStep, handles := [(1, liveHandle)] })] }
theorem witness_CircuitInstructions : AtTurn sCirc { t0 with cohort := some ⟨5, 0, true, false⟩ } ∧ poisonV t0 [.y 0] = [] ∧ (ctxOf sCirc 0).isSome = true ∧ tileOf 0 = 3 / 8
    ∧ tornFrom liveHandle 0 = false ∧ (∀ x, ctxOf sCirc 0 = some x → tearComing sCirc x.1 x.2 1 0 = false) ∧ circPortBusy sCirc 3 = false ∧ ctxOf s0 0 = none ∧ (portOf (after (exec (.csend (.y 0) 1) sCirc)) 3).buf.length = 1 :=
  ⟨⟨by decide +kernel, by decide +kernel⟩, by decide +kernel⟩
theorem witness_Fences : AtTurn s0 t0 ∧ t0.spec = false ∧ [Eng.m, .c0, .c1].all (fun e => engineIdle (getEngine t0 e) && (getEngine t0 e).fault.isNone) = true ∧ t0.chains = []
    ∧ csendBusy s0 0 t0 = false ∧ storesDone s0 0 = true ∧ hostStores s0 0 = false ∧ t0.dropped = 0 ∧ t0.dropDev = none ∧ t0.droppedHost = 0
    ∧ storesDone (after (exec (.gst (.q 0) 3 (.q 1) .d 0) sHandle)) 0 = false := ⟨turn0, by decide +kernel⟩
theorem witness_InvalidationsAndHarvest : feDone t0 = false ∧ t0.system = false ∧ at0 tSys ∧ tSys.spec = false ∧ keysRise (withThread tSys).threads = true ∧ AtTurn s0 t0 ∧ poisonS tSys [.q 0] = [] ∧ (threadAfter (exec (.xinval (.q 0) .k64) (withThread tSys))).hold = true
    ∧ (after (exec (.xinval (.q 0) .k64) (withThread tSys))).tlb1.all (fun e => e.2.isEmpty) = true :=
  ⟨by decide +kernel, by decide +kernel, ⟨by decide +kernel, by decide +kernel⟩, rfl, by decide +kernel, turn0, by decide +kernel⟩
def noTok : Tok := ⟨false, false, false, false⟩
def tMma : Thread := { t0 with me := { stack := [16, 0, 0] } }
def tCopy : Thread := { t0 with c0 := { stack := [64, 0x10000, 0x100] } }
def paramsOk (t : Thread) (e : Eng) (i : Instr) (n : Nat) : Bool :=
  decide (n ≤ (getEngine t e).stack.length) && decide ((getEngine t e).queue.length < 16)
    && (paramTraps 3 (paramForms i) (((getEngine t e).stack.take n).reverse)).isEmpty
    && (if e = .m then (matrixTraps 3 t i (((getEngine t e).stack.take n).reverse)).isEmpty else (copyTraps 3 t i (((getEngine t e).stack.take n).reverse)).isEmpty)
theorem witness_EngineWordsQueue : at0 tMma ∧ at0 tCopy ∧ paramsOk tMma .m (.mma noTok .bf16) 3 = true ∧ paramsOk tCopy .c0 (.s2s .c0 noTok .basic false) 3 = true
    ∧ paramsOk t0 .c1 (.tokenOnly .c1 noTok) 0 = true ∧ (getEngine t0 .m).stack.length < 1
    ∧ (threadAfter (exec (.mma noTok .bf16) (withThread tMma))).me.queue.length = 1 ∧ (threadAfter (exec (.s2s .c0 noTok .basic false) (withThread tCopy))).c0.queue.length = 1 :=
  ⟨⟨by decide +kernel, by decide +kernel⟩, ⟨by decide +kernel, by decide +kernel⟩, by decide +kernel⟩

/-! ## The events of threads, accesses and links -/

def item : Item := { due := 0, issued := 0, rank := 1, value := some (.scalar (.val 7)) }
def tItem (late : Bool) : Thread := { t0 with vc := 4, flight := [{ item with late := late }] }
theorem witness_ResultsArePushed : item.post = .none ∧ item.mute = false ∧ (threadAfter (exec (.lateItemArrival 0) (withThread (tItem true)))).noIssueBefore = 1
    ∧ getThread (withThread (tItem true)) 0 = some (tItem true) ∧ item.due < clockOf (tItem true) ∧ item.notBefore ≤ s0.cc
    ∧ readS (threadAfter (exec (.resultPush 0) (withThread (tItem false)))) (.q 0) = 7 ∧ readS (threadAfter (exec (.lateItemArrival 0) (withThread (tItem true)))) (.q 0) = 7
    ∧ (threadAfter (exec (.lateItemArrival 0) (withThread (tItem false)))).flight.length = 1 := by decide +kernel
def sTwo : State := { s0 with threads := [(0, { t0 with life := .killed }), (1, t0)], tlb1 := [(0, [fetchTlb s0])] }
theorem witness_SlotChoice : switching sTwo 0 = false ∧ ready sTwo (currentSlot sTwo 0) = false ∧ chooseSlot sTwo 0 = some 1
    ∧ (getCore (after (exec (.slotSwitch 0) sTwo)) 0).current = 1 ∧ (getCore { sTwo with cc := 8192 } 0).since + 8192 ≤ 8192
    ∧ (getCore (after (exec (.quantumExpiry 0) { sTwo with cc := 8192 })) 0).since = 8196 ∧ chooseSlot s0 0 = none := by decide +kernel
def tBadPc : Thread := { t0 with pc := 0x4000000000000000 }
def tTrap : Thread := { t0 with trapping := some (trapOf tAlign 0 0x11), sys := { t0.sys with trapvec := 0x801 } }
def sIllegal : State := setThread (State.reset.withFetchWord 32 0x38000000) 0 armed
def tBoundary : Thread := { armed with boundary := [trapOf tWatchdog 0xA 0] }
theorem witness_TrapEvents : mayPresent (withThread { armed with pc := tBadPc.pc }) { armed with pc := tBadPc.pc } = true ∧ canonical tBadPc.pc = false
    ∧ (match fetchBundle sIllegal 0 armed with | .word w => (match decodeBundle w.toNat with | .error _ => true | .ok _ => false) | .trap _ => false | .miss => false) = true
    ∧ mayPresent sIllegal armed = true ∧ sIllegal.turn = 0
    ∧ atBoundary tBoundary = true ∧ tBoundary.system = false ∧ feDone tBoundary = false ∧ feUnderway (withThread tBoundary) 0 = false ∧ mayPresent (withThread tBoundary) tBoundary = false
    ∧ bits 1 0 32 * 65536 ≤ 65536 ∧ tAlign ≠ tSoftware
    ∧ arrived tTrap.flight = true ∧ (threadAfter (exec (.trapEntry 0) (withThread tTrap))).pc = 0x800 ∧ (threadAfter (exec (.trapEntry 0) (withThread tTrap))).sys.traparg0 = 0x11 := by decide +kernel
theorem witness_TrapEvents_codes : codeAfter (exec (.bundleFetchFault 0) (withThread { armed with pc := tBadPc.pc })) = tPageFault
    ∧ codeAfter (exec .illegalOp sIllegal) = tIllegal
    ∧ codeAfter (exec (.boundaryTrap 0) (withThread tBoundary)) = tWatchdog
    ∧ (threadAfter (exec (.watchdogExpiry 0) (withThread { t0 with watch := 65536, sys := { t0.sys with wdlimit := 1 } }))).boundary.length = 1 := by decide +kernel
def waiting (k : WaitKind) : Thread := { t0 with wait := some { kind := k, deadline := some 0, since := 0 } }
def sWord (k : FeKind) (full : Bool) : State :=
  { setFull 64 full (withThread (waiting .fe)) with waiters := [(8, [.thread 0 k 0 (some 20)])], mem := s0.mem.store 64 [5], cc := 9, woken := [(8, 3)] }
def sLate : State := { withThread (waiting .fe) with waiters := [(8, [.thread 0 .ldwf 0 (some 0)])] }
def tShapeLate : Thread := { t0 with sWait := some { kind := .shape, deadline := some 0, since := 0 } }
theorem witness_WaitsEnd_words : isFull (sWord .ldwfe true) 64 = true ∧ setRises (sWord .ldwfe true).full = true ∧ passed (sWord .ldwfe true) (some 20) = false ∧ look (sWord .ldwfe true).woken 8 = some 3
    ∧ lineBad (sWord .ldwfe true) 64 8 = false ∧ (waiting .fe).chains = [] ∧ isFull sLate 64 = false
    ∧ (threadAfter (exec (.feWaiterPerform 8) (sWord .ldwfe true))).wait.map Wait.value = some 5 ∧ isFull (after (exec (.feWaiterPerform 8) (sWord .ldwfe true))) 64 = false
    ∧ isFull (after (exec (.feWaiterPerform 8) (sWord .stwe false))) 64 = true ∧ exec (.feWaiterPerform 8) { sWord .ldwfe true with woken := [(8, 9)] } = .next { sWord .ldwfe true with woken := [(8, 9)] }
    ∧ (threadAfter (exec (.feTimeout 8 0) sLate)).wait.map Wait.expired = some true
    ∧ (threadAfter (exec (.barwaitTimeout 0) (withThread (waiting .bar)))).wait.map Wait.expired = some true
    ∧ (threadAfter (exec (.shapewTimeout 0) (withThread tShapeLate))).sWait.map Wait.expired = some true := by
  repeat' first | decide +kernel | exact rfl | refine ⟨?_, ?_⟩
def tGather : Thread := { t0 with gather := some { tag := 3, store := false, left := [(0, 0x100, 0)], got := [] }, flight := [{ due := 12, issued := 0, rank := 0, tag := 3, form := .vector (BitVec.allOnes 96), need := 1 }] }
def farWrite (p : Place) : Access := { owner := .thread 0, master := 0, pa := 5 * 2 ^ 46, op := .write [some 1], place := p, device := 5, src := (0, 0), dst := (1, 1), buffered := true }
def sLost : State := { withThread (waiting .fence) with cc := 1600000, peers := [(5, { member := true, lostAt := some 0 })], accesses := [(2, farWrite .fabric)] }
theorem witness_WaitsEnd_others : (tGather.gather.map Gather.left) = some [(0, 0x100, 0)] ∧ (sLost.threads.map fun t => t.2.wait.map Wait.kind) = [some .fence] ∧ (tGather.gather.map Gather.last).getD 1 < 1 ∧ (threadAfter (exec (.vgathPass 0) { withThread tGather with cc := 1 })).gather.isNone = true
    ∧ lostWrites sLost 0 = [2] ∧ ((look (after (exec (.fenceLimitExpiry 0) sLost)).accesses 2).bind Access.answer) = some .unreachable := by decide +kernel
def launchAsk : HubReq := { slot := 0, tag := 6, who := 0, ask := .launch 0 0 true 0, asid := 0, clock := 0 }
theorem witness_WaitsEnd_launch : ∃ s : State, getThread s 0 = some t0 ∧ s.hubReqs = [launchAsk] ∧ launchAsk.slot = 0 ∧ 0 ≤ s.cc ∧ 8192 ≤ s.nodes.length :=
  ⟨{ s0 with hubReqs := [launchAsk], nodes := List.replicate 8192 (0, fetchNode) }, turn0.1, rfl, rfl, Nat.zero_le _, Nat.le_of_eq List.length_replicate.symm⟩
def aWalk : Walk := { slot := 0, tag := 1, asid := 0, va := 0x10000, fetch := true, tile := 0 }
def anInval (h : Bool) : Inval := { slot := 0, asid := 0, base := 0, size := 65536, covered := [], harvest := h }
/-- A fetch walk of the page tables, and the same with the first entry missing. -/
def tNowhere : Thread := { t0 with pc := 0x10000 }
theorem witness_WalksAndMigrations_faults : tNowhere.pc = aWalk.va ∧ (anInval false).covered.all (accessEnded s0) = true ∧ accessEnded { s0 with accesses := [(2, heldRead)] } 2 = false
    ∧ (threadAfter (exec (.pageWalkComplete 0 1) { withThread tNowhere with walks := [aWalk] })).fetchFault = some (1, 0) := by decide +kernel
theorem witness_WalksAndMigrations : (after (exec (.pageWalkComplete 0 1) { s0 with walks := [aWalk] })).walks = []
    ∧ (match (walkTables s0 (threadMaster s0 0) 0 0x10000).1 with | .fault _ _ => true | .leaf _ _ => false) = true
    ∧ (findInval { s0 with invals := [anInval false] } 0 false).isSome = true ∧ (findInval { s0 with invals := [anInval true] } 0 true).isSome = true
    ∧ (threadAfter (exec (.xinvalComplete 0) { withThread { t0 with hold := true } with invals := [anInval false] })).hold = false
    ∧ (threadAfter (exec (.harvComplete 0) { withThread { t0 with hold := true } with invals := [anInval true] })).hold = false
    ∧ State.reset.cc % 1600000 = 0 ∧ 1 % 1600000 ≠ 0 := by decide +kernel
def sMigrate : State := { State.reset with migrations := [{ asid := 0, va := 0, leafPa := 0x1000, src := 0x200000, dst := 0x400000, moved := 0 }], mem := [(0x200005, 9)] }
theorem witness_migration : sMigrate.threads = [] ∧ sMigrate.specLines = [] ∧ (after (exec (.pageMigrationComplete 0) sMigrate)).mem.read 0x400005 = 9
    ∧ (after (exec (.pageMigrationComplete 0) sMigrate)).mem.read 0x200005 = 0 := by decide +kernel

/-- A page table for ASID 0 with one page of 2 MiB in HBM, whose first granule has counts. -/
def sLarge : State := { State.reset with asidtab := 0x8000000000080000, mem := ((State.reset.mem.store 0x80000 (leBytes 8 (2 ^ 63 + 0x100000))).store 0x100000 (leBytes 8 0x110001)).store 0x110000 (leBytes 8 0x120001), granules := [(32, { loc := 3, pkg := 4 })] }
def sLarge1 : State := { sLarge with mem := sLarge.mem.store 0x120000 (leBytes 8 0x2000BD) }
theorem witness_evaluation : hubSpaces sLarge1 = [(0, 0x100000)] ∧ largePages sLarge1 0x100000 = [(0, 0x200000)] ∧ (pageGranules 0x200000).contains 32 = true ∧ sLarge1.cc % 1600000 = 0
    ∧ (after (exec .migrationEvaluation sLarge1)).granules = [(32, {})] := by decide +kernel

def access (op : AccOp) (p : Place) : Access := { owner := .thread 0, master := 0, pa := 0x20000, op := op, place := p, tag := 9, device := 0, src := (0, 0), dst := (2, 1) }
def withAccess (a : Access) : State := { s0 with accesses := [(4, a)], mem := s0.mem.store 0x20000 [0x12, 0x34] }
def answerOf (o : Host.Outcome State Fault Refusal) : Option Answer := (look (after o).accesses 4).bind Access.answer
def atScratch (op : AccOp) : State := { withAccess { access op .target with pa := scratchPa s0 0 0x40 } with mem := s0.mem.store (scratchPa s0 0 0x40) [0x12, 0x34] }
/-- Another requester has the grant of the bank in this cc. -/
def taken (s : State) : State := { s with cores := [(0, { bankLast := [(1, 32 * (s.cc + 1) + 3)] })] }
theorem witness_AccessesPerform : atTarget (withAccess (access (.read 2) .target)) 4 (access (.read 2) .target) = true ∧ accessPort s0 (access (.read 2) .target) = none ∧ movedPa s0 0x20000 = none
    ∧ lineBad s0 0x20000 64 = false ∧ isReg 0x20000 = false
    ∧ answerOf (exec (.homeLineAccess ⟨4, true⟩) (withAccess (access (.read 2) .target))) = some (.data [0x12, 0x34] .none)
    ∧ (after (exec (.homeLineAccess ⟨4, true⟩) (withAccess (access (.write [none, some 7]) .target)))).mem.bytes 0x20000 2 = [0x12, 7]
    ∧ (after (exec (.atomicPerform ⟨4, true⟩) (withAccess (access (.amo .add .w4 1) .target)))).mem.bytes 0x20000 2 = [0x13, 0x34]
    ∧ answerOf (exec (.homeLineAccess ⟨4, true⟩) (withAccess { access (.read 2) .target with denied := some 0x30000000000 })) = some (.denied 0x30000000000) := by decide +kernel
theorem witness_AccessesPerform_grants :
    (accessPort (atScratch (.read 2)) { access (.read 2) .target with pa := scratchPa s0 0 0x40 }) = some (0, [0x40])
    ∧ allServed 0 netRequester [0x40] (takeGrants (wants (atScratch (.read 2)) 0) 0 netRequester [0x40] (atScratch (.read 2))) = true
    ∧ allServed 0 netRequester [0x40] (takeGrants (wants (taken (atScratch (.read 2))) 0) 0 netRequester [0x40] (taken (atScratch (.read 2)))) = false
    ∧ answerOf (exec (.homeLineAccess ⟨4, true⟩) (atScratch (.read 2))) = some (.data [0x12, 0x34] .none)
    ∧ answerOf (exec (.homeLineAccess ⟨4, true⟩) (taken (atScratch (.read 2)))) = none := by decide +kernel
def atHost (op : AccOp) (up : Bool) : State := { withAccess { access op .target with host := true } with linkUp := up, hostMem := s0.hostMem.store 0x20000 [6, 7] }
theorem witness_AccessesPerform_host : (atHost (.read 2) true).linkUp = true ∧ isAtomic (.amo .add .w4 1) = true
    ∧ answerOf (exec (.homeLineAccess ⟨4, true⟩) (atHost (.read 2) true)) = some (.data [6, 7] .none) ∧ answerOf (exec (.homeLineAccess ⟨4, false⟩) (atHost (.read 2) true)) = some (.denied 0)
    ∧ (after (exec (.homeLineAccess ⟨4, true⟩) (atHost (.write [some 9]) true))).hostMem.bytes 0x20000 2 = [9, 7] ∧ answerOf (exec (.atomicPerform ⟨4, false⟩) (atHost (.amo .add .w4 1) true)) = some (.denied 0)
    ∧ answerOf (exec (.homeLineAccess ⟨4, true⟩) (atHost (.write [some 9]) false)) = some .unreachable := by decide +kernel
def sBarAt : State := { sBar with accesses := [(4, { access (.bar .arr 7 0) .target with pa := ownPa sBar 0 0 })] }
theorem witness_AccessesPerform_barrier : (barAct .arr (sBarAt.mem.bytes (ownPa sBar 0 0) 32) 7 0).1 = .done ∧ accessPort sBarAt { access (.bar .arr 7 0) .target with pa := ownPa sBar 0 0 } = some (0, [0])
    ∧ allServed 0 netRequester [0] (takeGrants (wants sBarAt 0) 0 netRequester [0] sBarAt) = true ∧ answerOf (exec (.barrierAction 4) sBarAt) = some .ack := by decide +kernel
def placeOfAccess (o : Host.Outcome State Fault Refusal) : Option Place := (look (after o).accesses 4).map Access.place
def fullInput : State := { s0 with accesses := (4, access (.write [some 1]) (.out 0 0 0 false)) :: (List.range 8).map fun i => (i + 5, access (.read 8) (.request 0 0 0 false)) }
def reqAt (x y p : Nat) : State := withAccess (access (.read 8) (.request x y p false))
def withLinkAt (x y p : Nat) (l : Link) : State := { reqAt 0 1 0 with links := [(linkKey x y p, l)] }
theorem witness_PacketsAndResponses :
    placeOfAccess (exec (.packetRoute 4) (withAccess (access (.write [some 1]) .waiting))) = some (.out 0 0 0 false)
    ∧ respRoom (withAccess (access (.write [some 1]) .waiting)) (.thread 0) 1 = true ∧ isAmo (access (.write [some 1]) .waiting) = false
    ∧ atHead (withAccess (access (.write [some 1]) (.out 0 0 0 false))) 4 (access (.write [some 1]) (.out 0 0 0 false)) = true
    ∧ placeOfAccess (exec (.packetRoute 4) (withAccess (access (.write [some 1]) (.out 0 0 0 false)))) = some (.request 0 0 0 false)
    ∧ inputUse fullInput 0 0 0 false = 8 ∧ placeOfAccess (exec (.packetRoute 4) fullInput) = some (.out 0 0 0 false)
    ∧ placeOfAccess (exec (.packetRoute 4) (reqAt 2 1 0)) = some .target ∧ exitPort (reqAt 2 1 0) (access (.read 8) (.request 2 1 0 false)) = 0
    ∧ placeOfAccess (exec (.packetRoute 4) (reqAt 0 1 0)) = some (.request 1 1 4 true) ∧ placeOfAccess (exec (.packetRoute 4) (reqAt 3 1 0)) = some (.request 2 1 2 true)
    ∧ placeOfAccess (exec (.packetRoute 4) (reqAt 2 0 0)) = some (.request 2 1 1 true) ∧ placeOfAccess (exec (.packetRoute 4) (reqAt 2 2 0)) = some (.request 2 1 3 true)
    ∧ placeOfAccess (exec (.packetRoute 4) (withLinkAt 1 1 4 { credReq := 0 })) = some (.request 0 1 0 false) ∧ placeOfAccess (exec (.packetRoute 4) (withLinkAt 1 1 4 { held := true })) = some (.request 0 1 0 false)
    ∧ placeOfAccess (exec (.bounceReinject 4) (withAccess (access (.read 8) (.response 0 0 0 false)))) = some (.out 0 0 0 false)
    ∧ returned (withAccess (access (.read 8) (.response 0 0 0 false))) 4 (access (.read 8) (.response 0 0 0 false)) = true
    ∧ atHead (reqAt 0 1 0) 4 (access (.read 8) (.request 0 1 0 false)) = true ∧ otherTurn (reqAt 0 1 0) (1, 1, 4) false = false
    ∧ mergePartner (reqAt 0 1 0) 4 (access (.read 8) (.request 0 1 0 false)) = none := by decide +kernel
/-- Two sums to one word meet at a router; a response is in turn on a link. -/
def amoAt (o : W64) (tag slot : Nat) : Access := { access (.amo .add .w8 o) (.request 1 0 4 false) with tag := tag, owner := .thread slot, buffered := true }
def sMeet : State := { s0 with accesses := [(4, amoAt 1 9 0), (7, amoAt 2 11 1)] }
def respFirst : State := { s0 with accesses := [(4, access (.read 8) (.request 1 0 4 false)), (7, { access (.read 8) (.response 1 0 1 false) with src := (2, 0), answer := some .ack })], links := [(linkKey 2 0 4, { sentResp := false })] }
theorem witness_PacketsAndResponses_merge : keysRise sMeet.accesses = true ∧ mergePartner sMeet 4 (amoAt 1 9 0) = some (7, amoAt 2 11 1) ∧ entersFirst 4 (amoAt 1 9 0) 7 (amoAt 2 11 1) = true
    ∧ (look (after (exec (.packetRoute 4) sMeet)).accesses 4).map Access.op = some (.amo .add .w8 3) ∧ (look (after (exec (.packetRoute 4) sMeet)).accesses 7).map Access.place = some .absorbed
    ∧ otherTurn respFirst (2, 0, 4) true = false ∧ otherTurn respFirst (2, 0, 4) false = true := by decide +kernel
def tRead : Thread := { t0 with flight := [{ due := 12, issued := 0, rank := 0, tag := 9, form := .load .d, need := 1 }] }
def merged : State := { s0 with accesses := [(4, { access (.amo .add .w8 3) (.response 1 0 0 false) with merged := [(7, 1, 1, 0)], answer := some (.data (leBytes 8 10) .none) }), (7, { access (.amo .add .w8 2) .absorbed with tag := 11 })] }
def readBack : Access := { access (.read 8) (.response 0 0 0 false) with host := true, answer := some (.data (leBytes 8 77) .none) }
def sReadBack : State := { withThread tRead with accesses := [(4, readBack)] }
theorem witness_responses : returned sReadBack 4 readBack = true
    ∧ ((threadAfter (exec (.responseReceive 4) sReadBack)).flight.map Item.value) = [some (.scalar (.val 77))]
    ∧ keysRise merged.accesses = true ∧ returned merged 4 ((look merged.accesses 4).getD readBack) = true ∧ inputUse merged 1 0 0 true < 8
    ∧ ((look (after (exec (.mergedReplySplit 4) merged)).accesses 7).bind Access.answer) = some (.data (leBytes 8 11) .none)
    ∧ ((look (after (exec (.mergedReplySplit 4) merged)).accesses 4).bind Access.answer) = some (.data (leBytes 8 10) .none) := by decide +kernel
def aLink : LinkId := ⟨1, 0, 4⟩
def flit (n : Nat) : Flit := { seq := n, id := 4, resp := false, head := true, last := true }
def withLink (l : Link) : State := { withAccess (access (.read 8) (.request 1 0 4 true)) with links := [(linkKey 1 0 4, l)] }
def linkAfter (o : Host.Outcome State Fault Refusal) : Link := linkOf (after o) (linkKey 1 0 4)
theorem witness_LinkEvents :
    (linkAfter (exec (.flitReceive aLink true) (withLink { wire := [flit 0], unacked := [flit 0] }))).expect = 1
    ∧ (linkAfter (exec (.flitReceive aLink false) (withLink { wire := [flit 0] }))).replay = true
    ∧ (linkAfter (exec (.replayRequest aLink) (withLink { replay := true, fails := 15, unacked := [flit 0] }))).wire = [flit 0]
    ∧ (linkAfter (exec (.replayRequest aLink) (withLink { replay := true, fails := 16 }))).held = true
    ∧ (linkAfter (exec (.linkAck aLink) (withLink { expect := 1, unacked := [flit 0, flit 1] }))).unacked = [flit 1]
    ∧ (linkAfter (exec (.linkRetrainDone aLink true) (withLink { held := true, fails := 16 }))).held = false
    ∧ (after (exec (.linkRetrainDone aLink false) (withLink { held := true }))).service = .outOfService
    ∧ (linkAfter (exec (.creditReturn aLink false) (withLink { owedReq := 1, credReq := 7 }))).credReq = 8
    ∧ (linkAfter (exec (.creditSyncSend aLink false) { withLink {} with cc := 256 })).syncReq.isSome = true
    ∧ (linkAfter (exec (.creditSyncReceive aLink false) (withLink { syncReq := some (8, 0) }))).credReq = 8 := by decide +kernel


/-! ## Lanes, frames, peers and circuits -/

def sLane (l : Lane) : State := { State.reset with dommap := [0, 1, 31], lanes := [(1, l)], cc := 1600000, rlytab := [], domtag := 77 }
def laneOf (o : Host.Outcome State Fault Refusal) : Lane := laneAt (after o) 1
def inService : Lane := { rx := 2, tx := 2, code := 2, txCode := 2 }
theorem witness_LaneStrength_windows :
    wAbove 0x3F800000 2 3 = true ∧ wAbove 0x3A83126F 2 3 = false ∧ wAbove 0x3A83126F 2 5 = true ∧ wAbove 0x358637BD 1 7 = true ∧ wBelow 0 2 7 = true
    ∧ (laneOf (exec (.berWindow 1 0x3F800000 0) (sLane { rx := 2, code := 0 }))).rx = 0
    ∧ (laneOf (exec (.berWindow 1 0 16) (sLane { rx := 2, code := 0 }))).code = 3
    ∧ (laneOf (exec (.berWindow 1 0x358637BD 3) (sLane { rx := 2, pin := true }))).pending = none
    ∧ (laneOf (exec (.berWindow 1 0x358637BD 3) (sLane { rx := 2, code := 0 }))).pending = some 1
    ∧ (laneOf (exec (.berWindow 1 0x3A83126F 3) (sLane { rx := 2, code := 1 }))).pending = some 2
    ∧ (laneOf (exec (.berWindow 1 0 3) (sLane { rx := 2, code := 2, good := 254 }))).good = 255
    ∧ (laneOf (exec (.berWindow 1 0 3) (sLane { rx := 2, code := 2, good := 255 }))).pending = some 1 := by decide +kernel
theorem witness_LaneStrength :
    (laneOf (exec (.codeRequest 1 2) (sLane { tx := 2 }))).marker = some 2
    ∧ (laneOf (exec (.codeMarkerTimeout 1) (sLane { pending := some 1 }))).requestedAt = 1600000
    ∧ (laneOf (exec (.codeChange 1) (sLane { pending := some 1 }))).code = 1 ∧ (laneOf (exec (.codeChange 1) (sLane { marker := some 1 }))).txCode = 1
    ∧ (laneOf (exec (.codeChange 1) (sLane { inService with pending := some 1, pin := true, pcode := 0 }))).pending = some 0
    ∧ (laneOf (exec (.codeChange 1) (sLane { inService with pending := some 0, pin := true, pcode := 0 }))).pending = none
    ∧ (laneOf (exec (.lanePinWrite 1 true 3) (sLane {}))).pcode = 3 ∧ (laneOf (exec (.lanePinWrite 1 true 0) (sLane inService))).pending = some 0
    ∧ (laneOf (exec (.lanePinWrite 1 true 2) (sLane { inService with pending := some 1 }))).decided = some 2
    ∧ (laneOf (exec (.laneDisWrite 1 true) (sLane inService))).rx = 0 ∧ (laneOf (exec (.laneDisWrite 1 true) (sLane { rx := 1 }))).rx = 0
    ∧ rxPeer 0 1 = 31 ∧ isMember (sLane {}) 31 = true ∧ (laneOf (exec (.laneDisWrite 1 false) (sLane { dis := true }))).rx = 1
    ∧ loopLane 0 = 0 ∧ (laneAt (after (exec (.laneDisWrite 0 false) { sLane {} with lanes := [(0, { dis := true })] })) 0).rx = 3 := by decide +kernel
def sComb : State := { sLane { tx := 2 } with combsFailed := [0] }
/-- A record of device 1 of class 3 (its lane is lost) or 6 (it is back): of its receive lane when rx is set, from or to the
members in the mask. -/
def notice (c : Nat) (rx : Bool) (mask : Nat) : RecordWords := ⟨BitVec.ofNat 64 (c * 2 ^ 56 + (if rx then 2 ^ 51 else 0) + 2 ^ 50), 0, BitVec.ofNat 64 (2 ^ 54 + mask), 0⟩
theorem witness_LanesAndCombs : keysRise (sLane {}).lanes = true ∧ setRises sComb.combsFailed = true ∧ txPeer 0 1 = 1 ∧ isMember (sLane {}) 1 = true
    ∧ (laneOf (exec (.combLoss 0) (sLane inService))).tx = 0 ∧ (laneOf (exec (.combLoss 0) (sLane { tx := 3 }))).tx = 0 ∧ (laneOf (exec (.combLoss 1) (sLane inService))).tx = 2
    ∧ (laneOf (exec (.combRelock 0) { sComb with lanes := [(1, {})] })).tx = 1 ∧ (laneAt (after (exec (.combRelock 0) { sComb with lanes := [(0, {})] })) 0).tx = 3
    ∧ (laneOf (exec (.tuneLoss 1 true) (sLane inService))).rx = 0 ∧ (laneOf (exec (.laneDown 1 true) (sLane inService))).code = 3
    ∧ (laneOf (exec (.tuneLoss 1 false) (sLane inService))).tx = 0 ∧ (laneOf (exec (.laneDown 1 false) (sLane inService))).txCode = 3
    ∧ (laneOf (exec (.laneFrameAck 1 4) (sLane { replay := [(4, 9), (5, 10)] }))).replay = [(5, 10)] := by decide +kernel
theorem witness_LanesAndCombs_up : (sLane {}).domtag = (77#64).toNat
    ∧ (laneOf (exec (.laneUp 1 ⟨true, 77⟩) (sLane { rx := 1 }))).code = 2 ∧ (laneOf (exec (.laneUp 1 ⟨false, 77⟩) (sLane { tx := 1 }))).txCode = 2
    ∧ (laneOf (exec (.laneUp 1 ⟨true, 77⟩) (sLane { rx := 1, pin := true, pcode := 0 }))).pending = some 0
    ∧ (peerAt (after (exec (.laneUp 1 ⟨true, 78⟩) (sLane { rx := 1 }))) 31).tagOk = false ∧ (peerAt (after (exec (.laneUp 1 ⟨false, 78⟩) (sLane { tx := 1 }))) 1).tagOk = false := by decide +kernel
theorem witness_LanesAndCombs_notices : recClass (notice 3 true 1) = 3 ∧ bits (notice 3 true 1).w2.toNat 54 10 = 1 ∧ (recPeers (notice 3 true 1)).contains 0 = true ∧ txLane 0 1 = 1 ∧ rxLane 0 1 = 31
    ∧ (laneOf (exec (.laneNotice ⟨1, notice 3 true 1⟩) (sLane inService))).tx = 0 ∧ (laneOf (exec (.laneNotice ⟨1, notice 6 true 1⟩) (sLane {}))).tx = 2
    ∧ (laneAt (after (exec (.laneNotice ⟨1, notice 3 false 1⟩) { sLane {} with lanes := [(31, inService)] })) 31).rx = 0 ∧ (laneAt (after (exec (.laneNotice ⟨1, notice 6 false 1⟩) (sLane {}))) 31).rx = 2
    ∧ (sLane {}).dommap.contains 31 = true ∧ (recPeers (notice 3 false 0x80000000)) = [31] ∧ memSet (after (exec (.laneNotice ⟨1, notice 3 false 0x80000000⟩) (sLane {}))).secondDown (hopKey 1 31) = true
    ∧ memSet (after (exec (.laneNotice ⟨1, notice 6 false 0x80000000⟩) { sLane {} with secondDown := [hopKey 1 31] })).secondDown (hopKey 1 31) = false := by decide +kernel
def frame (c : FrameClass) : Frame := { peer := 1, cls := c, seq := 0, flagSeq := 1, firstPath := 0, path := 0, hop := 1, carried := [0, 0, 0, 0], access := 8, entered := 1590000 }
def peer1 : Peer := { member := true, reachable := true }
def sFrame (f : Frame) : State := { sLane { inService with replay := [(0, 5)] } with frames := [(5, f)], peers := [(1, peer1)] }
def ours : FrameRef := { src := 0, id := 5, via := 0, body := none }
def frameAfter (o : Host.Outcome State Fault Refusal) : Option Frame := look (after o).frames 5
theorem witness_FramesOfThisDevice : keysRise (sFrame (frame .ord)).frames = true ∧ arriving 1600000 (frame .ord) = true ∧ look (sFrame (frame .ord)).accesses 8 = none
    ∧ (frameAfter (exec (.ordFrameReceive ours) (sFrame (frame .ord)))).map Frame.applied = some true
    ∧ (frameAfter (exec (.ordFrameReceive ours) (sFrame { frame .ord with seq := 1 }))).map Frame.held = some true
    ∧ (peerAt (after (exec (.bulkFrameReceive ours) (sFrame (frame .bulk)))) 1).appliedThere = [1, 0, 0, 0]
    ∧ (frameAfter (exec (.bulkFrameReceive ours) (sFrame (frame .flagged)))).map Frame.held = some true
    ∧ countsReached peer1.appliedThere (frame .flagged).carried = true ∧ countsReached peer1.appliedThere [1, 0, 0, 0] = false
    ∧ (peerAt (after (exec (.flagFrameApply ours) (sFrame { frame .flagged with held := true }))) 1).flagThere = 2
    ∧ (after (exec (.frameAckReceive 5) (sFrame { frame .ord with applied := true }))).frames = []
    ∧ (frameAfter (exec (.frameAgeDiscard 5) (sFrame { frame .ord with entered := 0 }))).map Frame.inFlight = some false
    ∧ (frameAfter (exec (.frameAgeDiscard 5) (sFrame (frame .ord)))).map Frame.inFlight = some true
    ∧ wayUp (sFrame (frame .ord)) 1 1 = true ∧ (frameAfter (exec (.laneFrameReplay 5) (sFrame { frame .ord with atRelay := true }))).map Frame.atRelay = some false
    ∧ (frameAfter (exec (.relayForward 5) (sFrame { frame .ord with atRelay := true }))).map Frame.atRelay = some false
    ∧ isMember (sFrame (frame .ord)) 1 = true ∧ inUse (sFrame (frame .ord)) 1 true = 1
    ∧ (peerAt (after (exec (.endToEndCredit 1 1 0) { sFrame (frame .ord) with peers := [(1, { peer1 with ordCredits := 30, bulkCredits := 32 })] })) 1).ordCredits = 31 := by decide +kernel
/-- The access of the frame asked for the direct path, which is out of service; device 31 relays to device 1. -/
def sDirect : State := { sFrame { frame .ord with sel := .direct } with
  accesses := [(8, { owner := .thread 0, master := 0, pa := 2 ^ 46, op := .write [some 1], place := .fabric, device := 1, src := (0, 0), dst := (7, 0), buffered := true, path := .direct })]
  lanes := [(31, inService)], rlytab := [(1, relayWord [31])] }
theorem witness_FramesOfThisDevice_again : peerHeld (sFrame (frame .ord)) 1 = false ∧ basicPath (sFrame (frame .ord)) 1 = some 0 ∧ pathRoom (sFrame (frame .ord)) 1 0 = true ∧ pathGone (sFrame (frame .ord)) (frame .ord) = false
    ∧ (frameAfter (exec (.frameResendTimeout 5 0) (sFrame (frame .ord)))).map Frame.sentAt = some 1600000
    ∧ pathGone sDirect { frame .ord with sel := .direct } = true ∧ namedPath .direct = some 0 ∧ pathUsable sDirect 1 0 = false ∧ txLane 0 31 = 31 ∧ basicPath sDirect 1 = some 1 ∧ pathRoom sDirect 1 1 = true
    ∧ (frameAfter (exec (.frameResendTimeout 5 0) sDirect)).map Frame.hop = some 31 ∧ (after (exec (.frameResendTimeout 5 0) sDirect)).log.length = 1
    ∧ basicPath { sFrame (frame .ord) with lanes := [] } 1 = none ∧ (frameAfter (exec (.frameResendTimeout 5 0) { sFrame (frame .ord) with lanes := [] })).map Frame.sentAt = some 0
    ∧ (frameAfter (exec (.frameResendTimeout 5 0) (sFrame { frame .ord with sentAt := 1590000 }))).map Frame.sentAt = some 1590000 := by decide +kernel
def body (c : FrameClass) : FrameBody := ⟨c, 0, 0, [0, 0, 0, 0], 1, 0x20000, .read 8, 5000, 0, 0⟩
def theirs (c : FrameClass) : FrameRef := { src := 1, id := 7, via := 1, body := some (body c) }
def sPeer (p : Peer) : State := { sLane {} with peers := [(1, p)], lanes := [(1, inService), (31, inService)] }
def sFlag : State := { sPeer peer1 with held := [{ src := 1, id := 7, body := body .flagged }] }
/-- A frame of device 1 for device 31. -/
def passing : FrameRef := { src := 1, id := 7, via := 1, body := some { body .bulk with pa := 31 * 2 ^ 46 } }
def crowd : State := { sPeer peer1 with relayed := (List.range 16).map fun n => (n, { src := 1, dst := 31, id := n, lane := 31, deadline := 1680000 }) }
theorem witness_frames_of_a_peer : isMember (sPeer peer1) 1 = true ∧ (laneAt (sPeer peer1) (rxLane 0 1)).rx = 2 ∧ paDevice (body .ord).pa = 0 ∧ 32 ≤ (0 + 2 ^ 32 - 5) % 2 ^ 32
    ∧ (after (exec (.ordFrameReceive (theirs .ord)) (sPeer peer1))).accesses.length = 1
    ∧ (after (exec (.ordFrameReceive (theirs .ord)) (sPeer { peer1 with ordHere := 5 }))).accesses.length = 0
    ∧ (after (exec (.bulkFrameReceive (theirs .bulk)) (sPeer peer1))).accesses.length = 1
    ∧ (after (exec (.bulkFrameReceive (theirs .bulk)) (sPeer { peer1 with idsHere := [7] }))).accesses.length = 0
    ∧ (after (exec (.bulkFrameReceive (theirs .flagged)) (sPeer peer1))).held.length = 1
    ∧ (after (exec (.flagFrameApply (theirs .flagged)) sFlag)).accesses.length = 1
    ∧ (after (exec (.bulkFrameReceive { theirs .bulk with body := some { body .bulk with age := 80000 } }) (sPeer peer1))).accesses.length = 0
    ∧ (frameParts 0x20020 (.read 256)).map Prod.fst = [0, 32, 96, 160, 224] := by decide +kernel
theorem witness_frames_relayed : paDevice (31 * 2 ^ 46) = 31 ∧ isMember (sPeer peer1) 31 = true ∧ rxLane 0 1 = 31
    ∧ (after (exec (.bulkFrameReceive passing) (sPeer peer1))).relayed.map Prod.snd = [{ src := 1, dst := 31, id := 7, lane := 31, deadline := 1680000 }]
    ∧ (after (exec (.bulkFrameReceive passing) crowd)).relayed.length = 16 ∧ txUp crowd 31 = true ∧ (after (exec (.relayForward 3) crowd)).relayed.length = 15
    ∧ txUp { crowd with lanes := [] } 31 = false ∧ (after (exec (.relayForward 3) { crowd with lanes := [] })).relayed.length = 16
    ∧ (after (exec (.frameAgeDiscard 3) { crowd with cc := 1680000 })).relayed.length = 15 := by decide +kernel
def sFar : State := { sFrame (frame .ord) with accesses := [(8, farWrite .fabric), (9, { farWrite .fabric with device := 1 })] }
theorem witness_PeersComeAndGo : isMember sFar 1 = true ∧ reachable sFar 1 = true ∧ usablePaths sFar 1 = [0] ∧ keysRise sFar.accesses = true ∧ keysRise sFar.rlytab = true
    ∧ (peerAt (after (exec (.keepaliveSend 1) sFar)) 1).keepaliveAt = 1600000 ∧ (peerAt (after (exec (.keepaliveReceive 1) sFar)) 1).lastHeard = 1600000
    ∧ (peerAt (after (exec (.peerSilenceHold 1) sFar)) 1).silent = true ∧ (peerAt (after (exec (.peerLost 1) sFar)) 1).reachable = false
    ∧ ((look (after (exec (.peerLost 1) sFar)).accesses 9).bind Access.answer) = some .unreachable
    ∧ (peerAt (after (exec (.peerLost 1) { sFar with peers := [(1, { peer1 with lastHeard := 1590000 })] })) 1).reachable = true
    ∧ (peerAt (after (exec (.peerLost 1) { sFar with peers := [(1, { peer1 with lastHeard := 1590000, lostAt := some 1400000 })] })) 1).reachable = false
    ∧ (peerAt (after (exec (.peerBack 1) { sFar with peers := [(1, { peer1 with reachable := false, ordSend := 9 })] })) 1).ordSend = 0 := by decide +kernel
/-- Device 33 of another group stands in RLYTAB as a relay to device 1, and has been lost. -/
def sRelay : State := { State.reset with dommap := [0, 1, 33, 65], peers := [(1, peer1), (33, { peer1 with reachable := false, lost := true }), (65, peer1)], rlytab := [(1, relayWord [33])] }
theorem witness_relay_refill : 1 ∈ sRelay.dommap ∧ ([1, 2, 3].any fun k => relayOn (rlyWord sRelay 1) k && decide (relayOf (rlyWord sRelay 1) k = 33)) = true
    ∧ look (after (exec (.relayRefill 33) sRelay)).rlytab 1 = some (relayWord [65]) ∧ (peerAt (after (exec (.relayRefill 33) sRelay)) 33).absent = true
    ∧ (after (exec (.relayRefill 1) sRelay)).rlytab = sRelay.rlytab := by decide +kernel

def handle (st : CircState) : CHandle := { state := st, gen := 3, src := 0, sink := 9, placed := true }
def program (p : List CWord) (m : CMode) (hs : List (Nat × CHandle)) : Ctx := { cohort := 2, node := ⟨0, 0⟩, prog := p, mode := m, handles := hs }
def tMember : Thread := { t0 with cohort := some ⟨2, 0, true, false⟩, vc := 5, sys := { t0.sys with landwin := 0x8000000000000000 } }
def sCtx (x : Ctx) : State := { withThread tMember with ctxs := [(2, x)], cc := 100000 }
def ctxAfter (o : Host.Outcome State Fault Refusal) : Ctx := (getCtx (after o) 2).getD (program [] .ended [])
def sOnEngine : State := { sLane inService with ctxs := [(2, program [.endc] .atStep [(1, { handle .live with sink := 128 })])] }
theorem witness_comb_circuits : keysRise sOnEngine.ctxs = true ∧ (handleAt (ctxAfter (exec (.combLoss 0) sOnEngine)) 1).state = .down
    ∧ (handleAt (ctxAfter (exec (.combLoss 0) sOnEngine)) 1).cause = 4 := by decide +kernel
def flying : Flying := { slot := 0, who := 0, ctx := 2, h := 1, gen := 3, data := List.replicate 96 1 }
def sClaimed : State := setTable ⟨0, 0x1000⟩ 1 openEntry <| setTable ⟨0, 0x7000⟩ 1 openEntry { sCtx (program [.endc] .group [(1, handle .live)]) with claims := [(9, 0)] }
def sLanding : State := { sClaimed with ports := [(0, { buf := [{ flying with tables := sClaimed.tables }] })] }
/-- A torn handle still holds the ports. -/
def sTorn : State := sCtx (program [.est 1 0 9, .step 9, .endc] .group [(2, { handle .live with tearFrom := some 0, draining := true })])
theorem witness_CircuitPrograms :
    leaderAt (sCtx (program [] .group [])) (program [] .group []) 4 = true ∧ leaderAt (sCtx (program [] .group [])) (program [] .group []) 5 = false
    ∧ (ctxAfter (exec (.step 2) (sCtx (program [.step 4, .hold 1, .step 9, .endc] .atStep [(1, handle .live)])))).idx = 2
    ∧ (handleAt (ctxAfter (exec (.step 2) (sCtx (program [.est 1 0 9, .step 9, .endc] .group [])))) 1).state = .settling
    ∧ (ctxAfter (exec (.step 2) (sCtx { program [.est 1 0 9, .step 9, .endc] .group [] with notBefore := 100001 }))).idx = 0
    ∧ estConflict (sCtx (program [.est 1 0 9, .step 9, .endc] .group [(2, handle .live)])) 2 1 0 9 = true
    ∧ estConflict sTorn 2 1 0 9 = false ∧ estHeld sTorn 2 1 0 9 = true ∧ (ctxAfter (exec (.step 2) sTorn)).pendingEst = [1]
    ∧ (handleAt (ctxAfter (exec (.step 2) (sCtx (program [.est 1 0 9, .step 9, .endc] .group [(2, { handle .live with retained := true })])))) 1).state = .down
    ∧ (ctxAfter (exec (.step 2) (sCtx (program [.jmpc 0, .endc] .group [])))).notBefore = 100001
    ∧ (handleAt (ctxAfter (exec (.step 2) (sCtx (program [.rpol 1 true, .step 9, .endc] .group [])))) 1).expert = true
    ∧ (handleAt (ctxAfter (exec (.step 2) (sCtx (program [.tear 1, .step 9, .endc] .group [(1, handle .live)])))) 1).tearFrom = some 0
    ∧ (getCtx (after (exec (.step 2) (sCtx (program [.endc] .group [])))) 2).isNone = true
    ∧ (ctxAfter (exec (.rptRepetition 2) (sCtx (program [.hold 1, .endc] (.repeating 1 5 2) [(1, handle .live)])))).mode = .repeating 2 5 2
    ∧ (ctxAfter (exec (.rptRepetition 2) (sCtx (program [.hold 1, .endc] (.repeating 1 5 5) [(1, handle .live)])))).mode = .repeating 1 5 5
    ∧ (ctxAfter (exec (.waitc 2) (sCtx (program [.waitc 1 0, .step 9, .endc] .waiting [(1, handle .live)])))).idx = 1
    ∧ condHolds (sCtx (program [] .waiting [])) (program [] .waiting [(1, handle .down)]) 1 0 = false := by decide +kernel
theorem witness_HandlesSettleAndFail :
    (handleAt (ctxAfter (exec (.circuitSettled 2 1) (sCtx (program [.endc] .atStep [(1, handle .settling)])))) 1).state = .live
    ∧ (handleAt (ctxAfter (exec (.circuitSettled 2 1) (sCtx (program [.endc] .atStep [(1, { handle .settling with since := 99761 })])))) 1).state = .settling
    ∧ (handleAt (ctxAfter (exec (.circuitFailure 2 1 2) (sCtx (program [.endc] .atStep [(1, handle .live)])))) 1).cause = 2
    ∧ (handleAt (ctxAfter (exec (.circuitFailure 2 1 2) (sCtx (program [.endc] .atStep [(1, { handle .live with expert := true })])))) 1).repairable = false
    ∧ (after (exec (.circuitFailure 16 0 1) { sCtx (program [] .ended []) with autos := [⟨0, 9, 0, 1, 0, 0⟩] })).autos = []
    ∧ (handleAt (ctxAfter (exec (.circuitRepairStart 2 1) (sCtx (program [.endc] .atStep [(1, { handle .down with repairable := true })])))) 1).gen = 4
    ∧ (handleAt (ctxAfter (exec (.circuitRepairStart 2 1) (sCtx (program [.endc] .atStep [(1, handle .down)])))) 1).state = .down
    ∧ (handleAt (ctxAfter (exec (.circuitRepairSearchEnd 2 1 false 0) (sCtx (program [.endc] .atStep [(1, { handle .repairing with repairable := true })])))) 1).cause = 6
    ∧ (handleAt (ctxAfter (exec (.circuitRepairSearchEnd 2 1 true 0) (sCtx (program [.endc] .atStep [(1, { handle .repairing with repairable := true, cause := 1, since := 99000 })])))) 1).repairable = false
    ∧ (countedMembers (sCtx (program [.endc] .atStep [])) 2).map (fun m => m.2.vc) = [5]
    ∧ (handleAt (ctxAfter (exec (.tearPerform 2 1) (sCtx (program [.endc] .atStep [(1, { handle .live with tearFrom := some 5 })])))) 1).draining = true
    ∧ (handleAt (ctxAfter (exec (.tearPerform 2 1) (sCtx (program [.endc] .atStep [(1, { handle .live with tearFrom := some 6 })])))) 1).draining = false
    ∧ (handleAt (ctxAfter (exec (.tearComplete 2 1) (sCtx (program [.endc] .atStep [(1, { handle .live with draining := true })])))) 1).state = .idle
    ∧ (after (exec (.autoCircuitIdleTear 0) { sCtx (program [] .ended []) with autos := [⟨0, 9, 0, 1, 0, 0⟩] })).autos = []
    ∧ (after (exec (.autoCircuitIdleTear 0) { sCtx (program [] .ended []) with autos := [⟨0, 9, 0, 1, 0, 70000⟩] })).autos.length = 1 := by decide +kernel
theorem witness_Landings : onItsWay sLanding 2 1 3 = true ∧ setRises sLanding.full = true ∧ isFull sLanding (scratchPa sLanding 0 0) = false ∧ refuse { sLanding with tables := sClaimed.tables } (threadMaster sLanding 0) (scratchPa sLanding 0 0) 384 rightW = none
    ∧ landingRequester 9 = 13 ∧ allServed 0 13 (lineStarts 0 384) (takeGrants (wants sLanding 0) 0 13 (lineStarts 0 384) sLanding) = true
    ∧ (threadAfter (exec (.csendLanding 0) sLanding)).sys.landed = 1 ∧ (after (exec (.csendLanding 0) sLanding)).mem.bytes (scratchPa sLanding 0 0) 5 = [1, 0, 0, 0, 1]
    ∧ allServed 0 13 (lineStarts 0 384) (takeGrants (wants (taken sLanding) 0) 0 13 (lineStarts 0 384) (taken sLanding)) = false ∧ (threadAfter (exec (.csendLanding 0) (taken sLanding))).sys.landed = 0
    ∧ isFull (setFull (scratchPa sLanding 0 0) true sLanding) (scratchPa sLanding 0 0) = true
    ∧ (threadAfter (exec (.csendLanding 0) (setFull (scratchPa sLanding 0 0) true sLanding))).sys.landed = 0 := by decide +kernel



/-! ## Engine words and chains -/

def popUp : Tok := ⟨true, false, false, false⟩
def pushDown : Tok := ⟨false, false, false, true⟩
def qWord (i : Instr) (ps : List W64) : QWord := { instr := i, params := ps, scrwin := t0.sys.scrwin, wgtwin := t0.sys.wgtwin, accwin := t0.sys.accwin, seq := 1 }
def engineWith (w : QWord) : Engine := { queue := [w] }
def runWith (r : Run) : Engine := { run := some r }
def zaccWord : QWord := qWord (.zacc noTok) [0, 16]
theorem witness_EngineWordsStart :
    engineFree t0 .c0 = true ∧ tokensReady 0 t0 .c0 (qWord (.tokenOnly .c0 popUp) []) = false ∧ tokensReady 0 t0 .c0 (qWord (.tokenOnly .c0 noTok) []) = true
    ∧ tokensReady 0 { t0 with tokens := { coreC0 := 1 } } .c0 (qWord (.tokenOnly .c0 popUp) []) = true ∧ tokensReady 0 { t0 with tokens := { coreC0 := 1 }, pushed := { coreC0 := 1 } } .c0 (qWord (.tokenOnly .c0 popUp) []) = false
    ∧ (threadAfter (exec (.copyWordStart 0 .c0) (withThread { t0 with c0 := engineWith (qWord (.tokenOnly .c0 pushDown) []) }))).c0.run.isSome = true
    ∧ tokensReady 0 t0 .m (qWord (.tokenOnly .m popUp) []) = false ∧ keysRise s0.acc = true
    ∧ (threadAfter (exec (.matrixWordStart 0) (withThread { t0 with me := engineWith (qWord (.tokenOnly .m noTok) []) }))).me.run.map Run.sent = some true
    ∧ tokensReady 0 t0 .m zaccWord = true ∧ accRead (after (exec (.matrixWordStart 0) { withThread { t0 with me := engineWith zaccWord } with acc := [(0, 5)] })) 0 0 0 = 0 ∧ zaccWord.instr = .zacc noTok := by decide +kernel
theorem witness_EngineWordFinish :
    (threadAfter (exec (.engineWordFinish 0 .m) (withThread { t0 with me := runWith { word := qWord (.tokenOnly .m pushDown) [], sent := true } }))).tokens.mC1 = 1 := by decide +kernel
theorem witness_EngineWordFinish_overflow :
    ((threadAfter (exec (.engineWordFinish 0 .m) (withThread { t0 with me := runWith { word := qWord (.tokenOnly .m pushDown) [], sent := true }, tokens := { mC1 := 255 } }))).me.fault.map fun f => f.trap.cause) = some eToken := by decide +kernel
/-- One level of two iterations, 16 columns, bf16. -/
def nestDesc : List Byte := [0, 0, 1, 255, 16, 0] ++ List.replicate 26 0 ++ [2] ++ List.replicate 95 0
def nestRun : Run := { word := qWord (.nest noTok) [0], desc := nestDesc, live := true }
/-- The table of the weight store of core 0 lets every master in. -/
def weightsOpen (s : State) : State := setTable ⟨0, 0x4000⟩ 1 openEntry s
def tNest : Thread := { t0 with me := runWith nestRun, mx := { t0.mx with act := true, prevA := some 0 } }
theorem witness_NestIteration : matrixNestOk nestDesc = true ∧ fieldAt nestDesc 16 1 % 4 = 0 ∧ nestToken 0 tNest nestRun = true ∧ arrayGrant (weightsOpen (withThread tNest)) 0 = true
    ∧ iterationOk nestRun.word .bf16 .bf16 0 0 0 0 16 = true ∧ nestSum nestDesc 0 36 4 tNest.mx.index = 0
    ∧ (doMma 0 .bf16 false 0 0 0 16 (noteArray 0 (dropMatrixPorts 0 tNest nestRun (weightsOpen (withThread tNest))))).toOption.isSome = true
    ∧ nextIndex nestDesc [0, 0, 0, 0, 0, 0] (mnLevels nestDesc) = some [1, 0, 0, 0, 0, 0] ∧ nextIndex nestDesc [1, 0, 0, 0, 0, 0] (mnLevels nestDesc) = none := by decide +kernel
theorem test_mma_denied : ((doMma 0 .bf16 false 0 64 0 16 (withThread t0)).toOption.isNone && (weightsRefused (withThread t0) 0 .bf16 64 0 16 == some (engineFaultOf eDenied (2 ^ 63 + 64) 0))) = true := by decide +kernel
def lineRun (i : Instr) (ps : List W64) (l : Line) : Run := { word := qWord i ps, lines := [(0, l)], next := 1, total := 1, live := true }
def ownTables (s : State) : State := setTable ⟨0, 0x1000⟩ 1 openEntry s
def readRun : Run := lineRun (.s2w .c0 noTok) [0, 0, 64, 0] (.reading 0)
def haveRun : Run := lineRun (.s2s .c0 noTok .basic false) [0, 0x10000, 64] (.have (List.replicate 64 7))
def sLine (r : Run) : State := ownTables (withThread { t0 with c0 := runWith r })
/-- Another requester has had the bank of the line in this cc. -/
def sBusy (r : Run) : State := { sLine r with cores := [(0, { bankLast := [(0, 32 + 7)] })] }
theorem witness_EnginePortAccess :
    engineRequester 0 .c0 = 1 ∧ allServed 0 1 [0] (takeGrants (wants (sLine readRun) 0) 0 1 [0] (sLine readRun)) = true ∧ allServed 0 1 [0] (takeGrants (wants (sBusy readRun) 0) 0 1 [0] (sBusy readRun)) = false
    ∧ (effWord readRun).revoked = false ∧ movedPa (sLine readRun) (scratchPa s0 0 0) = none ∧ lineHeld (sLine readRun) 0 (scratchPa s0 0 0) = false ∧ srcSpot (sLine readRun) readRun.word 0 = .own 0 ∧ dstSpot readRun.word 0 = .weights
    ∧ lineBad (sLine readRun) (scratchPa s0 0 0) 64 = false
    ∧ allServed 0 1 [0] (takeGrants (wants (sLine haveRun) 0) 0 1 [0] (sLine haveRun)) = true ∧ isReg (scratchPa s0 0 0) = false ∧ dstSpot haveRun.word 0 = .own 0 ∧ isSingle haveRun.word = false ∧ unpackFmt haveRun.word = none
    ∧ overlapOf (sLine haveRun) 0 haveRun.word = .none
    ∧ ((threadAfter (exec (.enginePortAccess 0 .c0 0) (sLine readRun))).c0.run.map fun r => look r.lines 0) = some (some (.have (List.replicate 64 0)))
    ∧ (after (exec (.enginePortAccess 0 .c0 0) (sLine haveRun))).mem.bytes (scratchPa s0 0 0) 2 = [7, 7] := by decide +kernel

/-- A packet of slot 0's chain 3 at address v, before step k of n. -/
def packet (v : W64) (k n : Nat) : ChainPacket := { cur := v, step := k, nsteps := n, flen := 8, masks := [BitVec.allOnes 64, 0], offs := [8, 0], sys := false, asid := 0, hops := 0 }
/-- It stands at the home of 0x20000, its address not translated (tag 0) or translated (tag 1). -/
def atHome (p : ChainPacket) (tag : Nat) : Access :=
  { owner := .chain 0 3, master := 0, pa := 0x20000, op := .chain p, place := .target, tag := tag, asid := 65536, device := 0, src := (0, 0), dst := (2, 1) }
def pending : Chain := { state := .pending, addr := 0, dest := 0x200, stat := 0x300, flen := 8, gen := t0.windowGen, order := 0 }
def tChain : Thread := { t0 with chains := [(3, pending)] }
def chainLeafWord : W64 := 0x200BD
def sStep (a : Access) (leaf : W64) : State :=
  opened { withThread tChain with
    accesses := [(4, a)], mem := s0.mem.store 0x20000 (leBytes 8 0x40)
    tlb2 := [(0, [{ asid := 0, base := 0x10000, size := .k64, leaf := leaf, level := 3 }])] }
def stepOf (o : Host.Outcome State Fault Refusal) : Option Access := look (after o).accesses 4
def codeAt (a : Option Access) : Option Nat := (a.bind Access.answer).bind fun r => match r with | .chained w _ => some (w.toNat / 2 ^ 60) | _ => none
theorem witness_ChainSteps_translate :
    canonical (0x8000000000000000 : W64) = false ∧ canonical (0xFFFF800000000000 : W64) = true ∧ systemHalf (0xFFFF800000000000 : W64) = true
    ∧ codeAt (stepOf (exec (.chainStep 4 1) (sStep (atHome (packet 0x8000000000000000 1 2) 0) chainLeafWord))) = some csTrans ∧ codeAt (stepOf (exec (.chainStep 4 1) (sStep (atHome (packet 0xFFFF800000000000 1 2) 0) chainLeafWord))) = some csPerm
    ∧ codeAt (stepOf (exec (.chainStep 4 1) (sStep (atHome (packet 0x30000 1 2) 0) chainLeafWord))) = some csTrans ∧ codeAt (stepOf (exec (.chainStep 4 1) (sStep (atHome (packet 0x10000 1 2) 0) 0x20081))) = some csPerm
    ∧ codeAt (stepOf (exec (.chainStep 4 1) (sStep (atHome (packet 0x10004 1 2) 0) chainLeafWord))) = some csAlign ∧ codeAt (stepOf (exec (.chainStep 4 2) (sStep (atHome (packet 0x10039 2 2) 0) chainLeafWord))) = some csAlign
    ∧ (stepOf (exec (.chainStep 4 0) (sStep (atHome (packet 0x10000 0 2) 0) chainLeafWord))).map Access.place = some (.out 0 0 0 false)
    ∧ (stepOf (exec (.chainStep 4 1) (sStep (atHome (packet 0x10000 1 2) 0) chainLeafWord))).map Access.tag = some 1 ∧ (stepOf (exec (.chainStep 4 1) (sStep (atHome (packet 0x10000 1 2) 0) chainLeafWord))).map Access.place = some .target
    ∧ (stepOf (exec (.chainStep 4 1) (sStep (atHome (packet 0x10040 1 2) 0) chainLeafWord))).map Access.forward = some (some 0) ∧ (stepOf (exec (.chainStep 4 1) (sStep (atHome (packet 0x10040 1 2) 0) chainLeafWord))).map Access.place = some (.out 2 1 0 false) := by decide +kernel
theorem witness_ChainSteps_read :
    refuse (sStep (atHome (packet 0x10000 0 1) 1) chainLeafWord) 0 0x20000 8 rightR = none ∧ movedPa (sStep (atHome (packet 0x10000 0 1) 1) chainLeafWord) 0x20000 = none
    ∧ (stepOf (exec (.chainStep 4 0) (sStep (atHome (packet 0x10000 0 1) 1) chainLeafWord))).map Access.op = some (.chain { packet 0x48 1 1 with cur := 0x48 })
    ∧ (stepOf (exec (.chainStep 4 1) (sStep (atHome (packet 0x10000 1 1) 1) chainLeafWord))).bind Access.answer = some (.chained (chainStatus csDone (packet 0x10000 1 1)) (leBytes 8 0x40))
    ∧ codeAt (look (after (exec (.chainStep 4 0) (sStep { atHome (packet 0x10000 0 1) 1 with denied := some 0x20000 } chainLeafWord))).accesses 4) = some csDenied
    ∧ codeAt (look (after (exec (.chainStep 4 0) { sStep (atHome (packet 0x10000 0 1) 1) chainLeafWord with eccBad := [0x800] })).accesses 4) = some csUncorr := by decide +kernel
/-- Sixteen packets of the home of 0x20000 use its forward entries. -/
def crowded : State :=
  { sStep (atHome (packet 0x10040 1 2) 0) chainLeafWord with
    accesses := (4, atHome (packet 0x10040 1 2) 0) :: (List.range 16).map fun n => (n + 10, { atHome (packet 0x10040 1 2) 1 with forward := some 0, place := .out 2 1 0 false }) }
theorem witness_ChainSteps_bounce : forwarded crowded 0 = 16 ∧ ((look (after (exec (.chainStep 4 1) crowded)).accesses 4).map Access.place) = some (.out 2 1 0 true) := by decide +kernel
/-- The answer with a status code is back at slot 0's router. -/
def back (code : Nat) : Access := { atHome (packet 0x10000 1 1) 1 with part := t0.windowGen, place := .response 0 0 0 false, performed := true, answer := some (.chained (BitVec.ofNat 64 (code * 2 ^ 60)) (leBytes 8 0x40)) }
def sBack (code : Nat) (t : Thread) : State := { withThread t with accesses := [(4, back code)] }
theorem witness_ChainReturns : returned (sBack csDone tChain) 4 (back csDone) = true ∧ setRises (sBack csDone tChain).full = true ∧ chainLanding (sBack csDone tChain) (back csDone) = some (0, [0x200, 0x300])
    ∧ allServed 0 netRequester [0x200, 0x300] (takeGrants (wants (sBack csDone tChain) 0) 0 netRequester [0x200, 0x300] (sBack csDone tChain)) = true
    ∧ isFull (after (exec (.chainReturn 4 3) (sBack csDone tChain))) (scratchPa s0 0 0x300) = true
    ∧ (after (exec (.chainReturn 4 3) (sBack csDone tChain))).mem.bytes (scratchPa s0 0 0x200) 2 = [0x40, 0]
    ∧ ((threadAfter (exec (.chainReturn 4 3) (sBack csPerm tChain))).chains.map fun c => c.2.state) = [.faulted]
    ∧ (after (exec (.chainReturn 4 3) (sBack csDone { tChain with windowGen := t0.windowGen + 1 }))).accesses = [] ∧ (threadAfter (exec (.chainReturn 4 3) (sBack csDone { tChain with windowGen := t0.windowGen + 1 }))).chains.length = 1
    ∧ ((after (exec (.chainReturn 4 3) { sBack csDone tChain with cores := [(0, { bankLast := [(8, 3 + 32)] })] })).accesses.length) = 1 := by decide +kernel


/-! ## Nodes, cohorts, pre-emption -/

/-- A page table for ASID 0 that maps the first GiB onto itself, and open tables. -/
def paged (s : State) : State :=
  opened { s with asidtab := 0x8000000000080000, mem := ((s.mem.store 0x80000 (leBytes 8 (2 ^ 63 + 0x100000))).store 0x100000 (leBytes 8 0x110001)).store 0x110000 (leBytes 8 0xBD) }
/-- A descriptor of one block. -/
def descBytes : List Byte := List.replicate 8 0 ++ [1, 0, 1, 0, 0, 1] ++ List.replicate 242 0
def launchOf (d : W64) : HubReq := { slot := 0, tag := 6, who := 0, ask := .launch d 0 false 0, asid := 0, clock := 0 }
def sLaunch (d : W64) : State := { paged s0 with hubReqs := [launchOf d], mem := (paged s0).mem.store 0x1000 descBytes }
theorem witness_Launch : reqMustWait (sLaunch 0x1000) (launchOf 0x1000) = false ∧ (hubRead 0 (threadMaster (sLaunch 0x1000) 0) false 0x1000 256 (sLaunch 0x1000)).1 = some descBytes
    ∧ descOk descBytes false = true ∧ (sLaunch 0x1000).nodes.length < 8192 ∧ entryFree (hubRead 0 (threadMaster (sLaunch 0x1000) 0) false 0x1000 256 (sLaunch 0x1000)).2 5 = true
    ∧ ((look (after (exec (.launchRequest 0 5) (sLaunch 0x1000))).nodes 5).map Node.ready) = some true := by decide +kernel
theorem witness_Launch_misaligned : (hubRead 0 (threadMaster (sLaunch 0x1020) 0) false 0x1020 256 (sLaunch 0x1020)).1.isSome = true ∧ (0x1020 : W64).toNat % 64 ≠ 0
    ∧ (after (exec (.launchRequest 0 5) (sLaunch 0x1020))).nodes = [] := by decide +kernel
def cohortAsk (a : HubAsk) : HubReq := { slot := 0, tag := 6, who := 0, ask := a, asid := 0, clock := 0 }
def sCohort (a : HubAsk) (cs : List (Nat × Cohort)) : State := { s0 with threads := [(0, { t0 with dispatched := 0 })], hubReqs := [cohortAsk a], cohorts := cs }
def someCohort (m : List (Nat × Nat)) : List (Nat × Cohort) := [(7, { lock := false, asid := 0, members := m })]
theorem witness_Cohorts : cohortOf (sCohort (.join 0 true true) []) 0 = none ∧ cohortFree (sCohort (.join 0 true true) []) 7 = true
    ∧ (look (after (exec (.cohortRequest 0 7) (sCohort (.join 0 true true) []))).cohorts 7).map Cohort.members = some [(0, 0)]
    ∧ cohortOf (sCohort (.join 7 false false) (someCohort [(4, 0)])) 0 = none ∧ bits (7 : W64).toNat 0 12 = 7
    ∧ (look (after (exec (.cohortRequest 0 9) (sCohort (.join 7 false false) (someCohort [(4, 0)])))).cohorts 7).map Cohort.members = some [(4, 0), (0, 1)]
    ∧ (look (after (exec (.cohortRequest 0 9) (sCohort (.leave 7) (someCohort [(4, 0), (0, 1)])))).cohorts 7).map Cohort.members = some [(4, 0)] := by decide +kernel
def small : Desc := { fetchDesc with scratch := 0, acccols := 0, wdata := 0, whdr := 0 }
def aNode (d : Desc) : Node := { gen := 0, asid := 0, desc := d, args := List.replicate 8 0, count := 0, ready := true, placedOnce := true, final := some 1 }
def gangDesc : Desc := { small with lock := true }
def sNode (d : Desc) : State := { State.reset with nodes := [(5, aNode d)], readyLists := [[5], [], [], []], cc := 160000 }
def place : Placement := ⟨0, 0, 0, 0⟩
theorem witness_BlockDispatch : dispatching (sNode small) = true ∧ savedOf (sNode small) 5 = false ∧ inTurn (sNode small) 5 = true
    ∧ nextBlock (aNode small) = some 0 ∧ (preferredCore (sNode small) 5 (aNode small) 0).isSome = true ∧ placeOk (usesOn (sNode small) 5 0) small place = true := by decide +kernel
theorem witness_block_core : ∃ p, preferredCore (sNode small) 5 (aNode small) 0 = some (coreOf p.slot) ∧ placeOk (usesOn (sNode small) 5 (coreOf p.slot)) small p = true
    ∧ (getThread (after (exec (.blockDispatch 5 p) (sNode small))) p.slot).isSome = true := ⟨place, by decide +kernel⟩
theorem witness_Gangs : gangDesc.gx * gangDesc.gy = 1 ∧ (aNode gangDesc).next = 0 ∧ cohortFree (sNode gangDesc) 7 = true ∧ gangOk (sNode gangDesc) 5 (aNode gangDesc) [place] [] = true
    ∧ ((getThread (after (exec (.gangDispatch 5 7 0 [place]) (sNode gangDesc))) 0).bind Thread.cohort) = some ⟨7, 0, true, false⟩
    ∧ waitingGangs (sNode gangDesc) = [5] ∧ strictOk (sNode gangDesc) (aNode gangDesc) [place] = true ∧ reserveOk (aNode gangDesc) [place] [] = true
    ∧ (after (exec (.gangReservation 5 [place]) (sNode gangDesc))).reservation = some ⟨5, [place]⟩ := by decide +kernel
def sOver (comp : W64) (succ : List (Nat × Nat × Bool)) : State :=
  { paged State.reset with nodes := [(5, { aNode { small with comp := comp, succ := succ } with next := 1, done := 1 }), (6, { aNode small with count := 1, ready := false })] }
theorem witness_NodeCompletion : nodeOver (sOver 0 [(6, 0, false)]) 5 { aNode { small with succ := [(6, 0, false)] } with next := 1, done := 1 } = true
    ∧ nodeOver (sNode small) 5 (aNode small) = false ∧ keysRise (sOver 0 []).nodes = true
    ∧ ((look (after (exec (.nodeCompletion 5) (sOver 0 [(6, 0, false)]))).nodes 6).map Node.ready) = some true
    ∧ (hubWrite 0 (firmwareMaster (sOver 0x2000 [])) 0x2000 (bytes64 5) (sOver 0x2000 [])).1 = true
    ∧ leNat ((after (exec (.nodeCompletion 5) (sOver 0x2000 []))).mem.bytes 0x2000 8) = 2 ^ 32 + 5 := by decide +kernel
def shapeDesc : Desc := { small with gx := 8, shape := true, floor := 2, ceil := 8 }
def publishing (e : Nat) : Access := { access (.shapepub 5 e) .target with dst := (0, 0) }
def sShape (e : Nat) (fin : Option Nat) : State := { sNode shapeDesc with
  accesses := [(4, publishing e)]
  nodes := [(5, { aNode shapeDesc with final := fin })] }
theorem witness_ShapeResolution : ((sShape 6 none).accesses.find? (fun a => decide (a.2.owner = .thread 0) && atTarget (sShape 6 none) a.1 a.2)).isSome = true
    ∧ (namedNode (sShape 6 none) 5).map Prod.fst = some 5
    ∧ ((look (after (exec (.shapeResolution 0) (sShape 6 none))).nodes 5).bind Node.final) = some 6
    ∧ ((look (after (exec (.shapeResolution 0) (sShape 9 none))).nodes 5).bind Node.final) = some 8
    ∧ ((look (after (exec (.shapeResolution 0) (sShape 9 none))).nodes 5).bind Node.fault).isSome = true
    ∧ ((look (after (exec (.shapeResolution 0) (sShape 6 (some 6)))).accesses 4).bind Access.answer) = some .ack := by decide +kernel

/-- A PREEMPT command names the node of the thread; its window is one page. -/
def tWanted : Thread := { t0 with node := ⟨9, 0⟩, sys := { t0.sys with scrwin := 0x100000000, wgtwin := 0, accwin := 0 } }
def sWanted : State := { withThread tWanted with commands := [(1, { slot := 0, bytes := List.replicate 252 0 ++ [4, 0, 0, 0], started := true, nodes := [⟨9, 0⟩] })], nodes := [(9, { aNode small with next := 1 })] }
def sStop : State := { sWanted with threads := [(0, { tWanted with stopping := true })] }
theorem witness_Preemption : group sWanted 0 = [0] ∧ wanted sWanted 0 = true ∧ wanted s0 0 = false
    ∧ (threadAfter (exec (.preemption 0) sWanted)).stopping = true
    ∧ drained sStop 0 { tWanted with stopping := true } = true ∧ keysRise sStop.threads = true
    ∧ drained { sStop with hubReqs := [launchOf 0] } 0 { tWanted with stopping := true } = false
    ∧ (getThread (after (exec (.preemption 0) sStop)) 0).isNone = true ∧ (after (exec (.preemption 0) sStop)).contexts.length = 1 := by decide +kernel
def saved : SavedThread := { slot := 0, thread := { tWanted with vc := 9 }, scratch := [1, 2], fullBits := [], weights := [], acc := [], reissue := [], walks := [], asks := [] }
def sSaved : State := { State.reset with contexts := [(3, { threads := [saved], program := none, shootdown := 0, device := 0 })], nodes := [(9, { aNode small with next := 1 })], readyLists := [[9], [], [], []] }
theorem witness_Restore : preemptAsked sSaved ⟨9, 0⟩ = false ∧ inTurn sSaved 9 = true ∧ keysRise sSaved.contexts = true ∧ restoreOk sSaved [(saved, 0)] [] = true
    ∧ restoreOk { sSaved with threads := [(0, t0)] } [(saved, 0)] [] = false
    ∧ (getThread (after (exec (.contextRestore 3 [0] 0 0) sSaved)) 0).map Thread.vc = some 9 := by decide +kernel


/-! ## Registers, the host, starts and eviction -/

/-- A copy word of a halted channel has a line under way. -/
def sDropped : State := { withThread { t0 with c0 := { queue := [zaccWord], fault := some ⟨trapOf tEngineFault 0 0, false⟩, lastSeq := 4 } } with
  accesses := [(4, { access (.write [some 1]) .target with owner := .engine 0 .c0 0 })] }
theorem witness_RegisterWrites :
    (threadAfter (exec (.asidregWrite 0 5) (withThread tHandle))).handles.getD 3 {} = { window with state := .revoked }
    ∧ ((threadAfter (exec (.srseedWrite 0 0) s0)).lfsr.getD 0 0) = lfsrSeed 0 0
    ∧ (threadAfter (exec (.frecpop 0) (withThread { t0 with faultQueue := [notice 3 true 1, notice 6 true 1] }))).faultQueue = [notice 6 true 1]
    ∧ (threadAfter (exec (.wdlimitWrite 0 7) (withThread { t0 with watch := 9 }))).watch = 0
    ∧ (threadAfter (exec (.chdrop 0 1) (withThread { t0 with c0 := { queue := [zaccWord], fault := some ⟨trapOf tEngineFault 0 0, false⟩, lastSeq := 4 } }))).c0.doneSeq = 4
    ∧ (threadAfter (exec (.mnest1Drop 0) (withThread { t0 with me := { queue := [zaccWord], fault := some ⟨trapOf tEngineFault 0 0, false⟩ } }))).me.queue = []
    ∧ (look (after (exec (.asidregWrite 0 5) (withThread tHandle))).accAsid 0).map (fun l => l.contains 5) = some true
    ∧ ((look (after (exec (.chdrop 0 1) sDropped)).accesses 4).map fun a => (a.owner, a.void)) = some (.gone, true)
    ∧ writeTraps t0 0x066 0x8000000000000000 = [] ∧ writeTraps t0 0x066 0x8000000000000001 ≠ []
    ∧ look (after (exec (.landwinWrite 0 0x8000000000000000) s0)).claims 0 = some 0
    ∧ flag (threadAfter (exec (.landwinWrite 0 0x8000000000000000) { s0 with claims := [(0, 4)] })).sys.landwin.toNat 63 = false
    ∧ flag State.reset.cmdring.toNat 0 = false ∧ (after (exec (.cmdringEnable 0x12301) { State.reset with ringIndex := 5 })).ringIndex = 0
    ∧ (after (exec (.cmdringEnable 0x401) { State.reset with cmdring := 0x301, ringIndex := 5 })).ringIndex = 5
    ∧ (after (exec (.cmdringDisable 0x301) State.reset)).cmdring = 0x300
    ∧ tableEntry (after (exec (.accessTableWrite 0x300400 63 openEntry) State.reset)) ⟨3, 0x400⟩ 63 = openEntry
    ∧ (threadAfter (exec (.registerWrite (.thread 0 0x014) 0x1F) s0)).sys.trappc = 0x10
    ∧ isFirmware State.reset 3072 = true ∧ isFirmware State.reset (4096 + 3072) = false ∧ refuse State.reset 3072 (hubPa State.reset + 0x200010) 8 rightW = none ∧ refuse State.reset 0 (hubPa State.reset + 0x200010) 8 rightW ≠ none
    ∧ (after (exec (.registerWrite (.hub 0x200010 3072) 0x43) State.reset)).tvecdef = 0x41 := by decide +kernel
def hostRead : HostReq := ⟨true, false, 0x1000000020, 8, 0⟩
def hostAdd (o : Nat) : HostAtomic := ⟨.fetchAdd, true, o, 5, 0⟩
theorem witness_HostAccesses : windowPa State.reset true 0x1000000020 = some 0x40000000020 ∧ windowPa State.reset false 0x1000000 = none
    ∧ (look (after (exec (.hostAccess hostRead) State.reset)).accesses 1).map Access.op = some (.read 8)
    ∧ (after (exec (.hostAccess ⟨false, false, 0x1000000, 8, 0⟩) State.reset)).accesses = []
    ∧ (look (after (exec (.hostAtomicop (hostAdd 8)) State.reset)).accesses 1).map Access.op = some (.amo .add .w8 5)
    ∧ (after (exec (.hostAtomicop (hostAdd 4)) State.reset)).accesses = [] := by decide +kernel
def cmd (type small : Nat) (b : List Byte) : Command := { slot := 15, bytes := List.replicate 12 0 ++ leBytes 4 small ++ b ++ List.replicate (236 - b.length) 0 ++ [BitVec.ofNat 8 type, 0, 0, 0x5A] }
def sRing (valid : Byte) : State := { State.reset with cmdring := 0x10401, ringIndex := 15, mirror := State.reset.mirror.store (256 * 15) (List.replicate 255 0 ++ [valid]) }
def doneCmd : Command := { cmd 0 0 [] with bytes := leBytes 8 0x40 ++ [0, 0, 0x85] ++ List.replicate 245 0, started := true, finished := true }
theorem witness_Ring : (after (exec .commandConsume (sRing 0x5A))).ringIndex = 0 ∧ (after (exec .commandConsume (sRing 0x5A))).ringPass = 1
    ∧ (after (exec .commandConsume (sRing 0x5A))).consumed = 1 ∧ (after (exec .commandConsume (sRing 0xA5))).consumed = 0
    ∧ (after (exec (.commandCompletion 3) { State.reset with commands := [(3, doneCmd)] })).msix = [5]
    ∧ (after (exec (.commandCompletion 3) { State.reset with commands := [(3, doneCmd)] })).hostMem.bytes 0x40 8 = bytes64 (commandWord doneCmd 0 0 0)
    ∧ cmdType (cmd 5 0 []) = 5 ∧ (after (exec (.commandCompletion 3) { State.reset with commands := [(3, cmd 5 0 [])] })).commands.length = 1 := by decide +kernel
def sCmd (c : Command) : State := { paged State.reset with commands := [(3, c)] }
def cmdAfter (o : Host.Outcome State Fault Refusal) : Option (Bool × Nat) := (look (after o).commands 3).map fun c => (c.finished, c.status)
def launchCmd : Command := cmd 1 1 (leBytes 8 0x1000)
def sLaunchCmd : State := { sCmd launchCmd with mem := (paged State.reset).mem.store 0x1000 descBytes }
theorem witness_HostCommands : serving (sCmd (cmd 0 0 [])) = true ∧ mayStart (sCmd (cmd 0 0 [])) 3 (cmd 0 0 []) = true ∧ headerOk (cmd 0 0 []) 16 = true
    ∧ cmdAfter (exec (.nopCommand 3) (sCmd (cmd 0 0 []))) = some (true, 0) ∧ cmdAfter (exec (.nopCommand 3) (sCmd (cmd 0 1 []))) = some (true, 1)
    ∧ cmdAfter (exec (.nopCommand 3) { sCmd (cmd 0 0 []) with evstate := 1 }) = some (true, 2) ∧ cmdAfter (exec (.settvec 3) (sCmd (cmd 0 0 []))) = some (false, 0)
    ∧ headerOk launchCmd 24 = true ∧ (hubRead 0 (firmwareMaster sLaunchCmd) false 0x1000 256 sLaunchCmd).1 = some descBytes ∧ descOk descBytes true = true ∧ (parseDesc descBytes).succ = []
    ∧ ((look (after (exec (.launchCommand 3 [5]) sLaunchCmd)).nodes 5).bind Node.command) = some 3 := by decide +kernel
theorem witness_HostCommands_pages : headerOk (cmd 2 1 (leBytes 8 0)) 24 = true ∧ fieldAt (cmd 2 1 (leBytes 8 0)).bytes 16 1 % 4 ≠ 3
    ∧ (after (exec (.shootdown 3) { sCmd (cmd 2 1 (leBytes 8 0)) with tlb1 := sTlb.tlb1, tlb2 := [(0, [fetchTlb s0])] })).tlb2.all (fun e => e.2.isEmpty) = true
    ∧ headerOk (cmd 3 0 (leBytes 8 0 ++ leBytes 8 0x20000 ++ leBytes 8 0x3000)) 40 = true
    ∧ (writableAll 0 0x3000 1 (sCmd (cmd 3 0 (leBytes 8 0 ++ leBytes 8 0x20000 ++ leBytes 8 0x3000)))).1 = true
    ∧ cmdAfter (exec (.harvest 3) (sCmd (cmd 3 0 (leBytes 8 0 ++ leBytes 8 0x20000 ++ leBytes 8 0x3000)))) = some (true, 0)
    ∧ cmdAfter (exec (.harvest 3) { State.reset with commands := [(3, cmd 3 0 (leBytes 8 0 ++ leBytes 8 0x20000 ++ leBytes 8 0x3000))] }) = some (true, 3) := by decide +kernel
def nodeCmd (ty : Nat) : State := { sCmd (cmd ty 0 (leBytes 8 9)) with nodes := [(9, aNode small)] }
def substCmd : Command := cmd 9 1 ([1, 0, 2, 0] ++ List.replicate 4 0 ++ leBytes 8 (2 ^ 46) ++ leBytes 8 (2 ^ 47) ++ leBytes 8 (2 ^ 21))
def sSubst : State := { sCmd substCmd with dommap := [0, 1, 2], peers := [(1, { peer1 with reachable := false }), (2, peer1)] }
theorem witness_HostCommands_others : headerOk (cmd 4 0 (leBytes 8 9)) 24 = true ∧ (cmdNode (nodeCmd 4) (cmd 4 0 (leBytes 8 9))).isSome = true ∧ cmdNode (sCmd (cmd 4 0 (leBytes 8 9))) (cmd 4 0 (leBytes 8 9)) = none
    ∧ ((look (after (exec (.preempt 3) (nodeCmd 4))).commands 3).map Command.nodes) = some [⟨9, 0⟩] ∧ cmdAfter (exec (.preempt 3) (sCmd (cmd 4 0 (leBytes 8 9)))) = some (true, 1)
    ∧ ((look (after (exec (.abort 3) (nodeCmd 8))).nodes 9).map Node.stop) = some true ∧ keysRise (nodeCmd 8).nodes = true
    ∧ headerOk (cmd 5 0 (List.replicate 32 1 ++ leBytes 8 0x40)) 56 = true ∧ cmdAfter (exec (.attest 3) (sCmd (cmd 5 0 (List.replicate 32 1 ++ leBytes 8 0x40)))) = some (true, 0)
    ∧ (after (exec (.redirclr 3) { sCmd (cmd 6 1 []) with redirects := [{ dev := 1, dest := 2, ranges := [] }, { dev := 4, dest := 2, ranges := [] }] })).redirects.map (fun r => r.dev) = [4]
    ∧ (after (exec (.settvec 3) (sCmd (cmd 7 0 (leBytes 8 0x43))))).tvecdef = 0x41
    ∧ headerOk substCmd 48 = true ∧ zeroAt substCmd.bytes 20 4 = true ∧ (substRanges substCmd).all (rangeOk 1 2) = true ∧ reachable sSubst 1 = false ∧ reachable sSubst 2 = true
    ∧ (after (exec (.subst 3) sSubst)).redirects.length = 1 := by decide +kernel
def serviceOf (o : Host.Outcome State Fault Refusal) : Service := (after o).service
def sOff : State := { State.reset with service := .unpowered }
theorem witness_Starts : serviceOf (exec (.start true false) State.reset) = .starting true false ∧ serviceOf (exec (.start true true) { State.reset with service := .starting true true }) = .starting false false
    ∧ serviceOf (exec .startComplete { State.reset with service := .starting false false }) = .running ∧ State.reset.mem.wf = true
    ∧ (after (exec .startComplete { State.reset with service := .starting true true, mem := [(5, 7)] })).mem.read 5 = 7 ∧ (after (exec .startComplete { State.reset with service := .starting true false, mem := [(5, 7)] })).mem.read 5 = 0
    ∧ startCheck State.reset.cfg = .none ∧ startCheck { State.reset.cfg with fwSigned := false } = .badFw ∧ startCheck { State.reset.cfg with signed := false } = .badCfg
    ∧ startCheck { State.reset.cfg with minVersion := 2, fwVersion := 1 } = .badFw
    ∧ serviceOf (exec .powerOn sOff) = .starting false false ∧ serviceOf (exec (.start false false) sOff) = .unpowered ∧ serviceOf (exec .powerLoss State.reset) = .unpowered
    ∧ serviceOf (exec .packageOutOfService (nodeCmd 4)) = .outOfService ∧ serviceOf (exec .dieLimit State.reset) = .outOfService
    ∧ serviceOf (exec .lockstepMismatch { State.reset with mismatchAt := some 0, cc := 1600000000 }) = .outOfService
    ∧ serviceOf (exec .lockstepMismatch { State.reset with mismatchAt := some 0, cc := 1600000001 }) = .running
    ∧ (after (exec .thermalThrottle State.reset)).throttled = true ∧ keysRise (withAccess { access (.write [some 1]) .target with host := true }).accesses = true
    ∧ answerOf (exec .erardLinkDown (withAccess { access (.write [some 1]) .target with host := true })) = some .unreachable := by decide +kernel
def evictCmd (n : Byte) : List Byte := [0x10, n, 1, 0, 0, 0, 0, 0] ++ leBytes 8 0x200000 ++ leBytes 8 (2 ^ 46 + 0x400000) ++ leBytes 8 (2 ^ 21)
def sEvict (e : Nat) : State := { sPeer peer1 with evstate := e, evictTo := 1, evictRanges := [⟨0x200000, 2 ^ 46 + 0x400000, 2 ^ 21⟩], mem := [(0x200005, 9)] }
def evOf (o : Host.Outcome State Fault Refusal) : Nat := (after o).evstate
/-- Device 1 hands over one node and one context. -/
def moved : MovedWork := { nodes := [(7, { aNode small with count := 2, command := some 3 })], contexts := [], lists := [[7], [], [], []], fresh := 9 }
theorem witness_Eviction_moves : ({ sPeer peer1 with peerEvicts := [(1, 31)] } : State).frames = [] ∧ workOk moved = true ∧ (State.reset).nodes = [] ∧ (State.reset).cohorts = []
    ∧ ((receiveWork 1 moved State.reset).bind fun v => (look v.nodes 7).map fun y => (y.count, y.command)) = some (2, none)
    ∧ (after (exec (.moveDoneNotice 1 31 []) { sPeer peer1 with peerEvicts := [(1, 31)], frames := [(5, frame .ord)] })).redirects = []
    ∧ ([1, 2, 3].any fun k => relayOn (rlyWord sRelay 1) k && decide (relayOf (rlyWord sRelay 1) k = 33)) = true
    ∧ look (after (exec (.evictNotice 33 1) sRelay)).rlytab 1 = some (relayWord [65]) := by decide +kernel
theorem witness_Eviction : evOf (exec (.evict (evictCmd 1)) (sPeer peer1)) = 1 ∧ evOf (exec (.evict (evictCmd 0)) (sPeer peer1)) = 0
    ∧ evOf (exec .evictionMoving (sEvict 1)) = 2 ∧ reachable (sEvict 2) 1 = true ∧ evOf (exec .evictionRedirected (sEvict 2)) = 3
    ∧ (after (exec .evictionRedirected (sEvict 2))).mem.read (2 ^ 46 + 0x400005) = 9
    ∧ evOf (exec .evictionDrained (sEvict 3)) = 4 ∧ (after (exec .safeToUnlatch (sEvict 4))).unlatch = 1 ∧ evOf (exec (.evictionFailed 3) (sEvict 2)) = 63
    ∧ evOf (exec (.evictionFailed 1) (sEvict 63)) = 0
    ∧ (after (exec (.evictNotice 1 31) (sPeer peer1))).peerEvicts = [(1, 31)]
    ∧ rangeOk 1 31 ⟨2 ^ 46, 31 * 2 ^ 46, 2 ^ 21⟩ = true ∧ (after (exec (.moveDoneNotice 1 31 [⟨2 ^ 46, 31 * 2 ^ 46, 2 ^ 21⟩]) { sPeer peer1 with peerEvicts := [(1, 31)] })).redirects.length = 1
    ∧ (after (exec (.identityMemoryRead 3 4) State.reset)).busAnswer.length = 4 := by decide +kernel

/-! ## Reset, invariant, step -/

theorem witness_reset_inv : State.reset.Inv := ⟨rfl, rfl, rfl⟩
theorem test_reset_reads_zero : State.reset.mem.read 0x1234 = 0 ∧ State.reset.cmdring = 0x400 ∧ State.reset.threads = [] := ⟨rfl, rfl, rfl⟩
theorem witness_StepKeepsInv : s0.mem.wf = true ∧ s0.hostMem.wf = true ∧ s0.mirror.wf = true := by decide +kernel
def sIssue (w : Nat) : State := State.reset.withFetchWord 32 w
theorem witness_StepRunsDecoded : (sIssue 0x02380001).agenda = [.issue 0] ∧ issueAllowed (sIssue 0x02380001) 0 = true ∧ currentSlot (sIssue 0x02380001) 0 = 0
    ∧ mayPresent (sIssue 0x02380001) t0 = true
    ∧ (match fetchBundle (sIssue 0x02380001) 0 t0 with
      | .word w => (match decodeBundle w.toNat with | .ok b => partsOf b == [(0, .add (.q 3) (.n 0) true)] | .error _ => false)
      | .trap _ => false
      | .miss => false) = true
    ∧ placeOf (.add (.q 3) (.n 0) true) = some 0 ∧ nextEvent State.reset = none ∧ nextCore { s0 with agenda := [] } = some 0 ∧ opOf (.lanePinWrite 0 true 0) = none := by decide +kernel
theorem test_step_runs_the_bundle : (threadAfter (step (sIssue 0x02380001))).vc = 1 ∧ (threadAfter (step (sIssue 0x02380001))).pc = 0x10 := by decide +kernel
theorem witness_DecodeEncode : Instr.wellFormed (.add (.q 3) (.n 0) true) = true ∧ encode (.add (.q 3) (.n 0) true) = some ⟨.s, 0x02380001⟩
    ∧ (decode .s 0x02380001).toOption = some (.add (.q 3) (.n 0) true) := by decide +kernel

/-! R91, R94, R195, R373, R374. -/
theorem test_weight_store_denies_engine : refuseAt State.reset (engineMaster State.reset 0 .c0) (weightPa State.reset 0 0 0) rightR = some 0
    ∧ refuseAt State.reset (firmwareMaster State.reset) (weightPa State.reset 0 0 0) rightR = none := by decide +kernel
theorem test_handler_fetches_afresh : (threadAfter (.next (raiseTrap 0 (trapOf tPageFault 5) (withThread { tVec with fetchFault := some (1, 2) })))).fetchFault = none := by decide +kernel
def xlatFlight : Item := { due := 9, issued := 1, rank := 1, value := some (.scalar (.val 5)), post := .handle 3 { state := .valid } }
theorem test_rft_keeps_handle : ((threadAfter (exec .rft (withThread { tHandler with flight := [xlatFlight] }))).flight.map Item.mute) = [true]
    ∧ ((pushDue (threadAfter (exec .rft (withThread { tHandler with flight := [xlatFlight] })))).handles.getD 3 {}).state = .valid
    ∧ (pushDue (threadAfter (exec .rft (withThread { tHandler with flight := [xlatFlight] })))).regs.q = tHandler.regs.q := by decide +kernel


/-! ## Speculative blocks, shape queries (R316, R353 to R356, R363) -/

def specThread : Thread := { tHandle with spec := true, node := ⟨9, 0⟩ }
def specLineOf (b : List Byte) : SpecLine := { slot := 0, node := ⟨9, 0⟩, line := 0, pa := 0x20000, va := 0x10000, asid := 0, bytes := b.map some ++ List.replicate (64 - b.length) none }
def sSpec : State := opened (withThread specThread)
def sBuffered : State := { sSpec with specLines := [specLineOf [7, 8]] }
theorem witness_ShapeInstructions_store : AtTurn sSpec specThread ∧ poisonS specThread [.q 0, .q 1] = [] ∧ specLocal sSpec (handleOf specThread 3) 0x10000 = true ∧ handlePa (handleOf specThread 3) 0x10000 % 8 = 0
    ∧ handleTraps sSpec specThread (threadMaster sSpec 0) 2 3 0 8 8 rightW permW = [] ∧ handleTraps sSpec specThread (threadMaster sSpec 0) 2 3 0 8 8 rightR permR = []
    ∧ specRoom sSpec specThread [0x20000] = true ∧ loadHits sSpec 0 specThread (handleOf specThread 3) 0x10000 8 = false ∧ storeWaiting sSpec 0 = false ∧ respRoom sSpec (.thread 0) 1 = true
    ∧ feDone specThread = false ∧ ((after (exec (.gst (.q 0) 3 (.q 1) .d 0) sSpec)).specLines.map SpecLine.pa) = [0x20000]
    ∧ (after (exec (.gst (.q 0) 3 (.q 1) .d 0) sSpec)).accesses = [] ∧ (threadAfter (exec (.trap 1) sSpec)).deferredTrap.isSome = true := by
  unfold AtTurn
  decide +kernel
theorem witness_ShapeInstructions_load : AtTurn sBuffered specThread ∧ loadHits sBuffered 0 specThread (handleOf specThread 3) 0x10000 8 = false
    ∧ ((look (after (exec (.gld (.q 0) 3 .d 0) sBuffered)).accesses (s0.fresh + 1)).map Access.ownBytes) = some [some 7, some 8, none, none, none, none, none, none] := by
  unfold AtTurn
  decide +kernel
theorem witness_ShapeInstructions_settle : keysRise sBuffered.threads = true ∧ specThread.spec = true ∧ specBlocks sBuffered ⟨9, 0⟩ (fun _ => true) = [specThread.line]
    ∧ specThread.line < 1 ∧ earlierLoads sBuffered ⟨9, 0⟩ 0 = false ∧ specThread.life = .running ∧ specThread.deferredTrap = none ∧ isReg (specLineOf [7, 8]).pa = false ∧ sBuffered.mem.wf = true
    ∧ (settleNode ⟨9, 0⟩ 1 sBuffered).mem.bytes 0x20000 3 = [7, 8, 0] ∧ (getThread (settleNode ⟨9, 0⟩ 0 sBuffered) 0).isNone = true
    ∧ (settleNode ⟨9, 0⟩ 0 sBuffered).mem.bytes 0x20000 3 = [0, 0, 0] ∧ earlierLoads { sBuffered with accesses := [(2, heldRead)] } ⟨9, 0⟩ 0 = true
    ∧ (settleNode ⟨9, 0⟩ 1 { sBuffered with accesses := [(2, heldRead)] }).specLines.length = 1 := by decide +kernel
def shapeAsk : HubReq := { slot := 0, tag := 6, who := 0, ask := .query 5, asid := 0, clock := 0 }
theorem witness_ShapeInstructions_answer : ∃ s : State, s.hubReqs = [shapeAsk] ∧ shapeAsk.ask = .query 5 ∧ shapeAsk.tag ≠ 0 ∧ getThread s shapeAsk.slot = some t0
    ∧ shapeAsk.asked < s.cc ∧ shapeAsk.asked + Config.hubDelay shapeAsk.tag ≤ s.cc :=
  ⟨{ s0 with hubReqs := [shapeAsk], cc := Config.hubDelay 6 + 1 }, rfl, rfl, by decide, turn0.1, Nat.succ_pos _, by simp [shapeAsk]⟩
theorem witness_ShapeInstructions_early : ({ s0 with hubReqs := [shapeAsk] } : State).cc ≤ shapeAsk.asked := Nat.le_refl _

/-! ## Fences that hold (R310 to R313) -/

def chainedAt (c : CState) : Thread := { t0 with chains := [(3, { state := c, addr := 0, dest := 0, stat := 8, flen := 8, gen := 0, order := 0 })] }
def busyWord (i : Instr) : QWord := { instr := i, params := [0, 16], scrwin := 0, wgtwin := 0, accwin := 0, seq := 1 }
def faultSeen (o : Bool) : Option EFault := some ⟨trapOf tEngineFault 0 0, o⟩
theorem witness_Fences_hold : at0 { t0 with me := { queue := [busyWord (.zacc noTok)] } } ∧ engineIdle { queue := [busyWord (.zacc noTok)] } = false
    ∧ after (exec (.fenceQ 1) (withThread { t0 with me := { queue := [busyWord (.zacc noTok)] } })) = withThread { t0 with me := { queue := [busyWord (.zacc noTok)] } }
    ∧ pendingFaults { t0 with me := { queue := [busyWord (.zacc noTok)], fault := faultSeen true } } (namedEngines 1) = []
    ∧ (pendingFaults { t0 with me := { queue := [busyWord (.zacc noTok)], fault := faultSeen false } } (namedEngines 1)).length = 1
    ∧ (threadAfter (exec (.fenceQ 1) (withThread { t0 with me := { queue := [busyWord (.zacc noTok)], fault := faultSeen true } }))).pc = 0x10
    ∧ (threadAfter (exec (.fenceQ 2) (withThread { t0 with me := { queue := [busyWord (.zacc noTok)] } }))).pc = 0x10
    ∧ (threadAfter (exec (.fenceQ 8) (withThread (chainedAt .pending)))).pc = 0 ∧ (threadAfter (exec (.fenceQ 1) (withThread (chainedAt .pending)))).pc = 0x10
    ∧ ((threadAfter (exec .fenceSys (withThread { t0 with me := { queue := [busyWord (.zacc noTok)] } }))).wait.isSome) = true := by
  repeat' first | decide +kernel | exact rfl | refine ⟨?_, ?_⟩
def hostWrite : Access := { heldStore with host := true }
def hostCap : GCap := { hnd := 3, off := 0, va := 0, pa := 0, host := true, asid := 0, base := 0, size := 65536, perm := 7 }
def tHostCopy : Thread := { t0 with c0 := { queue := [{ busyWord (.s2g .c0 noTok .basic false) with params := [0, 0, 64], caps := [hostCap] }] } }
theorem witness_Fences_host : hostStores { s0 with accesses := [(2, hostWrite)] } 0 = true ∧ ((threadAfter (exec .fenceHost { s0 with accesses := [(2, hostWrite)] })).wait.isSome) = true
    ∧ hostEngine (withThread tHostCopy) 0 tHostCopy .c0 = true ∧ engineIdle tHostCopy.c0 = false ∧ ((threadAfter (exec .fenceHost (withThread tHostCopy))).wait.isSome) = true
    ∧ hostEngine (withThread { t0 with me := { queue := [busyWord (.zacc noTok)] } }) 0 { t0 with me := { queue := [busyWord (.zacc noTok)] } } .m = false
    ∧ (threadAfter (exec .fenceHost (withThread { t0 with me := { queue := [busyWord (.zacc noTok)] } }))).pc = 0x10 := by decide +kernel

/-! ## Words of the matrix engine (R258 to R266) -/

def tWord (i : Instr) (ps : List W64) : Thread := { t0 with me := runWith { word := qWord i ps } }
/-- The lines that the word in progress touches have been granted in earlier cc. -/
def served (s : State) (t : Thread) : State := { s with cores := [(0, { served := (match t.me.run with | some r => mLines t r | none => []).map fun l => (engineRequester 0 .m, l) })] }
def sMatrix (t : Thread) : State := served (ownTables (weightsOpen (withThread t))) t
/-- The lines that the word in progress of slot 0 touches are all granted in this cc. -/
def mGranted (s : State) (t : Thread) : Bool :=
  let v := readLimit 0 s
  match t.me.run with
  | some r => allServed 0 (engineRequester 0 .m) (mLines t r) (takeGrants (wants v 0) 0 (engineRequester 0 .m) (mLines t r) v)
  | none => false
def faultOf (t : Thread) (e : Eng) : Option (Nat × Nat) := (getEngine t e).fault.map fun f => (f.trap.code, f.trap.cause)
theorem witness_MatrixWords_start : streams (.mma noTok .bf16) = true ∧ arrayGrant (sMatrix { t0 with me := engineWith (qWord (.mma noTok .bf16) [0, 0, 16]) }) 0 = true
    ∧ tokensReady 0 t0 .m (qWord (.mma noTok .bf16) [0, 0, 16]) = true ∧ streams (.lda noTok .i8) = false := by decide +kernel
def tLda : Thread := tWord (.lda noTok .i8) [0]
theorem witness_MatrixWords_lda : mGranted (sMatrix tLda) tLda = true ∧ mExtent (sMatrix tLda) 0 0 9216 rightR = none
    ∧ (threadAfter (exec (.matrixWordStart 0) (sMatrix tLda))).mx.fresh = true ∧ ((threadAfter (exec (.matrixWordStart 0) (sMatrix tLda))).me.run.map Run.sent) = some true
    ∧ (mRefused (served (withThread tLda) tLda) 0 0 9216 rightR).isSome = true ∧ faultOf (threadAfter (exec (.matrixWordStart 0) (served (withThread tLda) tLda))) .m = some (tEngineFault, eDenied) := by decide +kernel
def tBlocks : Thread := tWord (.lda noTok .sb4) [0]
/-- The second row of blocks has an unassigned format code. -/
def sBadRow : State := { sMatrix tBlocks with mem := s0.mem.store (scratchPa s0 0 64) [1] }
theorem witness_MatrixWords_lda_row : mGranted sBadRow tBlocks = true ∧ mExtent sBadRow 0 0 6144 rightR = none ∧ (mRow .sb4 (List.replicate 64 0)).toOption.isSome = true
    ∧ (mRow .sb4 (1 :: List.replicate 63 0)).toOption.isNone = true ∧ ((threadAfter (exec (.matrixWordStart 0) sBadRow)).me.fault.map fun f => (f.trap.code, f.trap.arg0)) = some (tFormat, 64) := by decide +kernel
def tLdac : Thread := tWord (.ldac noTok true .i8) [0]
theorem witness_MatrixWords_ldac : mGranted (sMatrix tLdac) tLdac = true ∧ accUncorrectable (sMatrix tLdac) 0 0 96 = none
    ∧ (threadAfter (exec (.matrixWordStart 0) (sMatrix tLdac))).mx.fresh = true := by decide +kernel
def tMul (i : Instr) : Thread := { tWord i [0, 0, 1] with mx := { t0.mx with active := { type := .i8, rows := List.replicate 96 { zero := true, elems := [] } } } }
theorem witness_MatrixWords_mma : arrayGrant (readLimit 0 (sMatrix (tMul (.mma noTok .i8)))) 0 = true ∧ weightsRefused (sMatrix (tMul (.mma noTok .i8))) 0 .i8 0 0 1 = none
    ∧ weightsBad (sMatrix (tMul (.mma noTok .i8))) 0 .i8 0 0 1 = none ∧ accUncorrectable (sMatrix (tMul (.mma noTok .i8))) 0 0 1 = none ∧ keysRise s0.acc = true
    ∧ (List.range 1).all (fun j => (bColumn (sMatrix (tMul (.mma noTok .i8))) 0 .i8 0 0 j).toOption.isSome) = true
    ∧ ((threadAfter (exec (.matrixWordStart 0) (sMatrix (tMul (.mma noTok .i8))))).me.run.map Run.sent) = some true
    ∧ (weightsRefused (withThread (tMul (.mmaz noTok .i8))) 0 .i8 0 0 1).isSome = true
    ∧ faultOf (threadAfter (exec (.matrixWordStart 0) (withThread (tMul (.mmaz noTok .i8))))) .m = some (tEngineFault, eDenied) := by decide +kernel
def tMulBlocks : Thread := { tWord (.mmaz noTok .sb4) [0, 0, 16] with mx := { t0.mx with active := { type := .i8, rows := List.replicate 96 { zero := true, elems := [] } } } }
/-- The header of the second block of B has an unassigned format code. -/
def sBadColumn : State := { sMatrix tMulBlocks with mem := s0.mem.store (weightPa s0 0 96 16) [1] }
theorem witness_MatrixWords_mma_column : arrayGrant (readLimit 0 sBadColumn) 0 = true ∧ weightsRefused sBadColumn 0 .sb4 0 0 16 = none ∧ weightsBad sBadColumn 0 .sb4 0 0 16 = none
    ∧ (bColumn sBadColumn 0 .sb4 0 0 0).toOption.isSome = true ∧ (bColumn sBadColumn 0 .sb4 0 0 1).toOption.isNone = true
    ∧ faultOf (threadAfter (exec (.matrixWordStart 0) sBadColumn)) .m = some (tFormat, 0) := by decide +kernel
def tDrain : Thread := tWord (.drain noTok true .i8) [0, 0, 16]
theorem witness_MatrixWords_drain : mGranted (sMatrix tDrain) tDrain = true ∧ mExtent (sMatrix tDrain) 0 0 (16 * DrainFmt.i8.pitch) rightW = none ∧ accUncorrectable (sMatrix tDrain) 0 0 16 = none
    ∧ s0.mem.wf = true ∧ setRises s0.full = true ∧ scratchPa s0 0 0 % 8 = 0
    ∧ (after (exec (.matrixWordStart 0) { sMatrix tDrain with acc := [(0, 5)] })).mem.read (scratchPa s0 0 0) = 5
    ∧ isFull (after (exec (.matrixWordStart 0) (sMatrix tDrain))) (scratchPa s0 0 0) = true := by decide +kernel
def tDrainq : Thread := tWord (.drainq noTok true 1) [0, 0x7F7F7F7F, 0, 16]
theorem witness_MatrixWords_drainq : mGranted (sMatrix tDrainq) tDrainq = true ∧ mExtent (sMatrix tDrainq) 0 0 6144 rightW = none ∧ accUncorrectable (sMatrix tDrainq) 0 0 16 = none
    ∧ ((threadAfter (exec (.matrixWordStart 0) (sMatrix tDrainq))).me.run.map Run.sent) = some true := by decide +kernel
def tMsync (b : Bool) : Thread := tWord (.msync noTok b) [64]
theorem witness_MatrixWords_msync : mGranted (sMatrix (tMsync true)) (tMsync true) = true ∧ mRefused (sMatrix (tMsync true)) 0 64 8 (rightR + rightW) = none ∧ mRefused (sMatrix (tMsync false)) 0 64 8 rightR = none
    ∧ isFull (setFull (scratchPa s0 0 64) true (sMatrix (tMsync true))) (scratchPa s0 0 64) = true ∧ isFull (sMatrix (tMsync true)) (scratchPa s0 0 64) = false
    ∧ isFull (after (exec (.matrixWordStart 0) (setFull (scratchPa s0 0 64) true (sMatrix (tMsync true))))) (scratchPa s0 0 64) = false
    ∧ ((threadAfter (exec (.matrixWordStart 0) (sMatrix (tMsync false)))).me.run.map Run.waiting) = some true
    ∧ (mRefused (withThread (tMsync true)) 0 64 8 (rightR + rightW)).isSome = true := by decide +kernel
def tMstat : Thread := tWord (.mstat noTok true) [64]
theorem witness_MatrixWords_mstat : mGranted (sMatrix tMstat) tMstat = true ∧ mExtent (sMatrix tMstat) 0 64 16 rightW = none ∧ setRises s0.full = true
    ∧ isFull (after (exec (.matrixWordStart 0) (sMatrix tMstat))) (scratchPa s0 0 72) = true := by decide +kernel
def tNestWord : Thread := tWord (.nest noTok) [0]
def sNestWord : State := { sMatrix tNestWord with mem := s0.mem.store (scratchPa s0 0 0) nestDesc }
theorem witness_MatrixWords_nest : mGranted sNestWord tNestWord = true ∧ mExtent sNestWord 0 0 128 rightR = none ∧ indexOk nestDesc [0, 0, 0, 0, 0, 0] = true ∧ matrixNestOk (List.replicate 128 0) = false
    ∧ ((threadAfter (exec (.matrixWordStart 0) sNestWord)).me.run.map Run.live) = some true ∧ (threadAfter (exec (.matrixWordStart 0) sNestWord)).mx.act = true
    ∧ faultOf (threadAfter (exec (.matrixWordStart 0) (sMatrix tNestWord))) .m = some (tEngineFault, eBadDesc) := by decide +kernel

/-! ## Results, traps and kills, waits (R71, R73, R211, R376, R377, R74) -/

def vecItem (n : Nat) : Item := { due := 0, issued := n, rank := 2, value := some (.vector (.val (List.replicate 96 9))) }
def pairItem : Item := { due := 1, issued := 0, rank := 1, value := some (.scalars (.val 3) (.val 4)) }
def inFlight (l : List Item) : Thread := { t0 with vc := 4, flight := l }
theorem witness_ResultsArePushed_vectors : getThread (withThread (inFlight [vecItem 0])) 0 = some (inFlight [vecItem 0]) ∧ (vecItem 0).due < clockOf (inFlight []) ∧ pairItem.due < clockOf (inFlight []) ∧ pairItem.notBefore ≤ s0.cc
    ∧ lane (readVec (threadAfter (exec (.resultPush 0) (withThread (inFlight [vecItem 0])))) (.y 0)) 5 = 9
    ∧ readS (threadAfter (exec (.resultPush 0) (withThread (inFlight [pairItem])))) (.q 0) = 4 ∧ readS (threadAfter (exec (.resultPush 0) (withThread (inFlight [pairItem])))) (.q 1) = 3 := by decide +kernel
theorem witness_ResultsArePushed_order : (vecItem 0).due < pairItem.due ∧ item.due = (vecItem 0).due ∧ item.rank < (vecItem 0).rank ∧ (vecItem 0).issued < (vecItem 1).issued
    ∧ readS (threadAfter (exec (.resultPush 0) (withThread (inFlight [pairItem, item])))) (.q 2) = 7
    ∧ exec (.resultPush 0) (withThread (inFlight [{ item with value := none }])) = .next (withThread (inFlight [{ item with value := none }]))
    ∧ presentable (inFlight [{ item with value := none }]) = false := by
  repeat' first | decide +kernel | exact rfl | refine ⟨?_, ?_⟩
def badTrap : Trap := trapOf tMemUncorrectable 1 5
def tPoison (sys : Bool) : Thread := { armed with system := sys, regs := { t0.regs with q := [.poison badTrap], y := [.poison badTrap] } }
def tSeen : Thread := { armed with me := { fault := some ⟨trapOf tEngineFault 0 0, false⟩ } }
theorem witness_TrapEvents_poison : presentable (tPoison false) = true ∧ feDone (tPoison false) = false ∧ (tPoison false).regs.q.getD 0 (.val 0) = .poison badTrap
    ∧ codeAfter (exec (.br (.q 0) 16) (withThread (tPoison false))) = tMemUncorrectable ∧ bits (threadAfter (exec (.br (.q 0) 16) (withThread (tPoison false)))).sys.trapinfo.toNat 52 4 = 0xB
    ∧ codeAfter (exec (.vabs (.y 0) 0 .f32) (withThread (tPoison false))) = tMemUncorrectable ∧ poisonS (tPoison true) [.q 0] = [] ∧ readS (tPoison true) (.q 0) = 0
    ∧ presentable (tPoison true) = true := by decide +kernel
theorem witness_TrapEvents_observed : presentable tSeen = true ∧ tSeen.spec = false ∧ tSeen.system = false ∧ flag tSeen.sys.trapvec.toNat 0 = true ∧ arrived tSeen.flight = true
    ∧ codeAfter (exec (.estat .m) (withThread tSeen)) = tEngineFault ∧ ((threadAfter (exec (.estat .m) (withThread tSeen))).me.fault.map fun f => f.observed) = some true
    ∧ (threadAfter (exec (.estat .m) (withThread tSeen))).sys.trappc = 0 := by decide +kernel
/-- A store of the thread is in its buffer; an access of its channel is under way. -/
def sKilled : State := { withThread tSys with
  accesses := [(2, { heldStore with place := .target }), (3, { heldStore with owner := .engine 0 .c0 0, place := .target, buffered := false })]
  nodes := [(8192, { fetchNode with gen := 0 })] }
theorem witness_TrapEvents_kill : tSys.life = .running ∧ keysRise sKilled.threads = true ∧ keysRise sKilled.accesses = true ∧ keysRise sKilled.nodes = true ∧ bufferUsed (withThread tSys) 0 = 0
    ∧ (getThread (killThread 0 badTrap (withThread tSys)) 0).isNone = true ∧ ((getThread (killThread 0 badTrap sKilled) 0).map fun t => t.life) = some .killed
    ∧ ((look (killThread 0 badTrap sKilled).accesses 3).map Access.owner) = some .gone
    ∧ presentable tSys = true ∧ (getThread (after (exec (.trap 3) (withThread tSys))) 0).isNone = true := by decide +kernel
theorem witness_TrapEvents_kill_node : (let n := t0.node; ((look (killThread 0 badTrap { withThread tSys with nodes := [(n.id, { fetchNode with gen := n.gen })] }).nodes n.id).map fun x => (x.done, x.fault)) = some (1, some 0xF)) := by decide +kernel
def laneGather (b : Bool) (l : List (Nat × Nat × BitVec 32)) : Thread := { tGather with gather := some { tag := 3, store := b, left := l, got := [(1, 6)] } }
theorem witness_WaitsEnd_passes : (laneGather false [(0, 0x100, 0)]).gather.isSome = true ∧ (splitPass [(0, 0x100, 0)] fun _ => 0).2 = [] ∧ lineBad s0 (scratchPa s0 0 0x100) 4 = false
    ∧ ((threadAfter (exec (.vgathPass 0) { withThread (laneGather false [(0, 0x100, 0)]) with cc := 1, mem := s0.mem.store (scratchPa s0 0 0x100) [5] })).flight.map fun i => i.value.isSome) = [true]
    ∧ (splitPass ((List.range 9).map fun l => (l, 0x400 * l, (0 : BitVec 32))) fun _ => 0).2.length = 1
    ∧ ((threadAfter (exec (.vgathPass 0) { withThread (laneGather false ((List.range 9).map fun l => (l, 0x400 * l, 0))) with cc := 1 })).gather.map fun g => g.left.length) = some 1
    ∧ (after (exec (.vgathPass 0) { withThread (laneGather true [(0, 0x100, 7)]) with cc := 1 })).mem.read (scratchPa s0 0 0x100) = 7 := by decide +kernel
def launchKept : HubReq := { launchAsk with kept := some (fetchDesc, List.replicate 8 0), deadline := some 0 }
theorem witness_WaitsEnd_launch_kept : ∃ s : State, getThread s 0 = some t0 ∧ s.hubReqs = [launchKept] ∧ launchKept.kept.isSome = true ∧ launchKept.deadline = some 0 ∧ 0 ≤ s.cc ∧ 8192 ≤ s.nodes.length :=
  ⟨{ s0 with hubReqs := [launchKept], nodes := List.replicate 8192 (0, fetchNode) }, turn0.1, rfl, rfl, rfl, Nat.zero_le _, Nat.le_of_eq List.length_replicate.symm⟩
theorem witness_WaitsEnd_launch_reading : ∃ s : State, getThread s 0 = some t0 ∧ s.hubReqs = [launchAsk] ∧ launchAsk.kept = none := ⟨{ s0 with hubReqs := [launchAsk] }, turn0.1, rfl, rfl⟩
theorem witness_WaitsEnd_fence : (sLost.threads.map fun t => t.2.wait.isSome) = [true] ∧ (look sLost.accesses 2).isSome = true := by decide +kernel

/-! ## Walks of xlat, harvest, the choice of a page (R94, R105, R107) -/

def xlatItem : Item := { due := 9, issued := 1, rank := 1, tag := 1, form := .walk 3 0x10000 1, need := 1 }
def xlatWalk : Walk := { slot := 0, tag := 1, asid := 0, va := 0x10000, fetch := false, tile := 0 }
def tXlat : Thread := { t0 with flight := [xlatItem] }
def pagesAt (leaf : W64) (s : State) : State :=
  opened { s with asidtab := 0x8000000000080000, mem := ((s.mem.store 0x80000 (leBytes 8 (2 ^ 63 + 0x100000))).store 0x100000 (leBytes 8 0x110001)).store 0x110000 (leBytes 8 leaf.toNat) }
theorem witness_Walks_xlat : ((threadAfter (exec (.pageWalkComplete 0 1) { pagesAt 0xBD (withThread tXlat) with walks := [xlatWalk] })).flight.map fun i => i.value.isSome) = [true]
    ∧ (match (walkTables (pagesAt 0xBD (withThread tXlat)) (threadMaster s0 0) 0 0x10000).1 with | .leaf l _ => flag l.toNat 6 | .fault _ _ => true) = false
    ∧ (match (walkTables (pagesAt 0xFD (withThread tXlat)) (threadMaster s0 0) 0 0x10000).1 with | .leaf l _ => flag l.toNat 6 | .fault _ _ => false) = true
    ∧ (match (walkTables (withThread tXlat) (threadMaster s0 0) 0 0x10000).1 with | .leaf _ _ => false | .fault _ _ => true) = true := by decide +kernel
def sHarvest (g : Bool) : State := opened { sLarge1 with threads := [(0, { t0 with hold := true })], invals := [anInval true], granules := [(32, { g := g })], dir := [(32 * 1024, { owner := some 3 })] }
theorem witness_Walks_harvest : (findInval (sHarvest true) 0 true).isSome = true
    ∧ (match (walkTables (sHarvest true) (threadMaster (sHarvest true) 0) 0 0).1 with | .leaf l n => decide (bits l.toNat 62 2 = 0) && isHbm (bits l.toNat 16 40 * 2 ^ 16) && decide (leafSize n = .m2) | .fault _ _ => false) = true
    ∧ ((look (after (exec (.harvComplete 0) (sHarvest true))).granules 32).map fun x => x.g) = some false ∧ ((look (after (exec (.harvComplete 0) (sHarvest true))).dir (32 * 1024)).map fun x => x.owner) = some none
    ∧ (after (exec (.harvComplete 0) (sHarvest true))).mem.bytes 0x120000 8 = leBytes 8 0x2002BD ∧ (after (exec (.harvComplete 0) (sHarvest false))).mem = (sHarvest false).mem
    ∧ (findInval { withThread t0 with invals := [anInval true] } 0 true).isSome = true
    ∧ (after (exec (.harvComplete 0) { withThread t0 with invals := [anInval true] })).mem = s0.mem := by decide +kernel
/-- The page's leaf names host memory. -/
def sHarvestHost : State := { sHarvest true with mem := sLarge.mem.store 0x120000 (leBytes 8 0x40000000002000BD) }
theorem witness_Walks_harvest_host : (match (walkTables sHarvestHost (threadMaster sHarvestHost 0) 0 0).1 with | .leaf l _ => decide (bits l.toNat 62 2 ≠ 0) | .fault _ _ => false) = true
    ∧ (after (exec (.harvComplete 0) sHarvestHost)).mem.bytes 0x120000 8 = leBytes 8 0x40000000002002BD := by decide +kernel
/-- Most uses of the page come from tile 1, whose pool holds one frame. -/
def sMoves (pool : W64) : State := { sLarge1 with granules := [(32, { pkg := 4096, lastTile := 1 })], migpool := [(1, pool)], mem := sLarge1.mem.store 0x300000 (leBytes 8 0x800400000) }
theorem witness_evaluation_choice : hubSpaces (sMoves 0x300001) = [(0, 0x100000)] ∧ ((largePages (sMoves 0x300001) 0x100000).filter fun q => walkedPage (sMoves 0x300001) 0 q.1 q.2) = [(0, 0x200000)]
    ∧ (sMoves 0x300001).migrations = [] ∧ sumNat ((pageGranules 0x200000).map fun g => (granuleOf (sMoves 0x300001) g).pkg) = 4096 ∧ sumNat ((pageGranules 0x200000).map fun g => (granuleOf (sMoves 0x300001) g).loc) = 0
    ∧ (pageGranules 0x200000).contains 32 = true ∧ (pageGranules 0x200000).all (fun g => decide (g = 32) || decide ((granuleOf (sMoves 0x300001) g).pkg = 0)) = true
    ∧ (granuleOf (sMoves 0x300001) 32).lastTile ≠ paTile 0x200000 ∧ poolCount (poolOf (sMoves 0x300001) 1) = 1 ∧ poolCount (poolOf (sMoves 0x300001) (paTile 0x200000)) < 512 ∧ holdsLines (sMoves 0x300001) 0x200000 = false
    ∧ ((after (exec .migrationEvaluation (sMoves 0x300001))).migrations.map fun m => (m.src, m.dst)) = [(0x200000, 0x800400000)]
    ∧ poolCount (poolOf (sMoves 0x300000) 1) = 0 ∧ (after (exec .migrationEvaluation (sMoves 0x300000))).migrations = [] := by decide +kernel
def sMoved : State := { State.reset with migrations := [{ asid := 0, va := 0, leafPa := 0x1000, src := 0x200000, dst := 0x400000, moved := 32768 }] }
theorem witness_migration_ends : coveredAccesses ⟨0, 0, 2 ^ 21⟩ sMoved = [] ∧ poolCount (poolOf sMoved 0) < 512 ∧ (after (exec (.pageMigrationComplete 0) sMoved)).migrations = []
    ∧ coveredAccesses ⟨0, 0, 2 ^ 21⟩ { sMoved with accesses := [(2, heldStore)] } ≠ [] ∧ (after (exec (.pageMigrationComplete 0) { sMoved with accesses := [(2, heldStore)] })).migrations.length = 1
    ∧ holdsLines { sMigrate with specLines := [{ specLineOf [1] with pa := 0x200040 }] } 0x200000 = true
    ∧ (after (exec (.pageMigrationComplete 0) { sMigrate with specLines := [{ specLineOf [1] with pa := 0x200040 }] })).shootdown = 0 := by decide +kernel

/-! ## Accesses of every kind at their targets (R200, R274, R276, R298) -/

theorem witness_AccessesPerform_kinds : lineBad { withAccess (access (.read 2) .target) with eccBad := [0x800] } 0x20000 2 = true
    ∧ answerOf (exec (.homeLineAccess ⟨4, true⟩) { withAccess (access (.read 2) .target) with eccBad := [0x800] }) = some .uncorrectable
    ∧ (after (exec (.atomicPerform ⟨4, true⟩) (withAccess (access (.cas .w4 0x3412 7) .target)))).mem.bytes 0x20000 2 = [7, 0]
    ∧ (after (exec (.atomicPerform ⟨4, true⟩) (withAccess (access (.cas2 0x3412 9) .target)))).mem.bytes 0x20000 2 = [9, 0]
    ∧ (withAccess (access (.cas2 0 9) .target)).accesses.length = 1 ∧ isAtomic (.cas .w4 0 7) = true
    ∧ answerOf (exec (.atomicPerform ⟨4, true⟩) (withAccess { access (.cas .w4 0 7) .target with denied := some 5 })) = some (.denied 5) := by decide +kernel
def atReg (op : AccOp) (m : Nat) : State := withAccess { access op .target with pa := hubPa s0 + 0x200020, dst := (0, 0), master := m }
theorem witness_AccessesPerform_registers : isReg (hubPa s0 + 0x200020) = true ∧ accessPort s0 { access (.read 8) .target with pa := hubPa s0 + 0x200020 } = none ∧ lineBad s0 (hubPa s0 + 0x200020) 8 = false
    ∧ movedPa s0 (hubPa s0 + 0x200020) = none ∧ isFirmware s0 3072 = true ∧ isFirmware s0 0 = false
    ∧ answerOf (exec (.homeLineAccess ⟨4, true⟩) (atReg (.read 8) 3072)) = some (.data (leBytes 8 0) .none)
    ∧ (after (exec (.homeLineAccess ⟨4, true⟩) (atReg (.write ((bytes64 0x8000000000080000).map some)) 3072))).asidtab = 0x8000000000080000
    ∧ (after (exec (.homeLineAccess ⟨4, true⟩) (atReg (.write ((bytes64 0x8000000000080000).map some)) 0))).asidtab = 0 := by decide +kernel
theorem witness_AccessesPerform_words : isWaiting (atScratch (.fe .ldwf 0)) 4 (scratchPa s0 0 0x40) = false ∧ feCond .ldwf (isFull (atScratch (.fe .ldwf 0)) (scratchPa s0 0 0x40)) = false
    ∧ (look (after (exec (.homeLineAccess ⟨4, true⟩) (atScratch (.fe .ldwf 0)))).waiters (scratchPa s0 0 0x40 / 8)).isSome = true
    ∧ feCond .stf false = true ∧ lineBad s0 (scratchPa s0 0 0x40) 8 = false ∧ isFull (after (exec (.homeLineAccess ⟨4, true⟩) (atScratch (.fe .stf 6)))) (scratchPa s0 0 0x40) = true := by decide +kernel
def sBarKind (k : BarKind) (v : W64) : State := { sBar with accesses := [(4, { access (.bar k v 0) .target with pa := ownPa sBar 0 0 })] }
theorem witness_AccessesPerform_barriers : (barAct .wait (sBar.mem.bytes (ownPa sBar 0 0) 32) 7 0).1 = .blocked ∧ ((look (after (exec (.barrierAction 4) (sBarKind .wait 7))).accesses 4).map Access.watching) = some true
    ∧ (barAct .arr (sBar.mem.bytes (ownPa sBar 0 0) 32) 8 0).1 = .stale 2 ∧ answerOf (exec (.barrierAction 4) (sBarKind .arr 8)) = some (.stale 2)
    ∧ answerOf (exec (.barrierAction 4) (sBarKind .query 7)) = some (.data (leBytes 8 0x0007C00000200000) .none)
    ∧ answerOf (exec (.barrierAction 4) { sBar with accesses := [(4, { access (.bar .arr 7 0) .target with pa := ownPa sBar 0 0, denied := some 5 })] }) = some (.denied 5) := by decide +kernel

/-! ## Answers of threads (R112, R126, R304, R376) -/

def itemOf9 (form : Form) : Item := { due := 12, issued := 0, rank := 0, tag := 9, form := form, need := 1 }
def tAwait (l : List Item) : Thread := { t0 with flight := l }
def answered (op : AccOp) (r : Answer) : Access := { access op (.response 0 0 0 false) with answer := some r, performed := true, clock := 5 }
def sAnswered (op : AccOp) (r : Answer) : State := { withThread (tAwait [itemOf9 (.load .d)]) with accesses := [(4, answered op r)] }
theorem witness_Answers : returned (sAnswered (.read 8) (.data (leBytes 8 77) .none)) 4 (answered (.read 8) (.data (leBytes 8 77) .none)) = true
    ∧ mayLeave (sAnswered (.read 8) (.data (leBytes 8 77) .none)) 4 (answered (.read 8) (.data (leBytes 8 77) .none)) = true
    ∧ (tAwait []).life = .running ∧ (answered (.read 8) .ack).ownBytes = [] ∧ (tAwait []).saved = none ∧ isHbm (answered (.read 8) .ack).pa = true
    ∧ ((threadAfter (exec (.responseReceive 4) (sAnswered (.read 8) (.data (leBytes 8 77) .none)))).flight.map Item.value) = [some (.scalar (.val 77))]
    ∧ (threadAfter (exec (.responseReceive 4) (sAnswered (.read 8) (.data (leBytes 8 77) .none)))).clock = 5
    ∧ ((look (after (exec (.responseReceive 4) (sAnswered (.read 8) (.data (leBytes 8 77) .none)))).l1 0).map fun l => l.map Prod.fst) = some [0x800]
    ∧ ((threadAfter (exec (.responseReceive 4) (sAnswered (.amo .add .w8 1) (.data (leBytes 8 77) .none)))).flight.map Item.value) = [some (.scalar (.val 77))]
    ∧ (threadAfter (exec (.responseReceive 4) (sAnswered (.read 8) .uncorrectable))).flight.length = 1 ∧ (threadAfter (exec (.responseReceive 4) (sAnswered (.read 8) (.denied 5)))).flight.length = 1
    ∧ (threadAfter (exec (.responseReceive 4) (sAnswered (.write [some 1]) .ack))).clock = 5
    ∧ (threadAfter (exec (.responseReceive 4) (sAnswered (.write [some 1]) (.denied 5)))).dropped = 1
    ∧ ((look (after (exec (.responseReceive 4) { sAnswered (.read 8) (.data (leBytes 8 77) .none) with dir := [(0x800, { wtime := 6 })] })).l1 0).isNone) = true := by decide +kernel
/-- A request for this router's part is ready too, and the part had a response last. -/
def sTurns : State := { sAnswered (.read 8) (.data [7] .none) with
  accesses := [(4, answered (.read 8) (.data [7] .none)), (5, { access (.read 8) (.request 0 0 0 false) with dst := (0, 0) })]
  turns := [turnKey 0 0 true] }
theorem witness_Answers_turn : returned sTurns 4 (answered (.read 8) (.data [7] .none)) = true ∧ mayLeave sTurns 4 (answered (.read 8) (.data [7] .none)) = false
    ∧ (after (exec (.responseReceive 4) sTurns)).accesses.length = 2 ∧ localTurn { sTurns with turns := [] } 0 0 false = true
    ∧ ((look (after (exec (.packetRoute 5) { sTurns with turns := [] })).accesses 5).map Access.place) = some (.request 0 0 0 false)
    ∧ ((look (after (exec (.packetRoute 5) sTurns)).accesses 5).map Access.place) = some .target := by decide +kernel
def sInject : State := { s0 with accesses := [(4, access (.read 8) (.out 0 0 0 false)), (5, { access (.read 8) (.out 0 0 0 true) with answer := some .ack })] }
theorem witness_Packets_inject_turn : injectTurn sInject 0 0 false = true ∧ atHead sInject 4 (access (.read 8) (.out 0 0 0 false)) = true ∧ inputUse sInject 0 0 0 false < 8
    ∧ ((look (after (exec (.packetRoute 4) sInject)).accesses 4).map Access.place) = some (.out 0 0 0 false)
    ∧ ((look (after (exec (.packetRoute 4) { sInject with turns := [turnKey 0 0 false] })).accesses 4).map Access.place) = some (.request 0 0 0 false) := by decide +kernel
def toHost : Access := { answered (.read 8) (.data [7] .none) with owner := .host, place := .response 0 0 6 false }
theorem witness_Answers_host : returned { s0 with accesses := [(4, toHost)] } 4 toHost = true ∧ mayLeave { s0 with accesses := [(4, toHost)] } 4 toHost = true
    ∧ (after (exec (.responseReceive 4) { s0 with accesses := [(4, toHost)] })).hostAnswers = [[7]] := by decide +kernel

/-! ## Lanes, frames, peers, circuits once more -/

theorem witness_LanesAndCombs_service : ({ sComb with service := .outOfService } : State).service ≠ .running ∧ setRises sComb.combsFailed = true ∧ 0 ∈ sComb.combsFailed
    ∧ (laneOf (exec (.combRelock 0) { sComb with lanes := [(1, {})], service := .outOfService })).tx = 0 ∧ sComb.service = .running
    ∧ (laneOf (exec (.laneUp 1 ⟨false, 77⟩) { sLane { tx := 1 } with service := .outOfService })).tx = 1 := by decide +kernel
/-- A frame that names its path. -/
def named (p : PathSel) : Frame := { frame .ord with sel := p }
theorem witness_FramesOfThisDevice_named : namedPath .direct = some 0 ∧ pathUsable (sFrame (named .direct)) 1 0 = true ∧ pathRoom (sFrame (named .direct)) 1 0 = true ∧ (peerAt (sFrame (frame .ord)) 1).silent = false
    ∧ (frameAfter (exec (.frameResendTimeout 5 0) (sFrame (named .direct)))).map Frame.sentAt = some 1600000
    ∧ waitsFor (sFrame (frame .ord)) (frame .ord) = 0 ∧ (frame .ord).pair = none
    ∧ (frameAfter (exec (.frameResendTimeout 5 0) { sFrame (frame .ord) with peers := [(1, { peer1 with silent := true })] })).map Frame.sentAt = some 0
    ∧ (frameAfter (exec (.ordFrameReceive ours) (sFrame { frame .ord with applied := true }))).map Frame.inFlight = some false := by decide +kernel
def backAccess : Access := { owner := .thread 0, master := 0, pa := 2 ^ 46, op := .write [some 1], place := .back, device := 1, src := (0, 0), dst := (7, 0), buffered := true, answer := some .ack, performed := true }
def sAnswerBack (n : Nat) : State := { sLane inService with peers := [(1, { peer1 with ordHere := n })], accesses := [(8, backAccess)] }
theorem witness_FramesOfThisDevice_answers : reachable (sAnswerBack 0) 1 = true ∧ usablePaths (sAnswerBack 0) 1 ≠ [] ∧ classOf backAccess = .ord ∧ (sAnswerBack 0).held = []
    ∧ backAccess.backSeq = (peerAt (sAnswerBack 0) 1).ordHere ∧ ((look (after (exec (.packetRoute 8) (sAnswerBack 0))).accesses 8).map Access.place) = some (.out 7 0 (exitPort (sAnswerBack 0) backAccess) true)
    ∧ ((look (after (exec (.packetRoute 8) (sAnswerBack 1))).accesses 8).map Access.place) = some .back := by decide +kernel
def peersStore : Access := { owner := .peer 1 7, master := 0, pa := 0x20000, op := .write [some 1], place := .response 7 0 7 false, device := 0, src := (7, 0), dst := (2, 1), buffered := true, answer := some .ack, performed := true }
def sPeersStore : State := { sFrame (frame .ord) with accesses := [(8, peersStore)], fresh := 9 }
theorem witness_FramesOfThisDevice_acknowledge : returned sPeersStore 8 peersStore = true ∧ mayLeave sPeersStore 8 peersStore = true ∧ peersStore.merged = [] ∧ reachable sPeersStore 1 = true ∧ peerHeld sPeersStore 1 = false
    ∧ basicPath sPeersStore 1 = some 0 ∧ frameRoom sPeersStore 1 0 .ord = true ∧ ((look (after (exec (.responseReceive 8) sPeersStore)).frames 9).map Frame.cls) = some .ord := by decide +kernel
theorem witness_FramesOfThisDevice_evicted : carriedHere (sPeer peer1) (body .ord).pa = none ∧ (sPeer peer1).held = []
    ∧ ((after (exec (.ordFrameReceive (theirs .ord)) { sPeer peer1 with evstate := 4 })).accesses.map fun a => a.2.answer) = [some .unreachable] := by decide +kernel
def sNotices : State := { sFar with peers := [(1, { peer1 with silent := true })], heldNotices := [(1, notice 3 true 1)] }
theorem witness_PeersComeAndGo_notices : ctrlReaches sNotices 1 = true ∧ (after (exec (.keepaliveReceive 1) sNotices)).notices.length = 1 ∧ (after (exec (.keepaliveReceive 1) sNotices)).heldNotices = []
    ∧ ctrlReaches { sNotices with lanes := [] } 1 = false ∧ (after (exec (.keepaliveReceive 1) { sNotices with lanes := [] })).heldNotices.length = 1 := by decide +kernel
/-- Device 33 of another group is back on its lane. -/
def sBackAgain : State := { sRelay with peers := [(1, peer1), (33, { peer1 with reachable := false, absent := true }), (65, peer1)], rlytab := [(1, relayWord [65])], lanes := [(33, inService), (rxLane 0 33, inService)] }
theorem witness_PeersComeAndGo_back : isMember sBackAgain 33 = true ∧ (peerAt sBackAgain 33).reachable = false ∧ usablePaths sBackAgain 33 ≠ [] ∧ keysRise sBackAgain.rlytab = true
    ∧ relayWord (defaultRelays 0 1 (present sBackAgain)) ≠ relayWord (defaultRelays 0 1 (present (modPeer 33 (fun p => { p with absent := false }) sBackAgain)))
    ∧ look (after (exec (.peerBack 33) sBackAgain)).rlytab 1 = some (relayWord [33, 65]) := by decide +kernel
def stepsOnly (hs : List (Nat × CHandle)) : State := sCtx (program [.endc] .atStep hs)
theorem witness_HandlesSettleAndFail_more : portUsed (stepsOnly [(1, handle .repairing)]) 3 = false
    ∧ (handleAt (ctxAfter (exec (.circuitRepairSearchEnd 2 1 true 3) (stepsOnly [(1, { handle .repairing with repairable := true, cause := 2, since := 99000 })]))) 1).src = 3
    ∧ portUsed { stepsOnly [] with autos := [⟨3, 9, 0, 1, 0, 0⟩] } 3 = true
    ∧ (handleAt (ctxAfter (exec (.circuitRepairSearchEnd 2 1 true 3) { stepsOnly [(1, { handle .repairing with repairable := true, cause := 2, since := 99000 })] with autos := [⟨3, 9, 0, 1, 0, 0⟩] })) 1).cause = 6
    ∧ (handleAt (ctxAfter (exec (.tearPerform 2 1) { stepsOnly [(1, { handle .live with tearFrom := some 5 })] with departed := [(2, 4)] })) 1).draining = false
    ∧ (handleAt (ctxAfter (exec (.tearPerform 2 1) { stepsOnly [(1, { handle .live with tearFrom := some 5 })] with departed := [(2, 5), (3, 0)] })) 1).draining = true
    ∧ onItsWay (stepsOnly [(1, handle .live)]) 2 1 3 = false ∧ (program [.endc] .atStep []).pendingEst = [] ∧ (program [.endc] .atStep []).ceased = false
    ∧ onItsWay sLanding 2 1 3 = true
    ∧ (handleAt (ctxAfter (exec (.tearComplete 2 1) { sLanding with ctxs := [(2, program [.endc] .atStep [(1, { handle .live with draining := true })])] })) 1).state = .live := by decide +kernel

/-! ## Copy words that read or write HBM or a window (R173, R174, R180, R112) -/

def capAt (pa perm : Nat) : GCap := { hostCap with pa := pa, host := false, perm := perm }
def copyWord (i : Instr) (ps : List W64) (cs : List GCap) : QWord := { qWord i ps with caps := cs }
def copyRun (w : QWord) (l : List (Nat × Line)) (n : Nat) : Run := { word := w, lines := l, next := n, total := 1, live := true }
def sCopy (r : Run) : State := opened (ownTables (withThread { t0 with c0 := runWith r }))
def toHbm : QWord := copyWord (.s2g .c0 noTok .basic false) [0, 0, 64] [capAt 0x20000 permW]
def fromHbm : QWord := copyWord (.g2s .c0 noTok .basic false) [0, 0, 64] [capAt 0x20000 permR]
def hbmToHbm : QWord := copyWord (.g2g .c0 noTok .basic false) [0, 0, 64] [capAt 0x20000 permR, capAt 0x30000 permW]
def lineStates (o : Host.Outcome State Fault Refusal) : Option (List (Nat × Line)) := (threadAfter o).c0.run.map Run.lines
theorem witness_CopyLines_write : engineFree t0 .c0 = true ∧ (effWord (copyRun toHbm [(0, .reading 0)] 1)).revoked = false ∧ movedPa (sCopy (copyRun toHbm [(0, .reading 0)] 1)) (scratchPa s0 0 0) = none
    ∧ lineHeld (sCopy (copyRun toHbm [(0, .reading 0)] 1)) 0 (scratchPa s0 0 0) = false
    ∧ allServed 0 1 [0] (takeGrants (wants (sCopy (copyRun toHbm [(0, .reading 0)] 1)) 0) 0 1 [0] (sCopy (copyRun toHbm [(0, .reading 0)] 1))) = true
    ∧ srcSpot s0 toHbm 0 = .own 0 ∧ isSingle toHbm = false ∧ overlapOf (sCopy (copyRun toHbm [(0, .reading 0)] 1)) 0 toHbm = .none ∧ respRoom s0 (.engine 0 .c0 0) 1 = true ∧ lineBad s0 (scratchPa s0 0 0) 64 = false
    ∧ lineStates (exec (.enginePortAccess 0 .c0 0) (sCopy (copyRun toHbm [(0, .reading 0)] 1))) = some [(0, .writing s0.fresh)]
    ∧ ((look (after (exec (.enginePortAccess 0 .c0 0) (sCopy (copyRun toHbm [(0, .reading 0)] 1)))).accesses s0.fresh).map Access.pa) = some 0x20000 := by decide +kernel
theorem witness_CopyLines_read : chunkStop (sCopy (copyRun fromHbm [] 0)) 0 .c0 { t0 with c0 := runWith (copyRun fromHbm [] 0) } (copyRun fromHbm [] 0) 0 = none ∧ t0.stopping = false
    ∧ lineStates (exec (.copyWordStart 0 .c0) (sCopy (copyRun fromHbm [] 0))) = some [(0, .reading s0.fresh)]
    ∧ ((look (after (exec (.copyWordStart 0 .c0) (sCopy (copyRun fromHbm [] 0)))).accesses s0.fresh).map Access.op) = some (.read 64) := by decide +kernel
def lineAnswered (op : AccOp) (r : Answer) : Access := { answered op r with owner := .engine 0 .c0 0 }
def sLineAnswered (w : QWord) (l : Line) (op : AccOp) (r : Answer) : State := { sCopy (copyRun w [(0, l)] 1) with accesses := [(4, lineAnswered op r)] }
theorem witness_CopyLines_data : returned (sLineAnswered fromHbm (.reading 4) (.read 64) (.data (List.replicate 64 3) .none)) 4 (lineAnswered (.read 64) (.data (List.replicate 64 3) .none)) = true
    ∧ mayLeave (sLineAnswered fromHbm (.reading 4) (.read 64) (.data (List.replicate 64 3) .none)) 4 (lineAnswered (.read 64) (.data (List.replicate 64 3) .none)) = true
    ∧ (lineAnswered (.read 64) .ack).merged = [] ∧ dstSpot fromHbm 0 = .own 0
    ∧ lineStates (exec (.responseReceive 4) (sLineAnswered fromHbm (.reading 4) (.read 64) (.data (List.replicate 64 3) .none))) = some [(0, .have (List.replicate 64 3))]
    ∧ respRoom { sLineAnswered hbmToHbm (.reading 4) (.read 64) (.data (List.replicate 64 3) .none) with accesses := [] } (.engine 0 .c0 0) 1 = true
    ∧ lineStates (exec (.responseReceive 4) (sLineAnswered hbmToHbm (.reading 4) (.read 64) (.data (List.replicate 64 3) .none))) = some [(0, .writing s0.fresh)]
    ∧ opBytes (.read 64) = 64 ∧ faultOf (threadAfter (exec (.responseReceive 4) (sLineAnswered fromHbm (.reading 4) (.read 64) (.denied 0x20000)))) .c0 = some (tEngineFault, eDenied) := by decide +kernel
def toWindow : QWord := copyWord (.s2g .c0 noTok .basic true) [0, 0, 64] [capAt (scratchPa s0 1 0) permW]
theorem witness_CopyLines_ack : lineStates (exec (.responseReceive 4) (sLineAnswered toHbm (.writing 4) (.write (List.replicate 64 (some 3))) .ack)) = some []
    ∧ (threadAfter (exec (.responseReceive 4) (sLineAnswered toHbm (.writing 4) (.write (List.replicate 64 (some 3))) .ack))).c0.wptr = 64
    ∧ feOf toWindow = true ∧ regionOf (redirect s0 (scratchPa s0 1 0)) = .scratch 1 0 ∧ redirect s0 (scratchPa s0 1 0) % 8 = 0 ∧ setRises s0.full = true
    ∧ isFull (after (exec (.responseReceive 4) (sLineAnswered toWindow (.writing 4) (.write (List.replicate 64 (some 3))) .ack))) (scratchPa s0 1 56) = true := by decide +kernel
def tSpecCopy : Thread := { t0 with spec := true, c0 := engineWith toHbm }
theorem witness_EngineWordsStart_held : wordHeld (withThread tSpecCopy) 0 tSpecCopy toHbm = true ∧ tokensReady 0 tSpecCopy .c0 toHbm = true
    ∧ (threadAfter (exec (.copyWordStart 0 .c0) (withThread tSpecCopy))).c0.queue.length = 1 ∧ wordHeld (withThread { t0 with c0 := engineWith toHbm }) 0 { t0 with c0 := engineWith toHbm } toHbm = false := by decide +kernel
theorem witness_ChainReturns_turn : mayLeave (sBack csDone tChain) 4 (back csDone) = true := by decide +kernel

/-! ## Launches, contexts, commands, eviction once more -/

/-- A speculative block keeps its window closed, and the first GiB is mapped onto the scratchpads. -/
def sClosed : State := pagesAt ((BitVec.ofNat 64 (scratchPa s0 0 0 / 2 ^ 30 * 2 ^ 30)) + 0xBD) { withThread { t0 with spec := true } with hubReqs := [launchOf 0x1000] }
def closedVa : W64 := BitVec.ofNat 64 (scratchPa s0 0 0 % 2 ^ 30 + 64)
theorem witness_Launch_closed : hubHeld (sLaunch 0x1000) (some 0) 0 (threadMaster (sLaunch 0x1000) 0) 0x1000 256 = false
    ∧ hubHeld sClosed none 0 (firmwareMaster sClosed) closedVa 8 = true ∧ hubHeld sClosed (some 4) 0 (threadMaster sClosed 4) closedVa 256 = true
    ∧ (look (sLaunch 0x1000).threads 0).isSome = true ∧ reqMustWait (sLaunch 0x1000) (launchOf 0x1000) = false := by decide +kernel
def sOverClosed : State := { sClosed with nodes := (sOver closedVa []).nodes }
theorem witness_NodeCompletion_closed : nodeOver sOverClosed 5 { aNode { small with comp := closedVa } with next := 1, done := 1 } = true ∧ (after (exec (.nodeCompletion 5) sOverClosed)).nodes.length = 2 := by decide +kernel
theorem witness_block_elsewhere : preferredCore (sNode small) 5 (aNode small) 0 ≠ some (coreOf 8) ∧ (after (exec (.blockDispatch 5 ⟨8, 0, 0, 0⟩) (sNode small))).threads = [] := by decide +kernel
theorem witness_Gangs_reserved : (gangPlaces (sNode gangDesc) (aNode gangDesc) (usesOn (sNode gangDesc) 5) 1).map (fun q => coreOf q.slot) = [coreOf place.slot]
    ∧ gangOk { sNode gangDesc with reservation := some ⟨5, [place]⟩ } 5 (aNode gangDesc) [place] [] = true ∧ inTurn { sNode gangDesc with reservation := some ⟨5, [place]⟩ } 5 = true
    ∧ (getThread (after (exec (.gangDispatch 5 7 0 [place]) { sNode gangDesc with reservation := some ⟨5, [place]⟩ })) 0).isSome = true := by decide +kernel
def savedHandle : SavedThread := { saved with thread := { tWanted with handles := t0.handles.set 3 window, flight := [xlatFlight] } }
def sSavedAway (shoot dev : Nat) : State := { sSaved with contexts := [(3, { threads := [savedHandle], program := none, shootdown := shoot, device := dev })] }
theorem witness_Restore_revoked : restoreOk (sSavedAway 1 0) [(savedHandle, 0)] [] = true ∧ inTurn (sSavedAway 1 0) 9 = true ∧ inTurn (sSavedAway 0 1) 9 = true ∧ (sSavedAway 1 0).shootdown ≠ 1 ∧ (sSavedAway 0 1).cfg.device ≠ 1
    ∧ ((threadAfter (exec (.contextRestore 3 [0] 0 0) (sSavedAway 1 0))).handles.getD 3 {}).state = .revoked ∧ ((threadAfter (exec (.contextRestore 3 [0] 0 0) (sSavedAway 0 1))).handles.getD 3 {}).state = .revoked
    ∧ ((threadAfter (exec (.contextRestore 3 [0] 0 0) (sSavedAway 0 1))).flight.all fun i => match i.post with | .handle _ h => decide (h.state ≠ .valid) | _ => true) = true := by decide +kernel
theorem witness_RegisterWrites_hub : isFirmware State.reset 3072 = true ∧ refuse State.reset 3072 (hubPa State.reset + 0x200020) 8 rightW = none ∧ refuse State.reset 3072 (hubPa State.reset + (0x200100 + 8 * 15)) 8 rightW = none
    ∧ (after (exec (.registerWrite (.hub 0x200020 3072) 0x8000000000080001) State.reset)).asidtab = 0x8000000000080000
    ∧ look (after (exec (.registerWrite (.hub 0x200178 3072) 0x1001) State.reset)).migpool 15 = some 0x1001 ∧ (after (exec (.registerWrite (.hub 0x200010 0) 0x43) State.reset)).tvecdef = 0
    ∧ refuse State.reset 3072 (hubPa State.reset + (0x102000 + 8 * 1023)) 8 rightW = none ∧ look (after (exec (.registerWrite (.hub 0x103FF8 3072) 0x400) State.reset)).rlytab 1023 = some 0x400 := by decide +kernel
theorem witness_RegisterWrites_thread : writeTraps t0 0x045 9 = [] ∧ readSys (threadAfter (exec (.registerWrite (.thread 0 0x045) 9) s0)) 0x045 = 9 ∧ writeTraps t0 0x06A 0x12345678 = [] ∧ readSys (threadAfter (exec (.registerWrite (.thread 0 0x06A) 0x12345678) s0)) 0x06A = 0x12345000 := by decide +kernel
def scopedCmd : Command := { doneCmd with bytes := leBytes 8 0x40 ++ [0, 0, 0x85] ++ List.replicate 240 0 ++ [0, 0, 8, 0, 0], nodes := [t0.node] }
theorem witness_Ring_completion : scopeBusy { s0 with accesses := [(2, heldStore)], commands := [(3, scopedCmd)] } scopedCmd = true
    ∧ (after (exec (.commandCompletion 3) { s0 with accesses := [(2, heldStore)], commands := [(3, scopedCmd)] })).commands.length = 1 ∧ scopeBusy { State.reset with commands := [(3, doneCmd)] } doneCmd = false ∧ ({ State.reset with service := .outOfService } : State).linkUp = true
    ∧ (after (exec (.commandCompletion 3) { State.reset with service := .outOfService, commands := [(3, doneCmd)] })).commands = []
    ∧ (after (exec (.commandCompletion 3) { State.reset with linkUp := false, commands := [(3, doneCmd)] })).commands.length = 1
    ∧ cmdType (cmd 1 1 []) = 1 ∧ (after (exec (.commandCompletion 3) { State.reset with commands := [(3, { cmd 1 1 [] with started := true, left := 1 })] })).commands.length = 1
    ∧ (after (exec (.commandCompletion 3) { State.reset with commands := [(3, { cmd 1 1 [] with started := true, left := 0, firstFault := some (0, 0, 4) })] })).commands.length = 0
    ∧ mayStart (sCmd (cmd 12 0 [])) 3 (cmd 12 0 []) = true ∧ cmdAfter (exec (.commandCompletion 3) (sCmd (cmd 12 0 []))) = some (true, 1) := by decide +kernel
def started (ty : Nat) (ns : List NodeRef) : Command := { cmd ty 0 [] with started := true, nodes := ns }
def sStarted (c : Command) : State := { withThread { t0 with node := ⟨9, 0⟩ } with commands := [(3, c)] }
theorem witness_HostCommands_finish : cmdAfter (exec (.shootdown 3) (sStarted (started 2 []))) = some (true, 0) ∧ ({ started 2 [] with covered := [2] } : Command).covered.all (accessEnded { s0 with accesses := [(2, heldRead)] }) = false
    ∧ cmdAfter (exec (.shootdown 3) { sStarted { started 2 [] with covered := [2] } with accesses := [(2, heldRead)] }) = some (false, 0)
    ∧ cmdAfter (exec (.preempt 3) (sStarted (started 4 [⟨9, 0⟩]))) = some (false, 0) ∧ cmdAfter (exec (.preempt 3) (sStarted (started 4 [⟨8, 0⟩]))) = some (true, 0)
    ∧ cmdAfter (exec (.abort 3) { sStarted (started 8 [⟨9, 0⟩]) with nodes := [(9, aNode small)] }) = some (false, 0) ∧ cmdAfter (exec (.abort 3) (sStarted (started 8 [⟨9, 0⟩]))) = some (true, 0) := by decide +kernel
def doneNode (f : Option Nat) : Node := { aNode small with next := 1, done := 1, command := some 3, fault := f, faultAt := 7 }
def sNodeDone (f : Option Nat) : State := { State.reset with commands := [(3, { started 1 [⟨5, 0⟩] with left := 1 })], nodes := [(5, doneNode f)] }
theorem witness_HostCommands_launched : nodeOver (sNodeDone none) 5 (doneNode none) = true ∧ nodeOver (sNodeDone (some 4)) 5 (doneNode (some 4)) = true
    ∧ ((look (after (exec (.nodeCompletion 5) (sNodeDone (some 4)))).commands 3).map fun c => (c.left, c.firstFault)) = some (0, some (7, 0, 4)) ∧ keysRise (sNodeDone none).commands = true
    ∧ ((look (after (exec (.nodeCompletion 5) (sNodeDone none))).commands 3).map fun c => (c.left, c.firstFault)) = some (0, none) := by decide +kernel
theorem witness_HostCommands_harvest_held : hubHeld { sCmd (cmd 3 0 []) with threads := [] } none 0 (firmwareMaster State.reset) 0x3000 1 = false ∧ hubHeld sClosed none 0 (firmwareMaster sClosed) closedVa 1 = true
    ∧ hubHeld sLaunchCmd none 0 (firmwareMaster sLaunchCmd) 0x1000 256 = false := by decide +kernel
theorem witness_Starts_more : (after (exec (.start true true) State.reset)).cmdBuffer.take 2 = [0x01, 3] ∧ (after (exec .packageOutOfService (nodeCmd 4))).nodes.all (fun n => n.2.stop) = true
    ∧ writesHost (.write [some 1]) = true ∧ managementRegister (sEvict 2) 0x18 = 2 := by decide +kernel
theorem witness_Eviction_more : ((sPeer peer1).dommap.filter (ctrlReaches (sPeer peer1))) = [1] ∧ (after (exec (.evict (evictCmd 1)) (sPeer peer1))).evictSent.length = 1
    ∧ (after (exec (.evict (evictCmd 0)) (sPeer peer1))).cmdBuffer.length = 512 ∧ evOf (exec .evictionDrained { sEvict 3 with relayed := [(4, { src := 1, dst := 31, id := 4, lane := 31, deadline := 9 })] }) = 3
    ∧ ({ sPeer peer1 with peerEvicts := [(1, 31)] } : State).cfg.device ≠ 31 ∧ (after (exec (.moveDoneNotice 1 31 []) { sPeer peer1 with peerEvicts := [(1, 31)] })).redirects.map (fun r => (r.dev, r.carry)) = [(1, true)]
    ∧ keysRise sRelay.rlytab = true ∧ (∀ x ∈ (sPeer peer1).peerEvicts, x.1 ≠ 1) := by decide +kernel
theorem witness_Eviction_receives : ∃ s : State, (1, s.cfg.device) ∈ s.peerEvicts ∧ s.frames = [] := ⟨{ State.reset with peerEvicts := [(1, State.reset.cfg.device)] }, List.mem_singleton.mpr rfl, rfl⟩
def sWritten : State := { State.reset with agenda := [.hostWrite 0x40 [1, 2]] }
theorem witness_StepRunsDecoded_host : sWritten.agenda = [.hostWrite 0x40 [1, 2]] ∧ State.reset.mirror.wf = true ∧ (after (step sWritten)).hostMem.bytes 0x40 2 = [1, 2]
    ∧ (after (step { sWritten with cmdring := 1 })).mirror.bytes 0x40 2 = [1, 2] ∧ State.reset.parked = [] ∧ nextEarly State.reset = none := by decide +kernel

end Tests
end

section
/-! PROOFS. What reset leaves: the access tables and the memories. -/

namespace Sys2Proof.Machine

/-- R111: the word of entry 0 of every table after reset. -/
def coldWord : Nat := 2 ^ 127 + 7 * 2 ^ 124 + 3079 * 2 ^ 86 + 3072 * 2 ^ 64 + (2 ^ 30 - 1) * 2 ^ 32

/-- Its fields, as R110 lays them out: V, the reserved fields, the masters, the addresses, PERM. -/
theorem coldWord_fields : flag coldWord 127 = true
    ∧ bits coldWord 108 16 = 0 ∧ bits coldWord 62 2 = 0 ∧ bits coldWord 30 2 = 0
    ∧ bits coldWord 64 22 = 3072 ∧ bits coldWord 86 22 = 3079
    ∧ bits coldWord 0 30 = 0 ∧ bits coldWord 32 30 = 2 ^ 30 - 1 ∧ bits coldWord 124 3 = 7 := by
  decide

/-- R111: entry 0 of every table after reset: firmware masters 3072 to 3079, the whole map, all rights. -/
theorem tableEntry_reset_zero (t : TableId) (m x : Nat) (r : Right) :
    entryAllows (tableEntry State.reset t 0) m x r = true
      ↔ (3072 ≤ m ∧ m ≤ 3079) ∧ x / 4096 ≤ 2 ^ 30 - 1 ∧ 7 &&& r = r := by
  have he : (tableEntry State.reset t 0).toNat = coldWord := rfl
  obtain ⟨hv, hr1, hr2, hr3, hmlo, hmhi, halo, hahi, hperm⟩ := coldWord_fields
  simp only [entryAllows, he, hv, hr1, hr2, hr3, hmlo, hmhi, halo, hahi, hperm, decide_true, Bool.true_and,
    Nat.zero_le, Bool.and_true, Bool.and_eq_true, decide_eq_true_eq, and_assoc]

/-- R111: no other entry is valid after reset. -/
theorem tableEntry_reset_other (t : TableId) {i : Nat} (h : i ≠ 0) : tableEntry State.reset t i = 0 :=
  if_neg h

/-- R110: an entry whose V bit is 0 allows nothing. -/
theorem entryAllows_zero (m x : Nat) (r : Right) : entryAllows 0 m x r = false := by
  simp [entryAllows, flag, bits]

theorem inv_reset : State.reset.Inv := ⟨Memory.wf_empty, Memory.wf_empty, Memory.wf_empty⟩

/-- Rights are three bits, all of which entry 0 grants. -/
theorem rights_and_all {r : Right} (h : r ≤ 7) : 7 &&& r = r := by
  rw [Nat.and_comm, show (7 : Nat) = 2 ^ 3 - 1 from rfl, Nat.and_two_pow_sub_one_eq_mod]
  exact Nat.mod_eq_of_lt (Nat.lt_succ_of_le h)

/-- Settles O56: the fields are those of `State.reset`, and the entries of its tables are computed once above. -/
theorem resetState : Obligations.ResetState := by
  refine ⟨rfl, rfl, rfl, rfl, rfl, rfl, rfl, rfl, rfl, inv_reset, fun _ => rfl, rfl, rfl, ?_, ?_, ?_⟩
  · intro t n x r hx hr hn
    have hm : masterId State.reset (3072 + n) = 3072 + n := Nat.zero_add _
    rw [tableEntry_reset_zero, hm]
    exact ⟨by omega, by omega, rights_and_all hr⟩
  · intro t m x r _ h
    obtain ⟨⟨hlo, hhi⟩, -, -⟩ := (tableEntry_reset_zero t m x r).1 h
    refine ⟨m - 3072, by omega, ?_⟩
    have hm : masterId State.reset (3072 + (m - 3072)) = 3072 + (m - 3072) := Nat.zero_add _
    omega
  · intro t i m x r hi
    rw [tableEntry_reset_other t hi]
    exact ⟨rfl, entryAllows_zero m x r⟩

end Sys2Proof.Machine
end

section
/-! PROOFS. What the writes of registers do to the state: equations for the operations of Machine/System.lean. -/

namespace Sys2Proof.Machine

/-! Threads written back. -/

theorem put_look {α : Type} {l : List (Nat × α)} {k : Nat} {v : α} (h : look l k = some v) : put l k v = l := by
  induction l with
  | nil => simp [look] at h
  | cons x xs ih =>
    obtain ⟨i, w⟩ := x
    by_cases heq : k = i
    · subst heq
      simp only [look, if_pos, Option.some.injEq] at h
      simp [put, h]
    · by_cases hlt : k < i
      · simp [look, heq, hlt] at h
      · simp only [look, if_neg heq, if_neg hlt] at h
        simp [put, heq, hlt, ih h]

/-- A map that keeps the keys acts on the value found at each. -/
theorem look_map {α β : Type} {g : Nat × α → Nat × β} (hg : ∀ x, (g x).1 = x.1) (l : List (Nat × α)) (k : Nat) :
    look (l.map g) k = (look l k).map fun v => (g (k, v)).2 := by
  induction l with
  | nil => rfl
  | cons x xs ih =>
    obtain ⟨i, w⟩ := x
    have hx : g (i, w) = (i, (g (i, w)).2) := Prod.ext (hg _) rfl
    rw [List.map_cons, hx]
    simp only [look, ih]
    split
    · next heq => rw [heq, Option.map_some]
    · split <;> rfl

theorem setThread_of_getThread {s : State} {k : Nat} {t : Thread} (h : getThread s k = some t) : setThread s k t = s := by
  unfold setThread
  rw [put_look h]

theorem modSys_of {s : State} {k : Nat} {t : Thread} (h : getThread s k = some t) (f : Sys → Sys) :
    modSys k f s = setThread s k { t with sys := f t.sys } :=
  modThread_of h _

/-! `noteOwner` (R193, R195, R248) changes the cores and the spaces of the accumulators only. -/

@[simp] theorem noteOwner_mem (k : Nat) (s : State) : (noteOwner k s).mem = s.mem := by
  unfold noteOwner; split <;> rfl
@[simp] theorem getThread_noteOwner (j k : Nat) (s : State) : getThread (noteOwner k s) j = getThread s j := by
  unfold noteOwner; split <;> rfl

/-- R248: the space in force joins the spaces of the slot's accumulators, none of which leaves. -/
theorem noteOwner_accAsid {s : State} {k : Nat} {t : Thread} (h : getThread s k = some t) :
    ∃ l, look (noteOwner k s).accAsid k = some l ∧ bits t.sys.asidreg.toNat 0 16 ∈ l
      ∧ ∀ a ∈ (look s.accAsid k).getD [], a ∈ l := by
  unfold noteOwner
  rw [h]
  refine ⟨_, look_put _ _ _, ?_, fun a ha => List.mem_append_left _ ha⟩
  split
  · next hin => simpa using hin
  · simp

/-! Writes that change the thread alone. -/

/-- R82: the thread with ASIDREG written: its valid handles are revoked when the space changes. -/
def Thread.withAsid (t : Thread) (v : W64) : Thread := { t with
  sys := { t.sys with asidreg := v &&& 0xFFFF }
  handles := if v &&& 0xFFFF = t.sys.asidreg then t.handles
    else t.handles.map fun h => if h.state = .valid then { h with state := .revoked } else h }

section
variable {s : State} {k : Nat} {t : Thread}

theorem writeAsid_of (h : getThread s k = some t) (v : W64) : writeAsid k v s = setThread s k (t.withAsid v) :=
  modThread_of h _
theorem writeSrseed_of (h : getThread s k = some t) (v : W64) : writeSrseed k v s = setThread s k { t with
    sys := { t.sys with srseed := v &&& 0xFFFFFFFF }
    lfsr := seedLanes (v.truncate 32) } :=
  modThread_of h _
theorem writeWdlimit_of (h : getThread s k = some t) (v : W64) : writeWdlimit k v s = setThread s k { t with
    sys := { t.sys with wdlimit := v &&& 0xFFFFFFFF }
    watch := 0 } :=
  modThread_of h _
theorem popRecord_of (h : getThread s k = some t) : popRecord k s = setThread s k { t with faultQueue := t.faultQueue.tail } := by
  rw [← List.drop_one]
  exact modThread_of h _

end

/-! The lines of discarded words (R312, R315). -/

@[simp] theorem sumNat_eq_sum (l : List Nat) : sumNat l = l.sum := List.sum_eq_foldl.symm

theorem countDrop_of {s : State} {k : Nat} {t : Thread} (h : getThread s k = some t) (dev n : Nat) (host : Bool) :
    ∃ d, countDrop k dev n host s = setThread s k { t with
      dropped := t.dropped + n
      dropDev := d
      droppedHost := t.droppedHost + if host then n else 0 } := by
  unfold countDrop
  split
  · next hn => exact ⟨t.dropDev, by simp [hn, setThread_of_getThread h]⟩
  · refine ⟨some (t.dropDev.getD dev), ?_⟩
    rw [modThread_of h]
    cases host <;> rfl

/-- The thread with the lines of some bounds counted as dropped; d is the device that FENCESTAT then names. -/
def Thread.counted (t : Thread) (bs : List Bound) (d : Option Nat) : Thread := { t with
  dropped := t.dropped + sumNat (bs.map Bound.lines)
  dropDev := d
  droppedHost := t.droppedHost + sumNat ((bs.filter Bound.host).map Bound.lines) }

/-- Each bound adds its lines to the counts of the thread, one by one. -/
theorem countBounds_of {s : State} {k : Nat} {t : Thread} (h : getThread s k = some t) (bs : List Bound) :
    ∃ d, countBounds k bs s = setThread s k (t.counted bs d) := by
  induction bs generalizing s t with
  | nil => exact ⟨t.dropDev, (setThread_of_getThread h).symm⟩
  | cons b bs ih =>
    obtain ⟨d₁, h₁⟩ := countDrop_of h b.dev b.lines b.host
    obtain ⟨d₂, h₂⟩ := ih (getThread_setThread s k _)
    refine ⟨d₂, ?_⟩
    unfold countBounds at h₂ ⊢
    rw [List.foldl_cons, h₁, h₂, setThread_setThread]
    cases hb : b.host <;> simp [Thread.counted, hb, Nat.add_assoc]

/-! `voidAccesses` (R175). -/

theorem nodeIn_of {s : State} {k : Nat} {t : Thread} (h : getThread s k = some t) : nodeIn s k = t.node := by
  simp [nodeIn, h]

/-- R175: an access of the engine is owned by nobody and never performs unless it has performed. -/
theorem look_voidAccesses {s : State} {k i id : Nat} {t : Thread} {e : Eng} {a : Access} (h : getThread s k = some t)
    (ha : look s.accesses id = some a) (ho : a.owner = .engine k e i) :
    look (voidAccesses k e s).accesses id
      = some { a with owner := .gone, keeps := some (.engine k e i, t.node), void := !a.performed } := by
  refine (look_map (fun x => by exact rfl) s.accesses id).trans ?_
  simp [ha, ho, Access.lose, nodeIn_of h]

/-! The DROP of a channel and of M (R175, R269). -/

/-- R175: the engine without its word and its queue. -/
def Engine.emptied (x : Engine) : Engine := { x with run := none, queue := [], doneSeq := x.lastSeq, lost := 0 }

theorem dropEngine_halted {x : Engine} (h : x.fault.isSome = true) : dropEngine x = x.emptied := if_pos h

section
variable {s : State} {k : Nat} {t : Thread} (h : getThread s k = some t)
include h

/-- A channel that no deferred fault halts drops nothing. -/
theorem dropChannel_running {e : Eng} (hf : (getEngine t e).fault = none) : dropChannel k e s = s := by
  simp [dropChannel, h, hf]

theorem dropChannel_halted {e : Eng} (hf : (getEngine t e).fault.isSome = true) :
    ∃ d, dropChannel k e s
      = setThread (voidAccesses k e s) k (setEngine (t.counted (engineBounds s k t e) d) e (getEngine t e).emptied) := by
  obtain ⟨d, hd⟩ := countBounds_of (s := voidAccesses k e s) h (engineBounds s k t e)
  refine ⟨d, ?_⟩
  rw [← dropEngine_halted hf]
  simp only [dropChannel, h, hf, if_true, hd, modEngine, modThread_setThread]
  cases e <;> rfl

/-- R175: CHDROP of C0, while C1 is not halted, drops nothing of C1, whatever its bit says. -/
theorem writeChdrop_c0 {v : W64} (h0 : t.c0.fault.isSome = true) (h1 : t.c1.fault = none) (hv : flag v.toNat 0 = true) :
    ∃ d, writeChdrop k v s
      = setThread (voidAccesses k .c0 s) k { t.counted (engineBounds s k t .c0) d with c0 := t.c0.emptied } := by
  obtain ⟨d, hd⟩ := dropChannel_halted h (e := .c0) h0
  have hc1 : dropChannel k .c1 (dropChannel k .c0 s) = dropChannel k .c0 s := by
    rw [hd]
    exact dropChannel_running (getThread_setThread _ _ _) h1
  exact ⟨d, by simp only [writeChdrop, hv, if_true, hc1, ite_self]; exact hd⟩

theorem dropMatrix_running (hf : t.me.fault = none) : dropMatrix k s = s := by
  simp [dropMatrix, h, hf]

theorem dropMatrix_halted (hf : t.me.fault.isSome = true) : ∃ d, dropMatrix k s
    = setThread s k { t.counted (engineBounds s k t .m) d with
      me := t.me.emptied
      mx := { t.mx with act := false, index := [0, 0, 0, 0, 0, 0], prevA := none, popped := false } } := by
  obtain ⟨d, hd⟩ := countBounds_of h (engineBounds s k t .m)
  refine ⟨d, ?_⟩
  rw [← dropEngine_halted hf]
  simp only [dropMatrix, h, hf, if_true, hd, modThread_setThread]
  rfl

end

/-! LANDWIN (R166). -/

theorem bits_lt (w lo n : Nat) : bits w lo n < 2 ^ n := Nat.mod_lt _ (Nat.two_pow_pos n)

/-- The word that a write of LANDWIN stores: EN, PORT, RING and ADDR. -/
def landwinWord (en : Bool) (v : W64) : W64 :=
  word64 [(bit en, 63), (bits v.toNat 56 3, 56), (bits v.toNat 32 8, 32), (bits v.toNat 0 20, 0)]

theorem landwinWord_toNat (en : Bool) (v : W64) : (landwinWord en v).toNat
    = bit en * 2 ^ 63 + bits v.toNat 56 3 * 2 ^ 56 + bits v.toNat 32 8 * 2 ^ 32 + bits v.toNat 0 20 := by
  have hp := bits_lt v.toNat 56 3
  have hr := bits_lt v.toNat 32 8
  have ha := bits_lt v.toNat 0 20
  have he : bit en ≤ 1 := by cases en <;> decide
  simp only [landwinWord, word64, List.foldl_cons, List.foldl_nil, BitVec.toNat_ofNat]
  omega

@[simp] theorem flag_landwinWord (en : Bool) (v : W64) : flag (landwinWord en v).toNat 63 = en := by
  have hp := bits_lt v.toNat 56 3
  have hr := bits_lt v.toNat 32 8
  have ha := bits_lt v.toNat 0 20
  rw [landwinWord_toNat, flag, bits]
  cases en
  · exact decide_eq_false (by simp only [bit, Bool.false_eq_true, if_false]; omega)
  · exact decide_eq_true (by simp only [bit, if_true]; omega)

@[simp] theorem port_landwinWord (en : Bool) (v : W64) : bits (landwinWord en v).toNat 56 3 = bits v.toNat 56 3 := by
  have hp := bits_lt v.toNat 56 3
  have hr := bits_lt v.toNat 32 8
  have ha := bits_lt v.toNat 0 20
  rw [landwinWord_toNat, bits]
  omega

/-- A side that nobody claims is claimed by a slot that held none, whose ring restarts. -/
theorem writeLandwin_free {s : State} {k : Nat} {t : Thread} {v : W64} (h : getThread s k = some t)
    (hoff : flag t.sys.landwin.toNat 63 = false) (hen : flag v.toNat 63 = true) (hc : look s.claims (landPort k v) = none) :
    writeLandwin k v s = setThread { s with claims := put s.claims (landPort k v) k } k
      { t with sys := { t.sys with landwin := landwinWord true v, landed := 0 } } := by
  simp only [writeLandwin, h, hoff, hen, hc, Bool.false_and, Bool.and_self, Bool.false_eq_true, if_false, if_true,
    Bool.not_false, Bool.false_or]
  exact modSys_of (s := { s with claims := put s.claims (landPort k v) k }) h _

/-- A side that another slot claims stays with it. -/
theorem writeLandwin_claimed {s : State} {k j : Nat} {t : Thread} {v : W64} (h : getThread s k = some t)
    (hoff : flag t.sys.landwin.toNat 63 = false) (hj : j ≠ k) (hc : look s.claims (landPort k v) = some j) :
    writeLandwin k v s = setThread s k { t with sys := { t.sys with landwin := landwinWord false v } } := by
  simp only [writeLandwin, h, hoff, hc, hj, Bool.false_and, Bool.and_false, Bool.false_eq_true, if_false, decide_false, Bool.or_self]
  exact modSys_of h _

/-! What every write of a register leaves: memory, and the course of the thread. -/

/-- The program counter, the registers and the results in flight of u are those of t. -/
structure SameCourse (t u : Thread) : Prop where
  pc : u.pc = t.pc
  regs : u.regs = t.regs
  flight : u.flight = t.flight

theorem SameCourse.refl {t : Thread} : SameCourse t t := ⟨rfl, rfl, rfl⟩
theorem SameCourse.trans {t u w : Thread} (h : SameCourse t u) (h' : SameCourse u w) : SameCourse t w :=
  ⟨h'.pc.trans h.pc, h'.regs.trans h.regs, h'.flight.trans h.flight⟩

/-- From s to u memory stays, and the thread in slot k stays there and keeps its course. -/
structure KeepsCourse (k : Nat) (s u : State) : Prop where
  mem : u.mem = s.mem
  thread : ∀ t, getThread s k = some t → ∃ t', getThread u k = some t' ∧ SameCourse t t'

namespace KeepsCourse

variable {k : Nat} {s u w : State}

theorem refl : KeepsCourse k s s := ⟨rfl, fun t h => ⟨t, h, .refl⟩⟩
/-- The later change stands first, so that it fixes the state between the two. -/
theorem after (h' : KeepsCourse k u w) (h : KeepsCourse k s u) : KeepsCourse k s w := by
  refine ⟨h'.mem.trans h.mem, fun t ht => ?_⟩
  obtain ⟨t₁, h₁, hc₁⟩ := h.thread t ht
  obtain ⟨t₂, h₂, hc₂⟩ := h'.thread t₁ h₁
  exact ⟨t₂, h₂, hc₁.trans hc₂⟩
theorem ite {c : Prop} [Decidable c] (h : KeepsCourse k s u) (h' : KeepsCourse k s w) :
    KeepsCourse k s (if c then u else w) := by
  split
  · exact h
  · exact h'
theorem modThread {f : Thread → Thread} (hf : ∀ t, SameCourse t (f t)) : KeepsCourse k s (modThread k f s) :=
  ⟨modThread_mem s k f, fun t h => ⟨f t, by rw [getThread_modThread, h, Option.map_some], hf t⟩⟩
theorem modSys {f : Sys → Sys} : KeepsCourse k s (modSys k f s) := modThread fun _ => ⟨rfl, rfl, rfl⟩
theorem modEngine {e : Eng} {f : Engine → Engine} : KeepsCourse k s (modEngine k e f s) :=
  modThread fun _ => by cases e <;> exact ⟨rfl, rfl, rfl⟩
theorem noteOwner : KeepsCourse k s (noteOwner k s) :=
  ⟨noteOwner_mem k s, fun t h => ⟨t, (getThread_noteOwner k k s).trans h, .refl⟩⟩
theorem releaseClaim : KeepsCourse k s (releaseClaim k s) := ⟨rfl, fun t h => ⟨t, h, .refl⟩⟩
theorem claim {l : List (Nat × Nat)} : KeepsCourse k s { s with claims := l } := ⟨rfl, fun t h => ⟨t, h, .refl⟩⟩
theorem voidAccesses {e : Eng} : KeepsCourse k s (voidAccesses k e s) := ⟨rfl, fun t h => ⟨t, h, .refl⟩⟩
theorem countDrop {dev n : Nat} {host : Bool} : KeepsCourse k s (countDrop k dev n host s) :=
  ite refl (modThread fun _ => by exact ⟨rfl, rfl, rfl⟩)
theorem countBounds {bs : List Bound} : KeepsCourse k s (countBounds k bs s) := by
  induction bs generalizing s with
  | nil => exact refl
  | cons b bs ih => exact after ih countDrop
theorem dropChannel {e : Eng} : KeepsCourse k s (dropChannel k e s) := by
  unfold Machine.dropChannel
  split
  · exact ite (after modEngine (after countBounds voidAccesses)) refl
  · exact refl
theorem dropMatrix : KeepsCourse k s (dropMatrix k s) := by
  unfold Machine.dropMatrix
  split
  · exact ite (after (modThread fun _ => by exact ⟨rfl, rfl, rfl⟩) countBounds) refl
  · exact refl
theorem writeChdrop {v : W64} : KeepsCourse k s (writeChdrop k v s) :=
  have h0 : KeepsCourse k s (if flag v.toNat 0 then Machine.dropChannel k .c0 s else s) := ite dropChannel refl
  after (ite dropChannel refl) h0
theorem writeMnest1 {v : W64} : KeepsCourse k s (writeMnest1 k v s) := by
  unfold Machine.writeMnest1
  exact ite (after dropMatrix (modThread fun _ => by exact ⟨rfl, rfl, rfl⟩)) (modThread fun _ => by exact ⟨rfl, rfl, rfl⟩)
theorem writeLandwin {v : W64} : KeepsCourse k s (writeLandwin k v s) := by
  unfold Machine.writeLandwin
  split
  · exact refl
  · exact after modSys (ite (after claim (ite releaseClaim refl)) (ite releaseClaim refl))

/-- R6, R371: whatever register is written. -/
theorem writeSys (n : Nat) (v : W64) : KeepsCourse k s (writeSys k n v s) := by
  have hsrseed : KeepsCourse k s (writeSrseed k v s) := modThread fun _ => ⟨rfl, rfl, rfl⟩
  have hasid : KeepsCourse k s (writeAsid k v s) := modThread fun _ => ⟨rfl, rfl, rfl⟩
  have hwdlimit : KeepsCourse k s (writeWdlimit k v s) := modThread fun _ => ⟨rfl, rfl, rfl⟩
  have hfrec : KeepsCourse k s (popRecord k s) := modThread fun _ => ⟨rfl, rfl, rfl⟩
  have hmnest0 : KeepsCourse k s (writeMnest0 k v s) := modThread fun _ => ⟨rfl, rfl, rfl⟩
  unfold Machine.writeSys
  exact ite modSys <| ite hsrseed <| ite (after noteOwner hasid)
    <| ite modSys <| ite modSys <| ite modSys <| ite modSys <| ite modSys <| ite hwdlimit
    <| ite (after noteOwner modSys) <| ite (after noteOwner modSys)
    <| ite modSys <| ite modSys <| ite modSys <| ite modSys
    <| ite hfrec <| ite writeLandwin <| ite modSys <| ite hmnest0 <| ite writeMnest1 <| ite writeChdrop refl

end KeepsCourse

theorem writeSys_trappc (k : Nat) (v : W64) (s : State) :
    writeSys k 0x014 v s = modSys k (fun y => { y with trappc := v &&& 0xFFFFFFFFFFFFFFF0 }) s := rfl

/-! What a register reads after its write (R371). -/

/-- The registers of a thread that store what is written, each with its writable bits. -/
def writableBits : List (Nat × W64) :=
  [(0x000, 0x1F07), (0x001, 0xFFFFFFFF), (0x002, 0xFFFF), (0x010, 0xFFFFFFFFFFFFFFF1), (0x011, 0xFFFFFFFF007F0000),
    (0x012, 0xFFFFFFFFFFFFFFFF), (0x013, 0xFFFFFFFFFFFFFFFF), (0x014, 0xFFFFFFFFFFFFFFF0), (0x015, 0xFFFFFFFF),
    (0x040, 0x1FF000FF000), (0x041, 0x7FFFFDFFFFF), (0x042, 0xFFFFFFFF), (0x043, 0x3FF), (0x045, 0xFFFFFFFF),
    (0x06A, 0xFFFFF000)]

theorem and_allBits (v : W64) : v &&& 0xFFFFFFFFFFFFFFFF#64 = v := BitVec.and_allOnes

theorem readSys_writeSys {n k : Nat} {m v : W64} {s : State} {t : Thread} (hm : (n, m) ∈ writableBits)
    (h : getThread (writeSys k n v s) k = some t) : readSys t n = v &&& m := by
  simp only [writableBits, List.mem_cons, Prod.mk.injEq, List.not_mem_nil, or_false] at hm
  rcases hm with ⟨rfl, rfl⟩ | ⟨rfl, rfl⟩ | ⟨rfl, rfl⟩ | ⟨rfl, rfl⟩ | ⟨rfl, rfl⟩ | ⟨rfl, rfl⟩ | ⟨rfl, rfl⟩ | ⟨rfl, rfl⟩
    | ⟨rfl, rfl⟩ | ⟨rfl, rfl⟩ | ⟨rfl, rfl⟩ | ⟨rfl, rfl⟩ | ⟨rfl, rfl⟩ | ⟨rfl, rfl⟩ | ⟨rfl, rfl⟩
  all_goals
    simp only [writeSys, modSys, writeSrseed, writeAsid, writeWdlimit, fpcWritable, Nat.reduceEqDiff, reduceCtorEq,
      if_true, if_false, getThread_noteOwner, getThread_modThread, Option.map_eq_some_iff] at h
    obtain ⟨u, -, rfl⟩ := h
    simp [readSys, and_allBits]

/-! The registers of the hub (R6, R110, R390, R397). -/

theorem foldl_peers_eq {α : Type} {f : State → α → State} (hf : ∀ s a, ∃ ps, f s a = { s with peers := ps }) (l : List α)
    (s : State) : ∃ ps, l.foldl f s = { s with peers := ps } := by
  induction l generalizing s with
  | nil => exact ⟨s.peers, rfl⟩
  | cons a as ih =>
    obtain ⟨ps, h⟩ := hf s a
    obtain ⟨qs, h'⟩ := ih { s with peers := ps }
    exact ⟨qs, by rw [List.foldl_cons, h, h']⟩

/-- R143: noting the paths changes what is known of the peers only. -/
theorem notePaths_eq (s : State) : ∃ ps, notePaths s = { s with peers := ps } :=
  foldl_peers_eq (fun s d => by split <;> exact ⟨_, rfl⟩) s.dommap s

/-- A write of a whole hub register that the hub's table allows. -/
theorem evRegisterWrite_hub {s : State} {o m : Nat} (ho : o % 8 = 0) (h : refuse s m (hubPa s + o) 8 rightW = none) (v : W64) :
    evRegisterWrite (.hub o m) v s = writeHub o m v s := by
  have hw : o / 8 * 8 = o := by omega
  simp [evRegisterWrite, hw, h]
theorem evRegisterWrite_hub_refused {s : State} {o m : Nat} (ho : o % 8 = 0) (h : refuse s m (hubPa s + o) 8 rightW ≠ none) (v : W64) :
    evRegisterWrite (.hub o m) v s = s := by
  have hw : o / 8 * 8 = o := by omega
  simp [evRegisterWrite, hw, h]

theorem writeHub_tvecdef (m : Nat) (v : W64) (s : State) : writeHub 0x200010 m v s
    = if isFirmware s m then { s with tvecdef := v &&& 0xFFFFFFFFFFFFFFF1 } else s := rfl
theorem writeHub_asidtab (m : Nat) (v : W64) (s : State) : writeHub 0x200020 m v s
    = if isFirmware s m then { s with asidtab := v &&& 0x80FFFFFFFFF80000 } else s := rfl
theorem writeHub_migpool {i : Nat} (hi : i < 16) (m : Nat) (v : W64) (s : State) : writeHub (0x200100 + 8 * i) m v s
    = if isFirmware s m then { s with migpool := put s.migpool i (v &&& 0x00FFFFFFFFFFF3FF) } else s := by
  have hidx : (0x200100 + 8 * i - 0x200100) / 8 = i := by omega
  unfold writeHub
  rw [if_neg (by omega), if_neg (by omega), if_neg (by omega), if_neg (by omega), if_neg (by omega), if_neg (by omega),
    if_pos (by omega), hidx]
theorem writeHub_rlytab {b : Nat} (hb : b < 1024) (m : Nat) (v : W64) (s : State) : writeHub (0x102000 + 8 * b) m v s
    = notePaths { s with rlytab := put s.rlytab b (v &&& 0x000070FFFFFFFC00) } := by
  have hidx : (0x102000 + 8 * b - 0x102000) / 8 = b := by omega
  unfold writeHub
  rw [if_neg (by omega), if_neg (by omega), if_pos (by omega), hidx]

/-- R6: the privileged registers of the hub take a write from the firmware only. -/
theorem evRegisterWrite_hub_unprivileged {s : State} {o m : Nat} (ho : o ∈ [0x200010, 0x200020, 0x200100])
    (hf : isFirmware s m = false) (v : W64) : evRegisterWrite (.hub o m) v s = s := by
  obtain ⟨hw, ho8⟩ : writeHub o m v s = s ∧ o % 8 = 0 := by
    simp only [List.mem_cons, List.not_mem_nil, or_false] at ho
    rcases ho with rfl | rfl | rfl
    · simp [writeHub_tvecdef, hf]
    · simp [writeHub_asidtab, hf]
    · simp [writeHub_migpool (i := 0), hf]
  by_cases h : refuse s m (hubPa s + o) 8 rightW = none
  · rw [evRegisterWrite_hub ho8 h, hw]
  · exact evRegisterWrite_hub_refused ho8 h v

/-- The flag of a word is its bit. -/
theorem flag_toNat (w : W64) (i : Nat) : flag w.toNat i = w.getLsbD i := by
  rw [BitVec.getLsbD, Nat.testBit_eq_decide_div_mod_eq, flag, bits, Nat.pow_one]

theorem enables_or_one (v : W64) : flag ((v ||| 1) &&& 0xFFFFFFFFFFFFFF01 : W64).toNat 0 = true := by
  rw [flag_toNat]; simp

/-- R390: a write that enables the ring while it is on is ignored whole; otherwise consumption starts afresh. -/
theorem evCmdringEnable_on {s : State} (h : flag s.cmdring.toNat 0 = true) (v : W64) : evCmdringEnable v s = s :=
  (if_pos (enables_or_one v)).trans (if_pos h)
theorem evCmdringEnable_off {s : State} (h : flag s.cmdring.toNat 0 = false) (v : W64) : evCmdringEnable v s =
    { s with cmdring := (v ||| 1) &&& 0xFFFFFFFFFFFFFF01, ringIndex := 0, ringPass := 0, consumed := 0 } :=
  (if_pos (enables_or_one v)).trans (if_neg (by simp [ringOn, h]))
theorem evCmdringDisable_eq (v : W64) (s : State) : evCmdringDisable v s = { s with cmdring := v &&& 0xFFFFFFFFFFFFFF00 } := by
  have hw : v &&& ~~~1 &&& 0xFFFFFFFFFFFFFF01 = v &&& 0xFFFFFFFFFFFFFF00 := by rw [BitVec.and_assoc]; rfl
  have hoff : flag (v &&& 0xFFFFFFFFFFFFFF00 : W64).toNat 0 = false := by
    rw [flag_toNat]; simp
  unfold evCmdringDisable writeCmdring
  simp only [hw, hoff, Bool.false_eq_true, if_false]

/-- The write of a register of a thread, within the checks of its value. -/
theorem evRegisterWrite_thread {s : State} {k n : Nat} {t : Thread} {v : W64} (h : getThread s k = some t) (ht : writeTraps t n v = []) :
    evRegisterWrite (.thread k n) v s = writeSys k n v s := by
  simp [evRegisterWrite, h, ht]
theorem evRegisterWrite_thread_traps {s : State} {k n : Nat} {t : Thread} {v : W64} (h : getThread s k = some t) (ht : writeTraps t n v ≠ []) :
    evRegisterWrite (.thread k n) v s = s := by
  simp [evRegisterWrite, h, ht]
theorem evLandwinWrite_of {s : State} {k : Nat} {t : Thread} {v : W64} (h : getThread s k = some t) (ht : writeTraps t 0x066 v = [])
    (hs : t.spec = false) : evLandwinWrite k v s = writeLandwin k v s := by
  simp [evLandwinWrite, h, ht, hs]
theorem evLandwinWrite_traps {s : State} {k : Nat} {t : Thread} {v : W64} (h : getThread s k = some t) (ht : writeTraps t 0x066 v ≠ []) :
    evLandwinWrite k v s = s := by
  simp [evLandwinWrite, h, ht]

end Sys2Proof.Machine
end

section
/-! PROOFS. Writes of registers as events of their own (O51). -/

namespace Sys2Proof.Machine

section
variable {s : State} {k : Nat} {t : Thread} (h : getThread s k = some t)
include h

/-- R82, R195, R248: the thread is written first, so that its windows and accumulators are those of the new space. -/
theorem exec_asidregWrite_of (v : W64) : ∃ u, exec (.asidregWrite k v) s = .next u ∧ u.mem = s.mem
    ∧ (∃ l, look u.accAsid k = some l ∧ v.toNat % 65536 ∈ l ∧ ∀ a ∈ (look s.accAsid k).getD [], a ∈ l)
    ∧ getThread u k = some (t.withAsid v) := by
  have hasid : bits (t.withAsid v).sys.asidreg.toNat 0 16 = v.toNat % 65536 := by
    have hand : (v &&& 0xFFFF).toNat = v.toNat % 2 ^ 16 := Nat.and_two_pow_sub_one_eq_mod v.toNat 16
    rw [Thread.withAsid, hand, bits, Nat.pow_zero, Nat.div_one]
    exact Nat.mod_mod _ _
  obtain ⟨l, hl, hnew, hold⟩ := noteOwner_accAsid (getThread_setThread s k (t.withAsid v))
  rw [hasid] at hnew
  rw [exec_asidregWrite, evAsidregWrite, writeAsid_of h]
  exact ⟨_, rfl, noteOwner_mem _ _, ⟨l, hl, hnew, hold⟩, by simp⟩

/-- R6, R371. -/
theorem exec_registerWrite_thread {n : Nat} {v : W64} (ht : writeTraps t n v = []) : ∃ u t',
    exec (.registerWrite (.thread k n) v) s = .next u ∧ u.mem = s.mem ∧ getThread u k = some t'
      ∧ t'.pc = t.pc ∧ t'.regs = t.regs ∧ t'.flight = t.flight ∧ ∀ m : W64, (n, m) ∈ writableBits → readSys t' n = v &&& m := by
  have hk : KeepsCourse k s (writeSys k n v s) := KeepsCourse.writeSys n v
  obtain ⟨t', ht', hc⟩ := hk.thread t h
  refine ⟨_, t', ?_, hk.mem, ht', hc.pc, hc.regs, hc.flight, fun m hm => readSys_writeSys hm ht'⟩
  rw [exec_registerWrite, evRegisterWrite_thread h ht]

end

/-- R113. -/
theorem exec_accessTableWrite_of (n : Nat) {i : Nat} (hi : i < 64) (v : BitVec 128) (s : State) :
    ∃ u, exec (.accessTableWrite n i v) s = .next u ∧ tableEntry u ⟨n / 0x100000, n % 0x100000⟩ i = v ∧ u.mem = s.mem := by
  rw [exec_accessTableWrite, evAccessTableWrite, if_pos hi]
  exact ⟨_, rfl, by simp [tableEntry, setTable], rfl⟩

/-- Settles O51: each clause is the equation of its operation; CHDROP, the access of a dropped word and the write of any
register rest on `writeChdrop_c0`, `look_voidAccesses` and `KeepsCourse.writeSys`. -/
theorem registerWriteEvents : Obligations.RegisterWriteEvents := by
  intro s k t h
  have outcome {u w : State} (huw : u = w) : (.next u : Host.Outcome State Fault Refusal) = .next w := congrArg _ huw
  refine ⟨exec_asidregWrite_of h, ?srseed, ?frecpop, ?wdlimit, ?chdrop, ?mnest1, ?mnest1Running, ?landwin, ?landwinTraps,
    ?enable, ?enabled, ?disable, fun n i v hi => exec_accessTableWrite_of n hi v s, ?trappc, ?traps,
    fun n v => exec_registerWrite_thread h, ?tvecdef, ?asidtab, ?migpool, ?unprivileged, ?rlytab, ?refused⟩
  case srseed => exact fun v => outcome (writeSrseed_of h v)
  case frecpop => exact outcome (popRecord_of h)
  case wdlimit => exact fun v => outcome (writeWdlimit_of h v)
  case chdrop =>
    intro v h0 h1 hv
    obtain ⟨d, hd⟩ := writeChdrop_c0 h h0 h1 hv
    exact ⟨_, _, outcome hd, rfl, getThread_setThread _ _ _, rfl, fun id a i ha ho => look_voidAccesses h ha ho⟩
  case mnest1 =>
    intro hf
    obtain ⟨d, hd⟩ := dropMatrix_halted h hf
    exact ⟨_, outcome hd, rfl⟩
  case mnest1Running => exact fun hf => outcome (dropMatrix_running h hf)
  case landwin =>
    intro v ht hs hoff hen
    refine ⟨fun hc => ?free, fun j hj hc => ?claimed⟩
    case free =>
      have hw := (evLandwinWrite_of h ht hs).trans (writeLandwin_free h hoff hen hc)
      exact ⟨_, _, outcome hw, look_put _ _ _, getThread_setThread _ _ _, rfl, flag_landwinWord true v, port_landwinWord true v⟩
    case claimed =>
      have hw := (evLandwinWrite_of h ht hs).trans (writeLandwin_claimed h hoff hj hc)
      exact ⟨_, _, outcome hw, rfl, getThread_setThread _ _ _, flag_landwinWord false v⟩
  case landwinTraps => exact fun v ht => outcome (evLandwinWrite_traps h ht)
  case enable => exact fun v hoff => outcome (evCmdringEnable_off hoff v)
  case enabled => exact fun v hon => outcome (evCmdringEnable_on hon v)
  case disable => exact fun v => outcome (evCmdringDisable_eq v s)
  case trappc =>
    exact fun v => outcome ((evRegisterWrite_thread h rfl).trans ((writeSys_trappc k v s).trans (modSys_of h _)))
  case traps => exact fun n v ht => outcome (evRegisterWrite_thread_traps h ht)
  case tvecdef => exact fun v m hf hr => outcome ((evRegisterWrite_hub rfl hr v).trans (if_pos hf))
  case asidtab => exact fun v m hf hr => outcome ((evRegisterWrite_hub rfl hr v).trans (if_pos hf))
  case migpool =>
    intro v m i hi hf hr
    have ho : (0x200100 + 8 * i) % 8 = 0 := by omega
    exact outcome ((evRegisterWrite_hub ho hr v).trans ((writeHub_migpool hi m v s).trans (if_pos hf)))
  case unprivileged => exact fun v m o ho hf => outcome (evRegisterWrite_hub_unprivileged ho hf v)
  case rlytab =>
    intro v m b hb hr
    have ho : (0x102000 + 8 * b) % 8 = 0 := by omega
    obtain ⟨ps, hps⟩ := notePaths_eq { s with rlytab := put s.rlytab b (v &&& 0x000070FFFFFFFC00) }
    have hw := (evRegisterWrite_hub ho hr v).trans ((writeHub_rlytab hb m v s).trans hps)
    exact ⟨_, outcome hw, rfl, rfl, rfl⟩
  case refused => exact fun v m o ho hr => outcome (evRegisterWrite_hub_refused ho hr v)

end Sys2Proof.Machine
end
